-- ==== Sys2Proof/Word.lean ====
section
/-!
DEFINITION. The machine's word types (00_scope.md R4): 64-bit registers, bytes, and the 19-bit program counter.
-/

namespace Sys2Proof

/-- A scalar register or doubleword: 64 bits (02_encoding.md R51). -/
abbrev Word := BitVec 64

/-- A byte of memory. -/
abbrev Byte := BitVec 8

/-- A program counter: an offset into the movement's instruction store, modulo 2^19 (02_encoding.md R33). -/
abbrev Offset := BitVec 19

end Sys2Proof
end

