-- ==== Sys2Proof/Machine/Messages.lean ====
section
/-!
DEFINITION. The messages that travel between the device's agents and reach it from outside: token operations, watches and
remote requests (08_tokens.md, 16_pod.md).
-/

namespace Sys2Proof

/-- A token operation on its way to the token unit of its home core (08_tokens.md R237 to R246, Table 8.7).
`code` is the operation code of Table 8.7, or 8 for the notify add of R251, 9 for the arrival of vfence.arrive (R288), 0 for the
reading of a cell (R241, R257) and 16 for fnext (07_coroutines.md R223); `crew` is
the target crew of R246; `isUser` tells a user issuer; `toStatus` that the form's reply field is 0 (R244). -/
structure TokenOp where
  code : BitVec 8
  handle : Word
  operand : Word
  scope : BitVec 3
  reply : Word
  toStatus : Bool
  crew : BitVec 7
  isUser : Bool
  srcDev : BitVec 10
  srcCore : BitVec 10
  srcSlot : BitVec 8
  deriving DecidableEq, Repr

/-- A watch that a waiter's escapement holds at the home core of a cell (08_tokens.md R243), with its target crew (R246). -/
structure Watch where
  handle : Word
  phase : Word
  dev : BitVec 10
  core : BitVec 10
  slot : BitVec 8
  crew : BitVec 7
  deriving DecidableEq, Repr

/-- What a remote operation asks at the ingress of the device (16_pod.md R439). -/
inductive RemoteKind where
  | load
  | store
  | atomic (function : BitVec 4)
  | token
  | watch
  | reserve
  deriving DecidableEq, Repr

/-- A remote operation as it arrives at the ingress (16_pod.md R439): the stamped crew and device, the remote pointer or
handle, the number of bytes, the operands, and the bytes of a sector. -/
structure RemoteReq where
  kind : RemoteKind
  crew : BitVec 7
  dev : BitVec 10
  addr : Word
  bytes : BitVec 9
  operand : Word
  expected : Word
  op : TokenOp
  data : BitVec 2048
  deriving DecidableEq, Repr

end Sys2Proof
end

