-- ==== Sys2Proof/Syntax.lean ====
section
/-!
DEFINITION. The instruction syntax: one constructor for each row of the operation table (Table 2.5, Table 2.8
and the device's own steps of 95_what_each_step_holds.md). A field keeps the width its encoding gives it.
-/

namespace Sys2Proof

/-- The instructions and device steps. -/
inductive Instr where
  /-- QUANTUM_EXPIRY (R203): When left reaches zero the coroutine is switched out or its quantum reloads. -/
  | quantumExpiry
  /-- PREEMPT_SWITCH (R205): A ready crew 0 coroutine forces the running user coroutine off at the next pre-emption point. -/
  | preemptSwitch
  /-- CONTEXT_SPILL (R194): The escapement moves the least recently ready context whole to the spill reserve. -/
  | contextSpill
  /-- CONTEXT_REFILL (R194): The escapement brings a selected or early-ready spilled context back into the cache. -/
  | contextRefill (slot : BitVec 8)
  /-- VECTOR_MICRO_OP (R145): An element-group micro-operation issues once its port, mask and sources are ready. -/
  | vectorMicroOp
  /-- VECTOR_COMMIT (R146): The oldest finished vector instruction commits in program order. -/
  | vectorCommit
  /-- VFENCE_SIGNAL (R288): Once covered vector accesses are performed, the vfence.arrive signal is sent. -/
  | vfenceSignal
  /-- SORTER_SERVICE (R421): The movement's sorter takes a startable topk in rotation and writes its result. -/
  | sorterService
  /-- MATRIX_ENTRY_START (R354): A matrix queue entry starts once its resources and sources are ready. -/
  | matrixEntryStart
  /-- TILE_UNIT_FREE (R346): A released tile unit becomes free after zeroing and raises the row-release count. -/
  | tileUnitFree (mov : BitVec 8) (unit : BitVec 3)
  /-- COPY_CHANNEL_START (R313): A free channel takes the oldest startable command of the core in turn. -/
  | copyChannelStart (chan : BitVec 4)
  /-- COPY_UNIT_COMPLETE (R315): A completed unit sends its sector operations and sets its chunk bits. -/
  | copyUnitComplete (entry : BitVec 3)
  /-- COPY_FAULT (R316): A faulting copy access stops the channel at a unit boundary and waits or is stopped with a record. -/
  | copyFault (entry : BitVec 3)
  /-- COPY_RESTART (R316): A command whose fault token is signalled restarts first when a channel frees. -/
  | copyRestart (entry : BitVec 3)
  /-- GATHER_UNIT_BURST (R404): A base-die gather unit issues a pseudo-channel's next burst and packs elements. -/
  | gatherUnitBurst (entry : BitVec 3)
  /-- TOKEN_OP_SEND (R240): A queued outgoing token operation is sent once its release stores are performed. -/
  | tokenOpSend
  /-- TOKEN_OP_APPLY (R237): A cell's home token unit applies one arriving operation atomically. -/
  | tokenOpApply (op : TokenOp)
  /-- LOG_REPLAY (R249): A replay-pending core applies its valid log entries in ring order, then leaves replay. -/
  | logReplay
  /-- TOKEN_WATCH (R243): A watch for a remote waiter is evaluated at the home and stored or answered. -/
  | tokenWatch (w : Watch)
  /-- WAKE (R243): A wake from the home makes the waiting slot ready. -/
  | wake (w : Watch)
  /-- RECHECK (R243): A recheck makes a core send its watches for the home again. -/
  | recheck (dev : BitVec 10) (home : BitVec 10)
  /-- MAILBOX_RESERVATION (R260): A send's reservation at the mailbox home reserves a posted buffer or fails. The issuer is its device
  number and its core, in the order of a handle's bits 63:44. -/
  | mailboxReservation (handle : Word) (len : BitVec 24) (crew : BitVec 7) (issuer : BitVec 20)
  /-- MAILBOX_DELIVERY (R260): Once a send's bytes are performed, the slot is marked delivered and the future set. -/
  | mailboxDelivery (handle : Word) (pos : BitVec 16) (word : Word) (reply : Word)
  /-- PAGE_WALK (R376): A die walker translates a missed address through the tables. -/
  | pageWalk (va : Word) (store : Bool)
  /-- ARENA_FAULT_RECORD (R388): An arena fault record is delivered to the arena's mailbox when a buffer is posted. -/
  | arenaFaultRecord (die : BitVec 2) (key : Nat)
  /-- ATS_TRANSLATION_RESPONSE (R379): A host ATS response translates the access or raises PAGE_FAR with a PRI request. -/
  | atsTranslationResponse (asid : BitVec 16) (va : Word) (ha : Word) (perm : BitVec 2)
  /-- ATS_INVALIDATE_REQUEST (R379): A host ATS invalidation removes translations and is answered with a completion. -/
  | atsInvalidateRequest (asid : BitVec 16) (va : Word) (len : Word)
  /-- PRI_PAGE_RESPONSE (R385): A PRI Page Request Group Response signals matching fault entries. -/
  | priPageResponse (asid : BitVec 16) (va : Word) (code : BitVec 4)
  /-- L1_WRITEBACK (R101): A dirty scalar L1 line's dirty bytes are written back at any time. -/
  | l1Writeback (line : Nat)
  /-- BURST_RESEND (R406): An HBM burst failing its CRC is resent up to 4 times. -/
  | burstResend (addr : Nat) (fails : BitVec 3) (write : Bool)
  /-- LIVE_LANE_REPAIR (R407): After 8 CRC failures a lane is steered onto a spare with a bounded stall. -/
  | liveLaneRepair (chan : BitVec 10)
  /-- PATROL_SCRUB (R411): Patrol scrub reads and corrects bursts in place. -/
  | patrolScrub (addr : Nat)
  /-- SWAP_REQUEST (R412): The swap unit accepts the next ring request, checking it. -/
  | swapRequest
  /-- SWAP_LINE_EXCHANGE (R413): One line of a swap pair is exchanged indivisibly and its bitmap bit set. -/
  | swapLineExchange (pair : BitVec 4)
  /-- SWAP_PAIR_RETIRE (R414): After the last line, entries are swapped, translations removed and the future set. -/
  | swapPairRetire (pair : BitVec 4)
  /-- INGRESS_CHECK (R439): An arriving remote operation is checked against its window and admitted or refused. -/
  | ingressCheck (req : RemoteReq)
  /-- ENDPOINT_CACHE_FETCH (R438): A window entry missing from the endpoint cache is fetched while the operation waits. -/
  | endpointCacheFetch (index : BitVec 12)
  /-- WINDOW_DRAIN_FREE (R447): A closing window whose in-flight count reaches 0 is freed and its future set. -/
  | windowDrainFree (index : BitVec 12)
  /-- LINK_LEVEL_RETRY (R433): A UALink flit failing CRC is replayed. -/
  | linkLevelRetry (port : BitVec 5)
  /-- PORT_FAILURE (R433): A failed port is drained and its routes moved without loss or reordering. -/
  | portFailure (port : BitVec 5) (spare : BitVec 5)
  /-- BAR2_ACCESS (R452): A host BAR2 access is performed at the L2 home slice of its line. -/
  | bar2Access (write : Bool) (offset : Nat) (size : BitVec 4) (value : Word)
  /-- PCIE_LINK_TRAINING (R452): The endpoint trains in FLIT mode or leaves the link untrained. -/
  | pcieLinkTraining (flit : Bool)
  /-- IDE_KM (R453): IDE stream keys are programmed through IDE_KM over DOE. -/
  | ideKm (stream : BitVec 3) (key : Word)
  /-- BOOT (R459): After a package reset the ROM trains, draws a context key, zeroes state and sets ready. -/
  | boot
  /-- POWER_THROTTLE (R465): The power manager lowers movement clocks to bring an overshoot under the cap. -/
  | powerThrottle (mov : BitVec 8)
  /-- AUTO_GATE_M1 (R466): A movement idle for 100 µs under auto gating enters M1. -/
  | autoGateM1 (mov : BitVec 8)
  /-- AUTO_GATE_M2 (R466): A movement idle for 10 ms under auto gating enters M2. -/
  | autoGateM2 (mov : BitVec 8)
  /-- MOVEMENT_WAKE (R466): A slot becoming ready returns an M1 or M2 movement to M0. -/
  | movementWake (mov : BitVec 8)
  /-- IDENTIFY (R456): Returns ident, Bs, swap ring, state, keys and the ROM's HBM range. -/
  | identify
  /-- ATTEST_REPORT (R461): ATTEST op 0 writes a report signed with the identity key. -/
  | attestReport
  /-- ATTEST_WRAP (R462): ATTEST op 1 wraps the context key for a peer public key. -/
  | attestWrap
  /-- ATTEST_UNWRAP (R462): ATTEST op 2 unwraps a blob and replaces the context key. -/
  | attestUnwrap
  /-- CREW_CREATE (R456): Creates a user crew with asid, pools, log and reserve size. -/
  | crewCreate
  /-- CREW_DESTROY (R458): Empties, cancels, unbinds, closes windows and frees every frame of a crew. -/
  | crewDestroy
  /-- CODE_LOAD (R456): Copies code into the instruction stores of the masked movements. -/
  | codeLoad
  /-- BIND (R456): Binds or unbinds a crew on a range of cores by crew.bind, ending replay unless kept. -/
  | bind
  /-- FARM_LAUNCH (R457): Runs farm on behalf of a user crew with a system-scope release. -/
  | farmLaunch
  /-- SIGNAL (R456): Applies or logs a token operation from the host with a system-scope release. -/
  | signal
  /-- PREEMPT_COMMAND (R456): Runs preempt on a coroutine from the host. -/
  | preemptCommand
  /-- WINDOW_REGISTER (R456): Opens a window for a crew as wopen does. -/
  | windowRegister
  /-- POWER_SET_CAP (R465): POWER_SET op 0 sets the package power cap. -/
  | powerSetCap
  /-- POWER_SET_STATE (R466): POWER_SET op 1 moves masked movements to M0 to M3. -/
  | powerSetState
  /-- POWER_SET_GATING (R465): POWER_SET op 2 sets the gating policy to manual or auto. -/
  | powerSetGating
  /-- DEBUG_SET_LEVEL (R463): DEBUG_SET op 0 sets the debug level under lifecycle limits. -/
  | debugSetLevel
  /-- DEBUG_SET_WATCH (R464): DEBUG_SET op 1 arms a watch range of a crew. -/
  | debugSetWatch
  /-- DEBUG_SET_COPY (R463): DEBUG_SET op 2 copies a held coroutine's saved image to memory. -/
  | debugSetCopy
  /-- ERROR_QUERY (R456): Returns and removes up to 31 queued error records. -/
  | errorQuery
  /-- REPAIR_STATUS (R456): Returns a stack's counters and degraded mask, or failed ports. -/
  | repairStatus
  /-- PATCH_APPLY (R460): Verifies and stores a firmware patch or applies a lifecycle transition. -/
  | patchApply
  /-- PORT_CONFIGURATION (R17): When the UALink ports are configured, the pod fabric assigns the device number and the Kerlo ROM fills the
  route table and reserves the token-signal range. -/
  | portConfiguration (dev : BitVec 10) (peers : List Nat)
  /-- RESERVED_ENCODING (R39): The front end decodes a reserved or unassigned encoding at its place in program order and traps ILLEGAL with no
  effect. -/
  | reservedEncoding
  /-- ADD (R108): Writes x[a] + x[b] modulo 2^64 to x[d]. -/
  | add (d : BitVec 5) (a : BitVec 5) (b : BitVec 5)
  /-- SUB (R108): Writes x[a] − x[b] modulo 2^64 to x[d]. -/
  | sub (d : BitVec 5) (a : BitVec 5) (b : BitVec 5)
  /-- AND (R108): Writes the bitwise and of x[a] and x[b] to x[d]. -/
  | and (d : BitVec 5) (a : BitVec 5) (b : BitVec 5)
  /-- OR (R108): Writes the bitwise or of x[a] and x[b] to x[d]. -/
  | or (d : BitVec 5) (a : BitVec 5) (b : BitVec 5)
  /-- XOR (R108): Writes the bitwise exclusive or of x[a] and x[b] to x[d]. -/
  | xor (d : BitVec 5) (a : BitVec 5) (b : BitVec 5)
  /-- SLL (R108): Shifts x[a] left by x[b][5:0], zeros in. -/
  | sll (d : BitVec 5) (a : BitVec 5) (b : BitVec 5)
  /-- SRL (R108): Shifts x[a] right logically by x[b][5:0]. -/
  | srl (d : BitVec 5) (a : BitVec 5) (b : BitVec 5)
  /-- SRA (R108): Shifts x[a] right arithmetically by x[b][5:0]. -/
  | sra (d : BitVec 5) (a : BitVec 5) (b : BitVec 5)
  /-- SLT (R108): Writes 1 if x[a] < x[b] signed, else 0. -/
  | slt (d : BitVec 5) (a : BitVec 5) (b : BitVec 5)
  /-- SLTN (R108): Writes 1 if x[a] < x[b] unsigned, else 0. -/
  | sltn (d : BitVec 5) (a : BitVec 5) (b : BitVec 5)
  /-- MUL (R108): Writes the low 64 bits of x[a] × x[b]. -/
  | mul (d : BitVec 5) (a : BitVec 5) (b : BitVec 5)
  /-- MULH (R108): Writes the high 64 bits of the signed product. -/
  | mulh (d : BitVec 5) (a : BitVec 5) (b : BitVec 5)
  /-- MULHN (R108): Writes the high 64 bits of the unsigned product. -/
  | mulhn (d : BitVec 5) (a : BitVec 5) (b : BitVec 5)
  /-- DIV (R109): Signed quotient, all ones and idz on a zero divisor, no trap. -/
  | div (d : BitVec 5) (a : BitVec 5) (b : BitVec 5)
  /-- DIVN (R109): Unsigned quotient with the division-by-zero rule. -/
  | divn (d : BitVec 5) (a : BitVec 5) (b : BitVec 5)
  /-- REM (R109): Signed remainder, the dividend on a zero divisor. -/
  | rem (d : BitVec 5) (a : BitVec 5) (b : BitVec 5)
  /-- REMN (R109): Unsigned remainder with the division-by-zero rule. -/
  | remn (d : BitVec 5) (a : BitVec 5) (b : BitVec 5)
  /-- MIN (R108): Writes the signed smaller of x[a] and x[b]. -/
  | min (d : BitVec 5) (a : BitVec 5) (b : BitVec 5)
  /-- MAX (R108): Writes the signed larger of x[a] and x[b]. -/
  | max (d : BitVec 5) (a : BitVec 5) (b : BitVec 5)
  /-- MINN (R108): Writes the unsigned smaller of x[a] and x[b]. -/
  | minn (d : BitVec 5) (a : BitVec 5) (b : BitVec 5)
  /-- MAXN (R108): Writes the unsigned larger of x[a] and x[b]. -/
  | maxn (d : BitVec 5) (a : BitVec 5) (b : BitVec 5)
  /-- CLZ (R108): Counts leading zero bits of x[a], 64 for zero. -/
  | clz (d : BitVec 5) (a : BitVec 5)
  /-- CTZ (R108): Counts trailing zero bits of x[a], 64 for zero. -/
  | ctz (d : BitVec 5) (a : BitVec 5)
  /-- POPC (R108): Counts the one bits of x[a]. -/
  | popc (d : BitVec 5) (a : BitVec 5)
  /-- ADDI (R111): Adds a sign-extended 15-bit immediate to x[a]. -/
  | addi (d : BitVec 5) (a : BitVec 5) (i : BitVec 15)
  /-- ANDI (R111): Ands x[a] with a zero-extended immediate. -/
  | andi (d : BitVec 5) (a : BitVec 5) (i : BitVec 15)
  /-- ORI (R111): Ors x[a] with a zero-extended immediate. -/
  | ori (d : BitVec 5) (a : BitVec 5) (i : BitVec 15)
  /-- XORI (R111): Exclusive-ors x[a] with a zero-extended immediate. -/
  | xori (d : BitVec 5) (a : BitVec 5) (i : BitVec 15)
  /-- SLLI (R111): Shifts x[a] left by an immediate amount 0 to 63. -/
  | slli (d : BitVec 5) (a : BitVec 5) (i : BitVec 6)
  /-- SRLI (R111): Shifts x[a] right logically by an immediate amount. -/
  | srli (d : BitVec 5) (a : BitVec 5) (i : BitVec 6)
  /-- SRAI (R111): Shifts x[a] right arithmetically by an immediate amount. -/
  | srai (d : BitVec 5) (a : BitVec 5) (i : BitVec 6)
  /-- SLTI (R111): Signed compare of x[a] with a sign-extended immediate. -/
  | slti (d : BitVec 5) (a : BitVec 5) (i : BitVec 15)
  /-- SLTNI (R111): Unsigned compare of x[a] with the sign-extended immediate read unsigned. -/
  | sltni (d : BitVec 5) (a : BitVec 5) (i : BitVec 15)
  /-- LIM (R112): Writes a sign-extended 20-bit immediate times 2^15 to x[d]. -/
  | lim (d : BitVec 5) (i : BitVec 20)
  /-- IPC (R112): Writes the instruction's offset plus the immediate times 2^15 to x[d]. -/
  | ipc (d : BitVec 5) (i : BitVec 20)
  /-- LD_I8 (R113): Loads a sign-extended byte. -/
  | ldI8 (d : BitVec 5) (a : BitVec 5) (i : BitVec 15)
  /-- LD_N8 (R113): Loads a zero-extended byte. -/
  | ldN8 (d : BitVec 5) (a : BitVec 5) (i : BitVec 15)
  /-- LD_I16 (R113): Loads a sign-extended aligned halfword. -/
  | ldI16 (d : BitVec 5) (a : BitVec 5) (i : BitVec 15)
  /-- LD_N16 (R113): Loads a zero-extended aligned halfword. -/
  | ldN16 (d : BitVec 5) (a : BitVec 5) (i : BitVec 15)
  /-- LD_I32 (R113): Loads a sign-extended aligned word. -/
  | ldI32 (d : BitVec 5) (a : BitVec 5) (i : BitVec 15)
  /-- LD_N32 (R113): Loads a zero-extended aligned word. -/
  | ldN32 (d : BitVec 5) (a : BitVec 5) (i : BitVec 15)
  /-- LD_64 (R113): Loads an aligned doubleword, trapping with no effect on a fault. -/
  | ld64 (d : BitVec 5) (a : BitVec 5) (i : BitVec 15)
  /-- ST_8 (R113): Stores the low byte of x[d]. -/
  | st8 (d : BitVec 5) (a : BitVec 5) (i : BitVec 15)
  /-- ST_16 (R113): Stores the low halfword of x[d], aligned. -/
  | st16 (d : BitVec 5) (a : BitVec 5) (i : BitVec 15)
  /-- ST_32 (R113): Stores the low word of x[d], aligned. -/
  | st32 (d : BitVec 5) (a : BitVec 5) (i : BitVec 15)
  /-- ST_64 (R113): Stores x[d] as an aligned doubleword. -/
  | st64 (d : BitVec 5) (a : BitVec 5) (i : BitVec 15)
  /-- BEQ (R114): Branches when the two sources are equal. -/
  | beq (a : BitVec 5) (b : BitVec 5) (o : BitVec 15)
  /-- BNE (R114): Branches when the two sources differ. -/
  | bne (a : BitVec 5) (b : BitVec 5) (o : BitVec 15)
  /-- BLT (R114): Branches when the first source is less, signed. -/
  | blt (a : BitVec 5) (b : BitVec 5) (o : BitVec 15)
  /-- BGE (R114): Branches when the first source is greater or equal, signed. -/
  | bge (a : BitVec 5) (b : BitVec 5) (o : BitVec 15)
  /-- BLTN (R114): Branches when the first source is less, unsigned. -/
  | bltn (a : BitVec 5) (b : BitVec 5) (o : BitVec 15)
  /-- BGEN (R114): Branches when the first source is greater or equal, unsigned. -/
  | bgen (a : BitVec 5) (b : BitVec 5) (o : BitVec 15)
  /-- JAL (R115): Jumps pc-relative and writes the link to x1. -/
  | jal (o : BitVec 25)
  /-- JALR (R115): Jumps to x[a] plus an immediate and writes the link to x[d]. -/
  | jalr (d : BitVec 5) (a : BitVec 5) (i : BitVec 15)
  /-- FADD_F32 (R116): Adds two f32 values with one rounding. -/
  | faddF32 (d : BitVec 5) (a : BitVec 5) (b : BitVec 5)
  /-- FSUB_F32 (R116): Subtracts two f32 values with one rounding. -/
  | fsubF32 (d : BitVec 5) (a : BitVec 5) (b : BitVec 5)
  /-- FMUL_F32 (R116): Multiplies two f32 values with one rounding. -/
  | fmulF32 (d : BitVec 5) (a : BitVec 5) (b : BitVec 5)
  /-- FDIV_F32 (R116): Divides two f32 values with one rounding. -/
  | fdivF32 (d : BitVec 5) (a : BitVec 5) (b : BitVec 5)
  /-- FSQRT_F32 (R116): Takes the f32 square root with one rounding. -/
  | fsqrtF32 (d : BitVec 5) (a : BitVec 5)
  /-- FMADD_F32 (R116): Fused f32 multiply-add with one rounding. -/
  | fmaddF32 (d : BitVec 5) (a : BitVec 5) (b : BitVec 5) (c : BitVec 5)
  /-- FMIN_F32 (R117): Returns the smaller f32 operand with the NaN rules. -/
  | fminF32 (d : BitVec 5) (a : BitVec 5) (b : BitVec 5)
  /-- FMAX_F32 (R117): Returns the larger f32 operand with the NaN rules. -/
  | fmaxF32 (d : BitVec 5) (a : BitVec 5) (b : BitVec 5)
  /-- FCMP_F32 (R117): Compares f32 values under the condition in c and writes 1 or 0. -/
  | fcmpF32 (d : BitVec 5) (a : BitVec 5) (b : BitVec 5) (c : BitVec 5)
  /-- FCVT_F32 (R118): Converts between f32 and i64, n64 or f64 in the direction in c. -/
  | fcvtF32 (d : BitVec 5) (a : BitVec 5) (c : BitVec 5)
  /-- FCLASS_F32 (R118): Writes one class bit for an f32 operand. -/
  | fclassF32 (d : BitVec 5) (a : BitVec 5)
  /-- FADD_F64 (R116): Adds two f64 values with one rounding. -/
  | faddF64 (d : BitVec 5) (a : BitVec 5) (b : BitVec 5)
  /-- FSUB_F64 (R116): Subtracts two f64 values with one rounding. -/
  | fsubF64 (d : BitVec 5) (a : BitVec 5) (b : BitVec 5)
  /-- FMUL_F64 (R116): Multiplies two f64 values with one rounding. -/
  | fmulF64 (d : BitVec 5) (a : BitVec 5) (b : BitVec 5)
  /-- FDIV_F64 (R116): Divides two f64 values with one rounding. -/
  | fdivF64 (d : BitVec 5) (a : BitVec 5) (b : BitVec 5)
  /-- FSQRT_F64 (R116): Takes the f64 square root with one rounding. -/
  | fsqrtF64 (d : BitVec 5) (a : BitVec 5)
  /-- FMADD_F64 (R116): Fused f64 multiply-add with one rounding. -/
  | fmaddF64 (d : BitVec 5) (a : BitVec 5) (b : BitVec 5) (c : BitVec 5)
  /-- FMIN_F64 (R117): Returns the smaller f64 operand with the NaN rules. -/
  | fminF64 (d : BitVec 5) (a : BitVec 5) (b : BitVec 5)
  /-- FMAX_F64 (R117): Returns the larger f64 operand with the NaN rules. -/
  | fmaxF64 (d : BitVec 5) (a : BitVec 5) (b : BitVec 5)
  /-- FCMP_F64 (R117): Compares f64 values under the condition in c and writes 1 or 0. -/
  | fcmpF64 (d : BitVec 5) (a : BitVec 5) (b : BitVec 5) (c : BitVec 5)
  /-- FCVT_F64 (R118): Converts between f64 and i64, n64 or f32 in the direction in c. -/
  | fcvtF64 (d : BitVec 5) (a : BitVec 5) (c : BitVec 5)
  /-- FCLASS_F64 (R118): Writes one class bit for an f64 operand. -/
  | fclassF64 (d : BitVec 5) (a : BitVec 5)
  /-- CRD (R120): Reads control register n into x[d], after any wait of Table 4.4. -/
  | crd (d : BitVec 5) (n : BitVec 12)
  /-- CWR (R120): Writes x[a] to the writable fields of control register n. -/
  | cwr (n : BitVec 12) (a : BitVec 5)
  /-- CSET (R120): Sets the bits of x[a] in control register n. -/
  | cset (n : BitVec 12) (a : BitVec 5)
  /-- CCLR (R120): Clears the bits of x[a] in control register n. -/
  | cclr (n : BitVec 12) (a : BitVec 5)
  /-- SVC (R121): Drains, saves, suspends and delivers a service record to the supervisor. -/
  | svc (n : BitVec 12)
  /-- TRET (R122): Closes the held trap or service record and readies the named coroutine at epc. -/
  | tret
  /-- BRK (R123): Traps BREAKPOINT at issue with the break code in eaddr. -/
  | brk (n : BitVec 12)
  /-- IFENCE (R124): Waits for earlier stores at movement scope, then discards and refetches later halfwords. -/
  | ifence
  /-- AMO_ADD (R289): Atomically adds x[b] at an aligned doubleword and returns the old value. -/
  | amoAdd (d : BitVec 5) (a : BitVec 5) (b : BitVec 5) (q : BitVec 1) (l : BitVec 1) (s : BitVec 3)
  /-- AMO_AND (R289): Atomic and at an aligned doubleword. -/
  | amoAnd (d : BitVec 5) (a : BitVec 5) (b : BitVec 5) (q : BitVec 1) (l : BitVec 1) (s : BitVec 3)
  /-- AMO_OR (R289): Atomic or at an aligned doubleword. -/
  | amoOr (d : BitVec 5) (a : BitVec 5) (b : BitVec 5) (q : BitVec 1) (l : BitVec 1) (s : BitVec 3)
  /-- AMO_XOR (R289): Atomic exclusive or at an aligned doubleword. -/
  | amoXor (d : BitVec 5) (a : BitVec 5) (b : BitVec 5) (q : BitVec 1) (l : BitVec 1) (s : BitVec 3)
  /-- AMO_MIN (R289): Atomic signed minimum at an aligned doubleword. -/
  | amoMin (d : BitVec 5) (a : BitVec 5) (b : BitVec 5) (q : BitVec 1) (l : BitVec 1) (s : BitVec 3)
  /-- AMO_MAX (R289): Atomic signed maximum at an aligned doubleword. -/
  | amoMax (d : BitVec 5) (a : BitVec 5) (b : BitVec 5) (q : BitVec 1) (l : BitVec 1) (s : BitVec 3)
  /-- AMO_MINN (R289): Atomic unsigned minimum at an aligned doubleword. -/
  | amoMinn (d : BitVec 5) (a : BitVec 5) (b : BitVec 5) (q : BitVec 1) (l : BitVec 1) (s : BitVec 3)
  /-- AMO_MAXN (R289): Atomic unsigned maximum at an aligned doubleword. -/
  | amoMaxn (d : BitVec 5) (a : BitVec 5) (b : BitVec 5) (q : BitVec 1) (l : BitVec 1) (s : BitVec 3)
  /-- AMO_SWAP (R289): Atomic swap at an aligned doubleword. -/
  | amoSwap (d : BitVec 5) (a : BitVec 5) (b : BitVec 5) (q : BitVec 1) (l : BitVec 1) (s : BitVec 3)
  /-- AMO_CAS (R289): Atomic compare-and-swap against x[d] at an aligned doubleword. -/
  | amoCas (d : BitVec 5) (a : BitVec 5) (b : BitVec 5) (q : BitVec 1) (l : BitVec 1) (s : BitVec 3)
  /-- LD_AQ (R292): Loads a doubleword and then acquires at its scope. -/
  | ldAq (d : BitVec 5) (a : BitVec 5) (s : BitVec 3)
  /-- ST_RL (R292): Releases at its scope and then stores a doubleword. -/
  | stRl (d : BitVec 5) (a : BitVec 5) (s : BitVec 3)
  /-- FENCE_ACQ (R286): Performs earlier loads, then the acquire effects at its scope. -/
  | fenceAcq (s : BitVec 3)
  /-- FENCE_REL (R286): Performs Release at its scope before any later access. -/
  | fenceRel (s : BitVec 3)
  /-- FENCE (R286): Full fence: release, store-load order and acquire at its scope. -/
  | fence (s : BitVec 3)
  /-- VFENCE_ARRIVE (R288): Queues a marker that signals a token once earlier vector accesses are performed at the scope. -/
  | vfenceArrive (d : BitVec 5) (a : BitVec 5) (b : BitVec 5) (s : BitVec 3)
  /-- CCLEAN (R293): Writes back dirty scalar L1 and L2 lines of a range, or the whole L1. -/
  | cclean (a : BitVec 5) (b : BitVec 5)
  /-- CINVAL (R293): Writes back and then invalidates the lines of a range, or the whole L1. -/
  | cinval (a : BitVec 5) (b : BitVec 5)
  /-- VSET (R151): Sets vl and vtype from registers, or vill for a shape that does not exist, and queues a marker. -/
  | vset (d : BitVec 5) (a : BitVec 5) (b : BitVec 5)
  /-- VSETI (R151): Sets vl and vtype from an immediate type and queues a marker. -/
  | vseti (d : BitVec 5) (a : BitVec 5) (i : BitVec 12)
  /-- VREL (R153): Zeroes every v, m and s register and vdirty once earlier vector work commits. -/
  | vrel
  /-- VSYNC (R155): Stalls until earlier vector instructions commit and matrix instructions complete. -/
  | vsync
  /-- VADD_VV (R162): Vector integer add with a vector second source. -/
  | vaddVv (d : BitVec 5) (a : BitVec 5) (b : BitVec 5) (p : BitVec 4)
  /-- VADD_VX (R162): Vector integer add with a scalar second source. -/
  | vaddVx (d : BitVec 5) (a : BitVec 5) (b : BitVec 5) (p : BitVec 4)
  /-- VSUB_VV (R162): Vector integer subtract, vector second source. -/
  | vsubVv (d : BitVec 5) (a : BitVec 5) (b : BitVec 5) (p : BitVec 4)
  /-- VSUB_VX (R162): Vector integer subtract, scalar second source. -/
  | vsubVx (d : BitVec 5) (a : BitVec 5) (b : BitVec 5) (p : BitVec 4)
  /-- VMUL_VV (R162): Vector low product, vector second source. -/
  | vmulVv (d : BitVec 5) (a : BitVec 5) (b : BitVec 5) (p : BitVec 4)
  /-- VMUL_VX (R162): Vector low product, scalar second source. -/
  | vmulVx (d : BitVec 5) (a : BitVec 5) (b : BitVec 5) (p : BitVec 4)
  /-- VMULH_VV (R162): Vector high product, vector second source. -/
  | vmulhVv (d : BitVec 5) (a : BitVec 5) (b : BitVec 5) (p : BitVec 4)
  /-- VMULH_VX (R162): Vector high product, scalar second source. -/
  | vmulhVx (d : BitVec 5) (a : BitVec 5) (b : BitVec 5) (p : BitVec 4)
  /-- VMACC_VV (R162): Vector multiply-accumulate into D, vector second source. -/
  | vmaccVv (d : BitVec 5) (a : BitVec 5) (b : BitVec 5) (p : BitVec 4)
  /-- VMACC_VX (R162): Vector multiply-accumulate into D, scalar second source. -/
  | vmaccVx (d : BitVec 5) (a : BitVec 5) (b : BitVec 5) (p : BitVec 4)
  /-- VNMSAC_VV (R162): Vector D minus product, vector second source. -/
  | vnmsacVv (d : BitVec 5) (a : BitVec 5) (b : BitVec 5) (p : BitVec 4)
  /-- VNMSAC_VX (R162): Vector D minus product, scalar second source. -/
  | vnmsacVx (d : BitVec 5) (a : BitVec 5) (b : BitVec 5) (p : BitVec 4)
  /-- VDIV_VV (R162): Vector quotient under the R109 rule, vector second source. -/
  | vdivVv (d : BitVec 5) (a : BitVec 5) (b : BitVec 5) (p : BitVec 4)
  /-- VDIV_VX (R162): Vector quotient under the R109 rule, scalar second source. -/
  | vdivVx (d : BitVec 5) (a : BitVec 5) (b : BitVec 5) (p : BitVec 4)
  /-- VREM_VV (R162): Vector remainder under the R109 rule, vector second source. -/
  | vremVv (d : BitVec 5) (a : BitVec 5) (b : BitVec 5) (p : BitVec 4)
  /-- VREM_VX (R162): Vector remainder under the R109 rule, scalar second source. -/
  | vremVx (d : BitVec 5) (a : BitVec 5) (b : BitVec 5) (p : BitVec 4)
  /-- VMIN_VV (R162): Vector integer minimum, vector second source. -/
  | vminVv (d : BitVec 5) (a : BitVec 5) (b : BitVec 5) (p : BitVec 4)
  /-- VMIN_VX (R162): Vector integer minimum, scalar second source. -/
  | vminVx (d : BitVec 5) (a : BitVec 5) (b : BitVec 5) (p : BitVec 4)
  /-- VMAX_VV (R162): Vector integer maximum, vector second source. -/
  | vmaxVv (d : BitVec 5) (a : BitVec 5) (b : BitVec 5) (p : BitVec 4)
  /-- VMAX_VX (R162): Vector integer maximum, scalar second source. -/
  | vmaxVx (d : BitVec 5) (a : BitVec 5) (b : BitVec 5) (p : BitVec 4)
  /-- VAND_VV (R162): Vector bitwise and, vector second source. -/
  | vandVv (d : BitVec 5) (a : BitVec 5) (b : BitVec 5) (p : BitVec 4)
  /-- VAND_VX (R162): Vector bitwise and, scalar second source. -/
  | vandVx (d : BitVec 5) (a : BitVec 5) (b : BitVec 5) (p : BitVec 4)
  /-- VOR_VV (R162): Vector bitwise or, vector second source. -/
  | vorVv (d : BitVec 5) (a : BitVec 5) (b : BitVec 5) (p : BitVec 4)
  /-- VOR_VX (R162): Vector bitwise or, scalar second source. -/
  | vorVx (d : BitVec 5) (a : BitVec 5) (b : BitVec 5) (p : BitVec 4)
  /-- VXOR_VV (R162): Vector bitwise exclusive or, vector second source. -/
  | vxorVv (d : BitVec 5) (a : BitVec 5) (b : BitVec 5) (p : BitVec 4)
  /-- VXOR_VX (R162): Vector bitwise exclusive or, scalar second source. -/
  | vxorVx (d : BitVec 5) (a : BitVec 5) (b : BitVec 5) (p : BitVec 4)
  /-- VSLL_VV (R162): Vector shift left, vector amounts. -/
  | vsllVv (d : BitVec 5) (a : BitVec 5) (b : BitVec 5) (p : BitVec 4)
  /-- VSLL_VX (R162): Vector shift left, scalar amount. -/
  | vsllVx (d : BitVec 5) (a : BitVec 5) (b : BitVec 5) (p : BitVec 4)
  /-- VSRL_VV (R162): Vector logical shift right, vector amounts. -/
  | vsrlVv (d : BitVec 5) (a : BitVec 5) (b : BitVec 5) (p : BitVec 4)
  /-- VSRL_VX (R162): Vector logical shift right, scalar amount. -/
  | vsrlVx (d : BitVec 5) (a : BitVec 5) (b : BitVec 5) (p : BitVec 4)
  /-- VSRA_VV (R162): Vector arithmetic shift right, vector amounts. -/
  | vsraVv (d : BitVec 5) (a : BitVec 5) (b : BitVec 5) (p : BitVec 4)
  /-- VSRA_VX (R162): Vector arithmetic shift right, scalar amount. -/
  | vsraVx (d : BitVec 5) (a : BitVec 5) (b : BitVec 5) (p : BitVec 4)
  /-- VADDS_VV (R162): Vector saturating add, vector second source. -/
  | vaddsVv (d : BitVec 5) (a : BitVec 5) (b : BitVec 5) (p : BitVec 4)
  /-- VADDS_VX (R162): Vector saturating add, scalar second source. -/
  | vaddsVx (d : BitVec 5) (a : BitVec 5) (b : BitVec 5) (p : BitVec 4)
  /-- VSUBS_VV (R162): Vector saturating subtract, vector second source. -/
  | vsubsVv (d : BitVec 5) (a : BitVec 5) (b : BitVec 5) (p : BitVec 4)
  /-- VSUBS_VX (R162): Vector saturating subtract, scalar second source. -/
  | vsubsVx (d : BitVec 5) (a : BitVec 5) (b : BitVec 5) (p : BitVec 4)
  /-- VWADD_VV (R164): Widening add into a 2n group, vector second source. -/
  | vwaddVv (d : BitVec 5) (a : BitVec 5) (b : BitVec 5) (p : BitVec 4)
  /-- VWADD_VX (R164): Widening add into a 2n group, scalar second source. -/
  | vwaddVx (d : BitVec 5) (a : BitVec 5) (b : BitVec 5) (p : BitVec 4)
  /-- VWMUL_VV (R164): Widening multiply, vector second source. -/
  | vwmulVv (d : BitVec 5) (a : BitVec 5) (b : BitVec 5) (p : BitVec 4)
  /-- VWMUL_VX (R164): Widening multiply, scalar second source. -/
  | vwmulVx (d : BitVec 5) (a : BitVec 5) (b : BitVec 5) (p : BitVec 4)
  /-- VWMACC_VV (R164): Widening multiply-accumulate, vector second source. -/
  | vwmaccVv (d : BitVec 5) (a : BitVec 5) (b : BitVec 5) (p : BitVec 4)
  /-- VWMACC_VX (R164): Widening multiply-accumulate, scalar second source. -/
  | vwmaccVx (d : BitVec 5) (a : BitVec 5) (b : BitVec 5) (p : BitVec 4)
  /-- VNCLIP_VV (R165): Narrowing shift with round-to-even and clamp, vector amounts. -/
  | vnclipVv (d : BitVec 5) (a : BitVec 5) (b : BitVec 5) (p : BitVec 4)
  /-- VNCLIP_VX (R165): Narrowing shift with round-to-even and clamp, scalar amount. -/
  | vnclipVx (d : BitVec 5) (a : BitVec 5) (b : BitVec 5) (p : BitVec 4)
  /-- VSEL_VV (R169): Selects A for active elements and B otherwise, vector B. -/
  | vselVv (d : BitVec 5) (a : BitVec 5) (b : BitVec 5) (p : BitVec 4)
  /-- VSEL_VX (R169): Selects A for active elements and scalar B otherwise. -/
  | vselVx (d : BitVec 5) (a : BitVec 5) (b : BitVec 5) (p : BitVec 4)
  /-- VFADD_VV (R166): Vector float add, vector second source. -/
  | vfaddVv (d : BitVec 5) (a : BitVec 5) (b : BitVec 5) (p : BitVec 4)
  /-- VFADD_VX (R166): Vector float add, scalar second source. -/
  | vfaddVx (d : BitVec 5) (a : BitVec 5) (b : BitVec 5) (p : BitVec 4)
  /-- VFSUB_VV (R166): Vector float subtract, vector second source. -/
  | vfsubVv (d : BitVec 5) (a : BitVec 5) (b : BitVec 5) (p : BitVec 4)
  /-- VFSUB_VX (R166): Vector float subtract, scalar second source. -/
  | vfsubVx (d : BitVec 5) (a : BitVec 5) (b : BitVec 5) (p : BitVec 4)
  /-- VFMUL_VV (R166): Vector float multiply, vector second source. -/
  | vfmulVv (d : BitVec 5) (a : BitVec 5) (b : BitVec 5) (p : BitVec 4)
  /-- VFMUL_VX (R166): Vector float multiply, scalar second source. -/
  | vfmulVx (d : BitVec 5) (a : BitVec 5) (b : BitVec 5) (p : BitVec 4)
  /-- VFDIV_VV (R166): Vector float divide, vector second source. -/
  | vfdivVv (d : BitVec 5) (a : BitVec 5) (b : BitVec 5) (p : BitVec 4)
  /-- VFDIV_VX (R166): Vector float divide, scalar second source. -/
  | vfdivVx (d : BitVec 5) (a : BitVec 5) (b : BitVec 5) (p : BitVec 4)
  /-- VFMA_VV (R166): Vector fused multiply-add into D, vector second source. -/
  | vfmaVv (d : BitVec 5) (a : BitVec 5) (b : BitVec 5) (p : BitVec 4)
  /-- VFMA_VX (R166): Vector fused multiply-add into D, scalar second source. -/
  | vfmaVx (d : BitVec 5) (a : BitVec 5) (b : BitVec 5) (p : BitVec 4)
  /-- VFNMA_VV (R166): Vector fused D minus product, vector second source. -/
  | vfnmaVv (d : BitVec 5) (a : BitVec 5) (b : BitVec 5) (p : BitVec 4)
  /-- VFNMA_VX (R166): Vector fused D minus product, scalar second source. -/
  | vfnmaVx (d : BitVec 5) (a : BitVec 5) (b : BitVec 5) (p : BitVec 4)
  /-- VFMIN_VV (R166): Vector float minimum under R117, vector second source. -/
  | vfminVv (d : BitVec 5) (a : BitVec 5) (b : BitVec 5) (p : BitVec 4)
  /-- VFMIN_VX (R166): Vector float minimum under R117, scalar second source. -/
  | vfminVx (d : BitVec 5) (a : BitVec 5) (b : BitVec 5) (p : BitVec 4)
  /-- VFMAX_VV (R166): Vector float maximum under R117, vector second source. -/
  | vfmaxVv (d : BitVec 5) (a : BitVec 5) (b : BitVec 5) (p : BitVec 4)
  /-- VFMAX_VX (R166): Vector float maximum under R117, scalar second source. -/
  | vfmaxVx (d : BitVec 5) (a : BitVec 5) (b : BitVec 5) (p : BitVec 4)
  /-- VFSQRT (R166): Vector float square root with one rounding. -/
  | vfsqrt (d : BitVec 5) (a : BitVec 5) (p : BitVec 4)
  /-- VFRSQRT (R167): Vector reciprocal square root, deterministic and bounded in error. -/
  | vfrsqrt (d : BitVec 5) (a : BitVec 5) (p : BitVec 4)
  /-- VFRCP (R167): Vector reciprocal, deterministic and bounded in error. -/
  | vfrcp (d : BitVec 5) (a : BitVec 5) (p : BitVec 4)
  /-- VFEXP2 (R167): Vector base-2 exponential. -/
  | vfexp2 (d : BitVec 5) (a : BitVec 5) (p : BitVec 4)
  /-- VFLOG2 (R167): Vector base-2 logarithm. -/
  | vflog2 (d : BitVec 5) (a : BitVec 5) (p : BitVec 4)
  /-- VFTANH (R167): Vector hyperbolic tangent. -/
  | vftanh (d : BitVec 5) (a : BitVec 5) (p : BitVec 4)
  /-- VCMP (R170): Integer compare under a condition, writing a mask group. -/
  | vcmp (d : BitVec 5) (a : BitVec 5) (b : BitVec 5) (k : BitVec 1) (c : BitVec 4) (p : BitVec 4)
  /-- VFCMP (R170): Float compare under a condition, writing a mask group. -/
  | vfcmp (d : BitVec 5) (a : BitVec 5) (b : BitVec 5) (k : BitVec 1) (c : BitVec 4) (p : BitVec 4)
  /-- MAND (R171): Bitwise and of two mask groups. -/
  | mand (d : BitVec 5) (a : BitVec 5) (b : BitVec 5)
  /-- MOR (R171): Bitwise or of two mask groups. -/
  | mor (d : BitVec 5) (a : BitVec 5) (b : BitVec 5)
  /-- MXOR (R171): Bitwise exclusive or of two mask groups. -/
  | mxor (d : BitVec 5) (a : BitVec 5) (b : BitVec 5)
  /-- MNOT (R171): Complement of a mask group. -/
  | mnot (d : BitVec 5) (a : BitVec 5)
  /-- MPOP (R172): Counts set mask bits below vl into x[d] in the front end. -/
  | mpop (d : BitVec 5) (a : BitVec 5)
  /-- MFIRST (R172): Writes the index of the lowest set mask bit, or all ones. -/
  | mfirst (d : BitVec 5) (a : BitVec 5)
  /-- VRED (R178): Integer reduction through a shadow register, result in x[d] at commit. -/
  | vred (d : BitVec 5) (a : BitVec 5) (b : BitVec 5) (o : BitVec 3) (p : BitVec 4)
  /-- VFRED (R178): Float reduction in the fixed pairwise tree, result in x[d]. -/
  | vfred (d : BitVec 5) (a : BitVec 5) (b : BitVec 5) (o : BitVec 3) (p : BitVec 4)
  /-- VSCAN (R180): Integer inclusive prefix scan through a shadow register. -/
  | vscan (d : BitVec 5) (a : BitVec 5) (b : BitVec 5) (o : BitVec 3) (p : BitVec 4)
  /-- VSCAN_FLOAT (R180): Float prefix scan under the rule of R92. -/
  | vscanFloat (d : BitVec 5) (a : BitVec 5) (b : BitVec 5) (o : BitVec 3) (p : BitVec 4)
  /-- VSLIDE (R182): Slides elements by a signed scalar amount. -/
  | vslide (d : BitVec 5) (a : BitVec 5) (b : BitVec 5) (p : BitVec 4)
  /-- VRGATHER (R182): Gathers elements of a by an index group. -/
  | vrgather (d : BitVec 5) (a : BitVec 5) (b : BitVec 5) (p : BitVec 4)
  /-- VCOMPRESS (R183): Packs elements whose mask bit is set to the low positions. -/
  | vcompress (d : BitVec 5) (a : BitVec 5) (b : BitVec 5)
  /-- VID (R182): Writes each element's index. -/
  | vid (d : BitVec 5) (p : BitVec 4)
  /-- VBCAST (R182): Broadcasts the low bits of x[a] to every element. -/
  | vbcast (d : BitVec 5) (a : BitVec 5) (p : BitVec 4)
  /-- VMVX (R184): Moves element x[b] of a vector group to x[d] in the front end. -/
  | vmvx (d : BitVec 5) (a : BitVec 5) (b : BitVec 5)
  /-- VMVV (R182): Copies a vector group element by element. -/
  | vmvv (d : BitVec 5) (a : BitVec 5) (p : BitVec 4)
  /-- VCVT (R174): Converts elements to the target type in b under the captured state. -/
  | vcvt (d : BitVec 5) (a : BitVec 5) (t : BitVec 5) (p : BitVec 4)
  /-- VCVT_MX (R176): Quantises f32 blocks of 32 into an MX type and writes the e8m0 scales. -/
  | vcvtMx (d : BitVec 5) (a : BitVec 5) (b : BitVec 5)
  /-- VPACK (R177): Packs 6-bit containers densely. -/
  | vpack (d : BitVec 5) (a : BitVec 5)
  /-- VUNPACK (R177): Unpacks dense 6-bit data into containers. -/
  | vunpack (d : BitVec 5) (a : BitVec 5)
  /-- VLD (R301): Unit-stride vector load, stopping at the first faulting element. -/
  | vld (d : BitVec 5) (a : BitVec 5) (p : BitVec 4)
  /-- VLDS (R301): Strided vector load. -/
  | vlds (d : BitVec 5) (a : BitVec 5) (b : BitVec 5) (p : BitVec 4)
  /-- VLDX (R301): Indexed vector load. -/
  | vldx (d : BitVec 5) (a : BitVec 5) (b : BitVec 5) (p : BitVec 4)
  /-- VLD_CHASE (R307): Unit-stride load that waits for a chase slot's landed chunks. -/
  | vldChase (d : BitVec 5) (a : BitVec 5) (b : BitVec 5) (p : BitVec 4)
  /-- VLDSEG (R305): Indexed segment load of n fields, function 0x08 + n. -/
  | vldseg (d : BitVec 5) (a : BitVec 5) (b : BitVec 5) (g : BitVec 6) (p : BitVec 4)
  /-- VST (R301): Ordered unit-stride vector store. -/
  | vst (d : BitVec 5) (a : BitVec 5) (p : BitVec 4)
  /-- VST_U (R278): Unordered unit-stride vector store. -/
  | vstU (d : BitVec 5) (a : BitVec 5) (p : BitVec 4)
  /-- VSTS (R301): Ordered strided vector store. -/
  | vsts (d : BitVec 5) (a : BitVec 5) (b : BitVec 5) (p : BitVec 4)
  /-- VSTX (R301): Ordered indexed vector store. -/
  | vstx (d : BitVec 5) (a : BitVec 5) (b : BitVec 5) (p : BitVec 4)
  /-- VSTX_U (R278): Unordered indexed vector store. -/
  | vstxU (d : BitVec 5) (a : BitVec 5) (b : BitVec 5) (p : BitVec 4)
  /-- VAMO_ADD (R294): Relaxed unordered atomic add of each element at its indexed location. -/
  | vamoAdd (d : BitVec 5) (a : BitVec 5) (b : BitVec 5) (p : BitVec 4)
  /-- CP_TILE (R320): Accepts a copy command for a box of up to three dimensions. -/
  | cpTile (d : BitVec 5) (a : BitVec 5)
  /-- CP_STREAM (R322): Accepts a strip stream driven by the coroutine's vset retirements. -/
  | cpStream (d : BitVec 5) (a : BitVec 5)
  /-- CP_GATHER (R323): Accepts a background indexed load with a queue marker and duplicate mask. -/
  | cpGather (d : BitVec 5) (a : BitVec 5) (b : BitVec 5) (c : BitVec 3)
  /-- CP_RESUME (R325): Queues a stopped copy command again. -/
  | cpResume (d : BitVec 5) (a : BitVec 5)
  /-- CP_CANCEL (R325): Ends a copy command and returns the sector operations it sent. -/
  | cpCancel (d : BitVec 5) (a : BitVec 5)
  /-- CP_STATUS (R324): Returns the status word of a copy command. -/
  | cpStatus (d : BitVec 5) (a : BitVec 5)
  /-- CP_MG (R339): Accepts a multigrid restriction or prolongation command. -/
  | cpMg (d : BitVec 5) (a : BitVec 5)
  /-- MG_CHECK (R340): Checks a stencil-weight table and returns its summary word. -/
  | mgCheck (d : BitVec 5) (a : BitVec 5)
  /-- CP_KVS (R423): Accepts a command that fetches selected KV pages through a block table. -/
  | cpKvs (d : BitVec 5) (a : BitVec 5)
  /-- MATTACH (R363): Grants up to the requested tile units, possibly fewer, to the core. -/
  | mattach (a : BitVec 5)
  /-- MDETACH (R364): Releases the highest tile units and cancels copies touching them. -/
  | mdetach (a : BitVec 5)
  /-- MSHAPE (R365): Sets the matrix operand types or the bad flag. -/
  | mshape (a : BitVec 5)
  /-- MLDB (R366): Loads 8 vector registers into a B latch and clears its scale valid bit. -/
  | mldb (l : BitVec 1) (g : BitVec 2)
  /-- MMA (R367): Multiplies an A register by a latch and accumulates into a tile. -/
  | mma (d : BitVec 3) (a : BitVec 5) (l : BitVec 1)
  /-- MMA_MX (R367): Block-scaled multiply-accumulate into a tile. -/
  | mmaMx (d : BitVec 3) (a : BitVec 5) (b : BitVec 5) (l : BitVec 1)
  /-- MZERO (R368): Writes +0 to every accumulator of a tile. -/
  | mzero (d : BitVec 3)
  /-- MDRAIN (R369): Copies 16 tile rows into a group of 8 vector registers. -/
  | mdrain (g : BitVec 2) (t : BitVec 3) (b : BitVec 5)
  /-- MFILL (R369): Copies 8 vector registers into 16 tile rows. -/
  | mfill (t : BitVec 3) (g : BitVec 2) (b : BitVec 5)
  /-- MSAVE (R370): Writes 16 tile rows to the scratchpad. -/
  | msave (t : BitVec 3) (a : BitVec 5) (b : BitVec 5)
  /-- MLOAD (R370): Reads 16 tile rows from the scratchpad. -/
  | mload (t : BitVec 3) (a : BitVec 5) (b : BitVec 5)
  /-- SPAWN (R218): Creates a coroutine on a chosen core after releasing to it. -/
  | spawn (d : BitVec 5) (a : BitVec 5) (b : BitVec 5) (c : BitVec 5)
  /-- SPAWN_ON (R219): Creates a coroutine waiting on a count token as a deferred spawn. -/
  | spawnOn (d : BitVec 5) (a : BitVec 5) (b : BitVec 5) (c : BitVec 5)
  /-- EXIT (R220): Drains, optionally signals a token, closes records and empties the slot. -/
  | exit (a : BitVec 5)
  /-- YIELD (R221): Takes a voluntary switch and rejoins the tail of its class. -/
  | yield (a : BitVec 5)
  /-- AWAIT (R222): Saves the live set and waits on a token until selected with its condition true. -/
  | await (d : BitVec 5) (a : BitVec 5) (b : BitVec 5)
  /-- FNEXT (R223): Atomically takes the next strip index of a count token. -/
  | fnext (d : BitVec 5) (a : BitVec 5)
  /-- FARM (R224): Initialises a counter and places one worker on each eligible core. -/
  | farm (d : BitVec 5) (a : BitVec 5) (b : BitVec 5)
  /-- VCTX_SAVE (R225): Evicts a coroutine of the core into a context image. -/
  | vctxSave (d : BitVec 5) (a : BitVec 5) (b : BitVec 5) (c : BitVec 5)
  /-- VCTX_RESTORE (R226): Restores a frame and/or vector part from a context image. -/
  | vctxRestore (d : BitVec 5) (a : BitVec 5) (b : BitVec 5) (c : BitVec 5)
  /-- PREEMPT (R227): Forces a coroutine off its core, optionally holding it with a record. -/
  | preempt (d : BitVec 5) (a : BitVec 5) (b : BitVec 5)
  /-- CREW_BIND (R228): Binds a user crew to the core after draining and clearing crew state. -/
  | crewBind (d : BitVec 5) (a : BitVec 5)
  /-- TKINIT (R255): Renews a cell's generation and sets its kind and fields. -/
  | tkinit (d : BitVec 5) (a : BitVec 5) (b : BitVec 5)
  /-- TKARRIVE (R256): Posts a release arrival to a barrier. -/
  | tkarrive (d : BitVec 5) (a : BitVec 5) (b : BitVec 5) (s : BitVec 3)
  /-- TKEXPECT (R256): Posts an expected sector count to a barrier. -/
  | tkexpect (d : BitVec 5) (a : BitVec 5) (b : BitVec 5)
  /-- TKSIG (R256): Posts a release signal to a barrier or count cell. -/
  | tksig (d : BitVec 5) (a : BitVec 5) (b : BitVec 5) (s : BitVec 3)
  /-- TKREAD (R257): Reads one doubleword of a cell as a snapshot and acquires. -/
  | tkread (d : BitVec 5) (a : BitVec 5) (e : BitVec 1)
  /-- TKPOLL (R257): Tests a cell's condition without waiting. -/
  | tkpoll (d : BitVec 5) (a : BitVec 5) (b : BitVec 5)
  /-- FUT_SET (R258): Posts a value to a future, recording FULL if already full. -/
  | futSet (d : BitVec 5) (a : BitVec 5) (b : BitVec 5) (s : BitVec 3)
  /-- FUT_GET (R258): Returns a future's value, waiting as a pending form while empty. -/
  | futGet (d : BitVec 5) (a : BitVec 5) (b : BitVec 5)
  /-- SEND (R260): Reserves a mailbox buffer and has the copy engine deliver a message. -/
  | send (d : BitVec 5) (a : BitVec 5) (b : BitVec 5)
  /-- RECV (R261): Takes the delivered message at the mailbox head, waiting if none. -/
  | recv (d : BitVec 5) (a : BitVec 5) (b : BitVec 5)
  /-- POST (R259): Posts a receive buffer to a mailbox of the own core. -/
  | post (d : BitVec 5) (a : BitVec 5) (b : BitVec 5)
  /-- PCOMMIT (R394): Commits an arena page with a pooled or given frame and signals its fault entries. -/
  | pcommit (d : BitVec 5) (a : BitVec 5) (b : BitVec 5)
  /-- PDECOMMIT (R395): Decommits an arena page and holds or pools its frame. -/
  | pdecommit (d : BitVec 5) (a : BitVec 5) (b : BitVec 5)
  /-- PALLOC (R396): Pops a frame from a pool, never waiting. -/
  | palloc (d : BitVec 5) (a : BitVec 5)
  /-- PFREE (R397): Releases and pushes an unmapped frame onto a pool. -/
  | pfree (d : BitVec 5) (a : BitVec 5) (b : BitVec 5)
  /-- TLBINV (R398): Removes cached translations device-wide and signals covered fault entries. -/
  | tlbinv (d : BitVec 5) (a : BitVec 5) (b : BitVec 5) (c : BitVec 5)
  /-- SPACE (R399): Records a new space for a user crew and writes it on its cores. -/
  | space (d : BitVec 5) (a : BitVec 5) (b : BitVec 5)
  /-- TOPK (R420): Selects the k best scores, optionally merging a previous list, through a shadow. -/
  | topk (d : BitVec 5) (a : BitVec 5) (b : BitVec 5) (s : BitVec 2)
  /-- UM_ROUND (R430): Commits the most confident masked positions of one round. -/
  | umRound (d : BitVec 5) (a : BitVec 5) (b : BitVec 5)
  /-- UM_DIRTY (R431): Propagates committed positions through the layers' reach into a dirty map. -/
  | umDirty (d : BitVec 5) (a : BitVec 5)
  /-- WOPEN (R446): Opens a window from a descriptor and returns its pointer. -/
  | wopen (d : BitVec 5) (a : BitVec 5)
  /-- WCLOSE (R447): Sets a window closing; it frees once its in-flight count drains. -/
  | wclose (d : BitVec 5) (a : BitVec 5) (b : BitVec 5)
  /-- WLD (R448): Loads 1 to 8 bytes through a remote window, optionally acquiring. -/
  | wld (d : BitVec 5) (a : BitVec 5) (n : BitVec 2) (q : BitVec 1)
  /-- WST (R449): Copies local bytes into a remote window as a copy command. -/
  | wst (d : BitVec 5) (a : BitVec 5) (b : BitVec 5) (c : BitVec 5)
  /-- WFENCE_FLAG (R451): Releases at pod scope, waits for earlier wst to the device, then signals a flag. -/
  | wfenceFlag (d : BitVec 5) (a : BitVec 5) (b : BitVec 5)
  /-- WAMO_ADD (R450): Remote atomic add through a window. -/
  | wamoAdd (d : BitVec 5) (a : BitVec 5) (b : BitVec 5) (q : BitVec 1) (l : BitVec 1)
  /-- WAMO_AND (R450): Remote atomic and through a window. -/
  | wamoAnd (d : BitVec 5) (a : BitVec 5) (b : BitVec 5) (q : BitVec 1) (l : BitVec 1)
  /-- WAMO_OR (R450): Remote atomic or through a window. -/
  | wamoOr (d : BitVec 5) (a : BitVec 5) (b : BitVec 5) (q : BitVec 1) (l : BitVec 1)
  /-- WAMO_XOR (R450): Remote atomic exclusive or through a window. -/
  | wamoXor (d : BitVec 5) (a : BitVec 5) (b : BitVec 5) (q : BitVec 1) (l : BitVec 1)
  /-- WAMO_MIN (R450): Remote atomic signed minimum. -/
  | wamoMin (d : BitVec 5) (a : BitVec 5) (b : BitVec 5) (q : BitVec 1) (l : BitVec 1)
  /-- WAMO_MAX (R450): Remote atomic signed maximum. -/
  | wamoMax (d : BitVec 5) (a : BitVec 5) (b : BitVec 5) (q : BitVec 1) (l : BitVec 1)
  /-- WAMO_MINN (R450): Remote atomic unsigned minimum. -/
  | wamoMinn (d : BitVec 5) (a : BitVec 5) (b : BitVec 5) (q : BitVec 1) (l : BitVec 1)
  /-- WAMO_MAXN (R450): Remote atomic unsigned maximum. -/
  | wamoMaxn (d : BitVec 5) (a : BitVec 5) (b : BitVec 5) (q : BitVec 1) (l : BitVec 1)
  /-- WAMO_SWAP (R450): Remote atomic swap. -/
  | wamoSwap (d : BitVec 5) (a : BitVec 5) (b : BitVec 5) (q : BitVec 1) (l : BitVec 1)
  /-- WAMO_CAS (R450): Remote atomic compare-and-swap. -/
  | wamoCas (d : BitVec 5) (a : BitVec 5) (b : BitVec 5) (q : BitVec 1) (l : BitVec 1)
  /-- C_ADD (R48): Compact add of x[a] into the ldst register. -/
  | cAdd (a : BitVec 5)
  /-- C_SUB (R48): Compact subtract of x[a] from the ldst register. -/
  | cSub (a : BitVec 5)
  /-- C_AND (R48): Compact and into the ldst register. -/
  | cAnd (a : BitVec 5)
  /-- C_OR (R48): Compact or into the ldst register. -/
  | cOr (a : BitVec 5)
  /-- C_XOR (R48): Compact exclusive or into the ldst register. -/
  | cXor (a : BitVec 5)
  /-- C_MUL (R48): Compact multiply into the ldst register. -/
  | cMul (a : BitVec 5)
  /-- C_ADDI (R48): Compact add of a 10-bit signed immediate to the ldst register. -/
  | cAddi (i : BitVec 10)
  /-- C_SLLI (R48): Compact shift left of the ldst register. -/
  | cSlli (a : BitVec 5) (h : BitVec 1)
  /-- C_SRLI (R48): Compact logical shift right of the ldst register. -/
  | cSrli (a : BitVec 5) (h : BitVec 1)
  /-- C_SRAI (R48): Compact arithmetic shift right of the ldst register. -/
  | cSrai (a : BitVec 5) (h : BitVec 1)
  /-- C_LD (R48): Compact doubleword load into the ldst register. -/
  | cLd (a : BitVec 5) (b : BitVec 5)
  /-- C_ST (R48): Compact doubleword store of the ldst register. -/
  | cSt (a : BitVec 5) (b : BitVec 5)
  /-- C_VADD (R48): Compact vector add into the ldst vector register. -/
  | cVadd (a : BitVec 5)
  /-- C_VSUB (R48): Compact vector subtract. -/
  | cVsub (a : BitVec 5)
  /-- C_VMUL (R48): Compact vector multiply. -/
  | cVmul (a : BitVec 5)
  /-- C_VMACC (R48): Compact vector multiply-accumulate. -/
  | cVmacc (a : BitVec 5) (b : BitVec 5)
  /-- C_VFADD (R48): Compact vector float add. -/
  | cVfadd (a : BitVec 5)
  /-- C_VFSUB (R48): Compact vector float subtract. -/
  | cVfsub (a : BitVec 5)
  /-- C_VFMUL (R48): Compact vector float multiply. -/
  | cVfmul (a : BitVec 5)
  /-- C_VFMA (R48): Compact vector fused multiply-add. -/
  | cVfma (a : BitVec 5) (b : BitVec 5)
  /-- C_VFMIN (R48): Compact vector float minimum. -/
  | cVfmin (a : BitVec 5)
  /-- C_VFMAX (R48): Compact vector float maximum. -/
  | cVfmax (a : BitVec 5)
  /-- C_VAND (R48): Compact vector and. -/
  | cVand (a : BitVec 5)
  /-- C_VOR (R48): Compact vector or. -/
  | cVor (a : BitVec 5)
  /-- C_VXOR (R48): Compact vector exclusive or. -/
  | cVxor (a : BitVec 5)
  /-- C_VMIN (R48): Compact vector integer minimum. -/
  | cVmin (a : BitVec 5)
  /-- C_VMAX (R48): Compact vector integer maximum. -/
  | cVmax (a : BitVec 5)
  deriving DecidableEq, Repr

end Sys2Proof
end

