-- ==== Sys2Proof/WellFormed.lean ====
section
/-!
DEFINITION. The checks an instruction's fields pass beyond their widths (02_encoding.md R36 to R46): a breach is an encoding
that traps ILLEGAL wherever it stands (R38, R39). Checks that depend on vl, vtype or a register group stand with the meanings.
-/

namespace Sys2Proof

/-- The control register numbers that Table 2.10 assigns (R52). -/
def assignedCreg (n : BitVec 12) : Bool :=
  decide (n.toNat ≤ 8) || decide (n = 0x010#12) || decide (n = 0x011#12) ||
  (decide (0x020 ≤ n.toNat) && decide (n.toNat ≤ 0x022)) ||
  (decide (0x030 ≤ n.toNat) && decide (n.toNat ≤ 0x033)) || decide (n = 0x040#12) ||
  decide (n = 0xC00#12) || decide (n = 0xC01#12) ||
  (decide (0xC10 ≤ n.toNat) && decide (n.toNat ≤ 0xC16))

/-- The fields of `i` hold values the encoding admits: scope codes (R24, R38), control register numbers (R43), mask and
shadow registers (R38), conditions (R42, R44), reduction operations (R45), element types (R46, R152), vsel's predicate (R37),
the vldseg function (R41) and the whole forms of cclean and cinval (R293). -/
def Instr.wf : Instr → Bool
  | .add _ _ _ => true
  | .sub _ _ _ => true
  | .and _ _ _ => true
  | .or _ _ _ => true
  | .xor _ _ _ => true
  | .sll _ _ _ => true
  | .srl _ _ _ => true
  | .sra _ _ _ => true
  | .slt _ _ _ => true
  | .sltn _ _ _ => true
  | .mul _ _ _ => true
  | .mulh _ _ _ => true
  | .mulhn _ _ _ => true
  | .div _ _ _ => true
  | .divn _ _ _ => true
  | .rem _ _ _ => true
  | .remn _ _ _ => true
  | .min _ _ _ => true
  | .max _ _ _ => true
  | .minn _ _ _ => true
  | .maxn _ _ _ => true
  | .clz _ _ => true
  | .ctz _ _ => true
  | .popc _ _ => true
  | .addi _ _ _ => true
  | .andi _ _ _ => true
  | .ori _ _ _ => true
  | .xori _ _ _ => true
  | .slli _ _ _ => true
  | .srli _ _ _ => true
  | .srai _ _ _ => true
  | .slti _ _ _ => true
  | .sltni _ _ _ => true
  | .lim _ _ => true
  | .ipc _ _ => true
  | .ldI8 _ _ _ => true
  | .ldN8 _ _ _ => true
  | .ldI16 _ _ _ => true
  | .ldN16 _ _ _ => true
  | .ldI32 _ _ _ => true
  | .ldN32 _ _ _ => true
  | .ld64 _ _ _ => true
  | .st8 _ _ _ => true
  | .st16 _ _ _ => true
  | .st32 _ _ _ => true
  | .st64 _ _ _ => true
  | .beq _ _ _ => true
  | .bne _ _ _ => true
  | .blt _ _ _ => true
  | .bge _ _ _ => true
  | .bltn _ _ _ => true
  | .bgen _ _ _ => true
  | .jal _ => true
  | .jalr _ _ _ => true
  | .faddF32 _ _ _ => true
  | .fsubF32 _ _ _ => true
  | .fmulF32 _ _ _ => true
  | .fdivF32 _ _ _ => true
  | .fsqrtF32 _ _ => true
  | .fmaddF32 _ _ _ _ => true
  | .fminF32 _ _ _ => true
  | .fmaxF32 _ _ _ => true
  | .fcmpF32 _ _ _ c => decide (c.toNat ≤ 3)
  | .fcvtF32 _ _ c => decide (c.toNat ≤ 4)
  | .fclassF32 _ _ => true
  | .faddF64 _ _ _ => true
  | .fsubF64 _ _ _ => true
  | .fmulF64 _ _ _ => true
  | .fdivF64 _ _ _ => true
  | .fsqrtF64 _ _ => true
  | .fmaddF64 _ _ _ _ => true
  | .fminF64 _ _ _ => true
  | .fmaxF64 _ _ _ => true
  | .fcmpF64 _ _ _ c => decide (c.toNat ≤ 3)
  | .fcvtF64 _ _ c => decide (c.toNat ≤ 4)
  | .fclassF64 _ _ => true
  | .crd _ n => assignedCreg n
  | .cwr n _ => assignedCreg n
  | .cset n _ => assignedCreg n
  | .cclr n _ => assignedCreg n
  | .svc _ => true
  | .tret => true
  | .brk _ => true
  | .ifence => true
  | .amoAdd _ _ _ _ _ s => decide (s.toNat ≤ 5)
  | .amoAnd _ _ _ _ _ s => decide (s.toNat ≤ 5)
  | .amoOr _ _ _ _ _ s => decide (s.toNat ≤ 5)
  | .amoXor _ _ _ _ _ s => decide (s.toNat ≤ 5)
  | .amoMin _ _ _ _ _ s => decide (s.toNat ≤ 5)
  | .amoMax _ _ _ _ _ s => decide (s.toNat ≤ 5)
  | .amoMinn _ _ _ _ _ s => decide (s.toNat ≤ 5)
  | .amoMaxn _ _ _ _ _ s => decide (s.toNat ≤ 5)
  | .amoSwap _ _ _ _ _ s => decide (s.toNat ≤ 5)
  | .amoCas _ _ _ _ _ s => decide (s.toNat ≤ 5)
  | .ldAq _ _ s => decide (s.toNat ≤ 5)
  | .stRl _ _ s => decide (s.toNat ≤ 5)
  | .fenceAcq s => decide (s.toNat ≤ 5)
  | .fenceRel s => decide (s.toNat ≤ 5)
  | .fence s => decide (s.toNat ≤ 5)
  | .vfenceArrive _ _ _ s => decide (s.toNat ≤ 5)
  | .cclean a b => decide (a ≠ 0#5) || decide (b = 0#5)
  | .cinval a b => decide (a ≠ 0#5) || decide (b = 0#5)
  | .vset _ _ _ => true
  | .vseti _ _ i => decide ((i.extractLsb' 0 5).toNat ≤ 18)
  | .vrel => true
  | .vsync => true
  | .vaddVv _ _ _ _ => true
  | .vaddVx _ _ _ _ => true
  | .vsubVv _ _ _ _ => true
  | .vsubVx _ _ _ _ => true
  | .vmulVv _ _ _ _ => true
  | .vmulVx _ _ _ _ => true
  | .vmulhVv _ _ _ _ => true
  | .vmulhVx _ _ _ _ => true
  | .vmaccVv _ _ _ _ => true
  | .vmaccVx _ _ _ _ => true
  | .vnmsacVv _ _ _ _ => true
  | .vnmsacVx _ _ _ _ => true
  | .vdivVv _ _ _ _ => true
  | .vdivVx _ _ _ _ => true
  | .vremVv _ _ _ _ => true
  | .vremVx _ _ _ _ => true
  | .vminVv _ _ _ _ => true
  | .vminVx _ _ _ _ => true
  | .vmaxVv _ _ _ _ => true
  | .vmaxVx _ _ _ _ => true
  | .vandVv _ _ _ _ => true
  | .vandVx _ _ _ _ => true
  | .vorVv _ _ _ _ => true
  | .vorVx _ _ _ _ => true
  | .vxorVv _ _ _ _ => true
  | .vxorVx _ _ _ _ => true
  | .vsllVv _ _ _ _ => true
  | .vsllVx _ _ _ _ => true
  | .vsrlVv _ _ _ _ => true
  | .vsrlVx _ _ _ _ => true
  | .vsraVv _ _ _ _ => true
  | .vsraVx _ _ _ _ => true
  | .vaddsVv _ _ _ _ => true
  | .vaddsVx _ _ _ _ => true
  | .vsubsVv _ _ _ _ => true
  | .vsubsVx _ _ _ _ => true
  | .vwaddVv _ _ _ _ => true
  | .vwaddVx _ _ _ _ => true
  | .vwmulVv _ _ _ _ => true
  | .vwmulVx _ _ _ _ => true
  | .vwmaccVv _ _ _ _ => true
  | .vwmaccVx _ _ _ _ => true
  | .vnclipVv _ _ _ _ => true
  | .vnclipVx _ _ _ _ => true
  | .vselVv _ _ _ p => decide (p ≠ 0#4)
  | .vselVx _ _ _ p => decide (p ≠ 0#4)
  | .vfaddVv _ _ _ _ => true
  | .vfaddVx _ _ _ _ => true
  | .vfsubVv _ _ _ _ => true
  | .vfsubVx _ _ _ _ => true
  | .vfmulVv _ _ _ _ => true
  | .vfmulVx _ _ _ _ => true
  | .vfdivVv _ _ _ _ => true
  | .vfdivVx _ _ _ _ => true
  | .vfmaVv _ _ _ _ => true
  | .vfmaVx _ _ _ _ => true
  | .vfnmaVv _ _ _ _ => true
  | .vfnmaVx _ _ _ _ => true
  | .vfminVv _ _ _ _ => true
  | .vfminVx _ _ _ _ => true
  | .vfmaxVv _ _ _ _ => true
  | .vfmaxVx _ _ _ _ => true
  | .vfsqrt _ _ _ => true
  | .vfrsqrt _ _ _ => true
  | .vfrcp _ _ _ => true
  | .vfexp2 _ _ _ => true
  | .vflog2 _ _ _ => true
  | .vftanh _ _ _ => true
  | .vcmp d _ _ _ c _ => decide (c.toNat ≤ 5) && decide (d.toNat ≤ 7)
  | .vfcmp d _ _ _ c _ => decide (c.toNat ≤ 7) && decide (d.toNat ≤ 7)
  | .mand d a b => decide (d.toNat ≤ 7) && decide (a.toNat ≤ 7) && decide (b.toNat ≤ 7)
  | .mor d a b => decide (d.toNat ≤ 7) && decide (a.toNat ≤ 7) && decide (b.toNat ≤ 7)
  | .mxor d a b => decide (d.toNat ≤ 7) && decide (a.toNat ≤ 7) && decide (b.toNat ≤ 7)
  | .mnot d a => decide (d.toNat ≤ 7) && decide (a.toNat ≤ 7)
  | .mpop _ a => decide (a.toNat ≤ 7)
  | .mfirst _ a => decide (a.toNat ≤ 7)
  | .vred _ _ b o _ => decide (o.toNat ≤ 5) && decide (b.toNat ≤ 3)
  | .vfred _ _ b o _ => decide (o.toNat ≤ 2) && decide (b.toNat ≤ 3)
  | .vscan _ _ b o _ => decide (o.toNat ≤ 5) && decide (b.toNat ≤ 3)
  | .vscanFloat _ _ b o _ => decide (o.toNat ≤ 2) && decide (b.toNat ≤ 3)
  | .vslide _ _ _ _ => true
  | .vrgather _ _ _ _ => true
  | .vcompress _ _ b => decide (b.toNat ≤ 7)
  | .vid _ _ => true
  | .vbcast _ _ _ => true
  | .vmvx _ _ _ => true
  | .vmvv _ _ _ => true
  | .vcvt _ _ t _ => decide (t.toNat ≤ 18)
  | .vcvtMx _ _ _ => true
  | .vpack _ _ => true
  | .vunpack _ _ => true
  | .vld _ _ _ => true
  | .vlds _ _ _ _ => true
  | .vldx _ _ _ _ => true
  | .vldChase _ _ _ _ => true
  | .vldseg _ _ _ g _ => decide (10 ≤ g.toNat) && decide (g.toNat ≤ 16)
  | .vst _ _ _ => true
  | .vstU _ _ _ => true
  | .vsts _ _ _ _ => true
  | .vstx _ _ _ _ => true
  | .vstxU _ _ _ _ => true
  | .vamoAdd _ _ _ _ => true
  | .cpTile _ _ => true
  | .cpStream _ _ => true
  | .cpGather _ _ _ _ => true
  | .cpResume _ _ => true
  | .cpCancel _ _ => true
  | .cpStatus _ _ => true
  | .cpMg _ _ => true
  | .mgCheck _ _ => true
  | .cpKvs _ _ => true
  | .mattach _ => true
  | .mdetach _ => true
  | .mshape _ => true
  | .mldb _ _ => true
  | .mma _ _ _ => true
  | .mmaMx _ _ _ _ => true
  | .mzero _ => true
  | .mdrain _ _ _ => true
  | .mfill _ _ _ => true
  | .msave _ _ _ => true
  | .mload _ _ _ => true
  | .spawn _ _ _ _ => true
  | .spawnOn _ _ _ _ => true
  | .exit _ => true
  | .yield _ => true
  | .await _ _ _ => true
  | .fnext _ _ => true
  | .farm _ _ _ => true
  | .vctxSave _ _ _ _ => true
  | .vctxRestore _ _ _ _ => true
  | .preempt _ _ _ => true
  | .crewBind _ _ => true
  | .tkinit _ _ _ => true
  | .tkarrive _ _ _ s => decide (s.toNat ≤ 4)
  | .tkexpect _ _ _ => true
  | .tksig _ _ _ s => decide (s.toNat ≤ 4)
  | .tkread _ _ _ => true
  | .tkpoll _ _ _ => true
  | .futSet _ _ _ s => decide (s.toNat ≤ 4)
  | .futGet _ _ _ => true
  | .send _ _ _ => true
  | .recv _ _ _ => true
  | .post _ _ _ => true
  | .pcommit _ _ _ => true
  | .pdecommit _ _ _ => true
  | .palloc _ _ => true
  | .pfree _ _ _ => true
  | .tlbinv _ _ _ _ => true
  | .space _ _ _ => true
  | .topk _ _ _ _ => true
  | .umRound _ _ _ => true
  | .umDirty _ _ => true
  | .wopen _ _ => true
  | .wclose _ _ _ => true
  | .wld _ _ _ _ => true
  | .wst _ _ _ _ => true
  | .wfenceFlag _ _ _ => true
  | .wamoAdd _ _ _ _ _ => true
  | .wamoAnd _ _ _ _ _ => true
  | .wamoOr _ _ _ _ _ => true
  | .wamoXor _ _ _ _ _ => true
  | .wamoMin _ _ _ _ _ => true
  | .wamoMax _ _ _ _ _ => true
  | .wamoMinn _ _ _ _ _ => true
  | .wamoMaxn _ _ _ _ _ => true
  | .wamoSwap _ _ _ _ _ => true
  | .wamoCas _ _ _ _ _ => true
  | .cAdd _ => true
  | .cSub _ => true
  | .cAnd _ => true
  | .cOr _ => true
  | .cXor _ => true
  | .cMul _ => true
  | .cAddi _ => true
  | .cSlli _ _ => true
  | .cSrli _ _ => true
  | .cSrai _ _ => true
  | .cLd _ _ => true
  | .cSt _ _ => true
  | .cVadd _ => true
  | .cVsub _ => true
  | .cVmul _ => true
  | .cVmacc _ _ => true
  | .cVfadd _ => true
  | .cVfsub _ => true
  | .cVfmul _ => true
  | .cVfma _ _ => true
  | .cVfmin _ => true
  | .cVfmax _ => true
  | .cVand _ => true
  | .cVor _ => true
  | .cVxor _ => true
  | .cVmin _ => true
  | .cVmax _ => true
  | .quantumExpiry => true
  | .preemptSwitch => true
  | .contextSpill => true
  | .contextRefill _ => true
  | .vectorMicroOp => true
  | .vectorCommit => true
  | .vfenceSignal => true
  | .sorterService => true
  | .matrixEntryStart => true
  | .tileUnitFree _ _ => true
  | .copyChannelStart _ => true
  | .copyUnitComplete _ => true
  | .copyFault _ => true
  | .copyRestart _ => true
  | .gatherUnitBurst _ => true
  | .tokenOpSend => true
  | .tokenOpApply _ => true
  | .logReplay => true
  | .tokenWatch _ => true
  | .wake _ => true
  | .recheck _ _ => true
  | .mailboxReservation _ _ _ _ => true
  | .mailboxDelivery _ _ _ _ => true
  | .pageWalk _ _ => true
  | .arenaFaultRecord _ _ => true
  | .atsTranslationResponse _ _ _ _ => true
  | .atsInvalidateRequest _ _ _ => true
  | .priPageResponse _ _ _ => true
  | .l1Writeback _ => true
  | .burstResend _ _ _ => true
  | .liveLaneRepair _ => true
  | .patrolScrub _ => true
  | .swapRequest => true
  | .swapLineExchange _ => true
  | .swapPairRetire _ => true
  | .ingressCheck _ => true
  | .endpointCacheFetch _ => true
  | .windowDrainFree _ => true
  | .linkLevelRetry _ => true
  | .portFailure _ _ => true
  | .bar2Access _ _ _ _ => true
  | .pcieLinkTraining _ => true
  | .ideKm _ _ => true
  | .boot => true
  | .powerThrottle _ => true
  | .autoGateM1 _ => true
  | .autoGateM2 _ => true
  | .movementWake _ => true
  | .identify => true
  | .attestReport => true
  | .attestWrap => true
  | .attestUnwrap => true
  | .crewCreate => true
  | .crewDestroy => true
  | .codeLoad => true
  | .bind => true
  | .farmLaunch => true
  | .signal => true
  | .preemptCommand => true
  | .windowRegister => true
  | .powerSetCap => true
  | .powerSetState => true
  | .powerSetGating => true
  | .debugSetLevel => true
  | .debugSetWatch => true
  | .debugSetCopy => true
  | .errorQuery => true
  | .repairStatus => true
  | .patchApply => true
  | .portConfiguration _ _ => true
  | .reservedEncoding => true

end Sys2Proof
end

