-- ==== Sys2Proof/Decode.lean ====
section
/-!
DEFINITION. From instruction bits to an instruction and back (02_encoding.md R33 to R48): the fields of a 32-bit word, the
major and function codes (Tables 2.4, 2.5), the compact forms (Table 2.8), and the encoder written from the same tables.
-/

namespace Sys2Proof

/-- The fields of a 32-bit instruction at their finest common cut (Table 2.1): [31:27], [26], [25:22], [21:17], [16:12],
[11:7] and the major opcode [6:1]. -/
structure Raw where
  f : BitVec 5
  k : BitVec 1
  p : BitVec 4
  b : BitVec 5
  a : BitVec 5
  d : BitVec 5
  major : BitVec 6
  deriving DecidableEq, Repr

/-- The fields of a compact instruction: [15:11], [10:6] and the compact opcode [5:1] (R48). -/
structure Compact where
  b : BitVec 5
  a : BitVec 5
  op : BitVec 5
  deriving DecidableEq, Repr

/-- The fields of a 32-bit word (R35). -/
def Raw.ofWord (w : BitVec 32) : Raw :=
  ⟨w.extractLsb' 27 5, w.extractLsb' 26 1, w.extractLsb' 22 4, w.extractLsb' 17 5, w.extractLsb' 12 5, w.extractLsb' 7 5,
    w.extractLsb' 1 6⟩

/-- The word of a set of fields; bit 0 is 1 in every 32-bit instruction (R33). -/
def Raw.toWord (r : Raw) : BitVec 32 :=
  r.f ++ r.k ++ r.p ++ r.b ++ r.a ++ r.d ++ r.major ++ 1#1

/-- The fields of a compact halfword (R48). -/
def Compact.ofHalf (h : BitVec 16) : Compact :=
  ⟨h.extractLsb' 11 5, h.extractLsb' 6 5, h.extractLsb' 1 5⟩

/-- The halfword of a compact form; bit 0 is 0 (R33). -/
def Compact.toHalf (c : Compact) : BitVec 16 :=
  c.b ++ c.a ++ c.op ++ 0#1

/-- The function codes of major 0x01 (Table 2.5). -/
noncomputable def decodeOp (r : Raw) : Option Instr :=
  match r.f.toNat with
  | 0 => if r.k = 0#1 ∧ r.p = 0#4 then some (.add r.d r.a r.b) else none
  | 1 => if r.k = 0#1 ∧ r.p = 0#4 then some (.sub r.d r.a r.b) else none
  | 2 => if r.k = 0#1 ∧ r.p = 0#4 then some (.and r.d r.a r.b) else none
  | 3 => if r.k = 0#1 ∧ r.p = 0#4 then some (.or r.d r.a r.b) else none
  | 4 => if r.k = 0#1 ∧ r.p = 0#4 then some (.xor r.d r.a r.b) else none
  | 5 => if r.k = 0#1 ∧ r.p = 0#4 then some (.sll r.d r.a r.b) else none
  | 6 => if r.k = 0#1 ∧ r.p = 0#4 then some (.srl r.d r.a r.b) else none
  | 7 => if r.k = 0#1 ∧ r.p = 0#4 then some (.sra r.d r.a r.b) else none
  | 8 => if r.k = 0#1 ∧ r.p = 0#4 then some (.slt r.d r.a r.b) else none
  | 9 => if r.k = 0#1 ∧ r.p = 0#4 then some (.sltn r.d r.a r.b) else none
  | 10 => if r.k = 0#1 ∧ r.p = 0#4 then some (.mul r.d r.a r.b) else none
  | 11 => if r.k = 0#1 ∧ r.p = 0#4 then some (.mulh r.d r.a r.b) else none
  | 12 => if r.k = 0#1 ∧ r.p = 0#4 then some (.mulhn r.d r.a r.b) else none
  | 13 => if r.k = 0#1 ∧ r.p = 0#4 then some (.div r.d r.a r.b) else none
  | 14 => if r.k = 0#1 ∧ r.p = 0#4 then some (.divn r.d r.a r.b) else none
  | 15 => if r.k = 0#1 ∧ r.p = 0#4 then some (.rem r.d r.a r.b) else none
  | 16 => if r.k = 0#1 ∧ r.p = 0#4 then some (.remn r.d r.a r.b) else none
  | 17 => if r.k = 0#1 ∧ r.p = 0#4 then some (.min r.d r.a r.b) else none
  | 18 => if r.k = 0#1 ∧ r.p = 0#4 then some (.max r.d r.a r.b) else none
  | 19 => if r.k = 0#1 ∧ r.p = 0#4 then some (.minn r.d r.a r.b) else none
  | 20 => if r.k = 0#1 ∧ r.p = 0#4 then some (.maxn r.d r.a r.b) else none
  | 21 => if r.k = 0#1 ∧ r.p = 0#4 ∧ r.b = 0#5 then some (.clz r.d r.a) else none
  | 22 => if r.k = 0#1 ∧ r.p = 0#4 ∧ r.b = 0#5 then some (.ctz r.d r.a) else none
  | 23 => if r.k = 0#1 ∧ r.p = 0#4 ∧ r.b = 0#5 then some (.popc r.d r.a) else none
  | _ => none

/-- The function codes of major 0x20 (Table 2.5). -/
noncomputable def decodeFp32 (r : Raw) : Option Instr :=
  match r.f.toNat with
  | 0 => if r.k = 0#1 ∧ r.p = 0#4 then some (.faddF32 r.d r.a r.b) else none
  | 1 => if r.k = 0#1 ∧ r.p = 0#4 then some (.fsubF32 r.d r.a r.b) else none
  | 2 => if r.k = 0#1 ∧ r.p = 0#4 then some (.fmulF32 r.d r.a r.b) else none
  | 3 => if r.k = 0#1 ∧ r.p = 0#4 then some (.fdivF32 r.d r.a r.b) else none
  | 4 => if r.k = 0#1 ∧ r.p = 0#4 ∧ r.b = 0#5 then some (.fsqrtF32 r.d r.a) else none
  | 5 => some (.fmaddF32 r.d r.a r.b (r.k ++ r.p))
  | 6 => if r.k = 0#1 ∧ r.p = 0#4 then some (.fminF32 r.d r.a r.b) else none
  | 7 => if r.k = 0#1 ∧ r.p = 0#4 then some (.fmaxF32 r.d r.a r.b) else none
  | 8 => some (.fcmpF32 r.d r.a r.b (r.k ++ r.p))
  | 9 => if r.b = 0#5 then some (.fcvtF32 r.d r.a (r.k ++ r.p)) else none
  | 10 => if r.k = 0#1 ∧ r.p = 0#4 ∧ r.b = 0#5 then some (.fclassF32 r.d r.a) else none
  | _ => none

/-- The function codes of major 0x21 (Table 2.5). -/
noncomputable def decodeFp64 (r : Raw) : Option Instr :=
  match r.f.toNat with
  | 0 => if r.k = 0#1 ∧ r.p = 0#4 then some (.faddF64 r.d r.a r.b) else none
  | 1 => if r.k = 0#1 ∧ r.p = 0#4 then some (.fsubF64 r.d r.a r.b) else none
  | 2 => if r.k = 0#1 ∧ r.p = 0#4 then some (.fmulF64 r.d r.a r.b) else none
  | 3 => if r.k = 0#1 ∧ r.p = 0#4 then some (.fdivF64 r.d r.a r.b) else none
  | 4 => if r.k = 0#1 ∧ r.p = 0#4 ∧ r.b = 0#5 then some (.fsqrtF64 r.d r.a) else none
  | 5 => some (.fmaddF64 r.d r.a r.b (r.k ++ r.p))
  | 6 => if r.k = 0#1 ∧ r.p = 0#4 then some (.fminF64 r.d r.a r.b) else none
  | 7 => if r.k = 0#1 ∧ r.p = 0#4 then some (.fmaxF64 r.d r.a r.b) else none
  | 8 => some (.fcmpF64 r.d r.a r.b (r.k ++ r.p))
  | 9 => if r.b = 0#5 then some (.fcvtF64 r.d r.a (r.k ++ r.p)) else none
  | 10 => if r.k = 0#1 ∧ r.p = 0#4 ∧ r.b = 0#5 then some (.fclassF64 r.d r.a) else none
  | _ => none

/-- The function codes of major 0x22 (Table 2.5). -/
noncomputable def decodeSys (r : Raw) : Option Instr :=
  match (r.f.extractLsb' 2 3).toNat with
  | 0 => if r.a = 0#5 then some (.crd r.d (r.f.extractLsb' 0 2 ++ r.k ++ r.p ++ r.b)) else none
  | 1 => if r.d = 0#5 then some (.cwr (r.f.extractLsb' 0 2 ++ r.k ++ r.p ++ r.b) r.a) else none
  | 2 => if r.d = 0#5 then some (.cset (r.f.extractLsb' 0 2 ++ r.k ++ r.p ++ r.b) r.a) else none
  | 3 => if r.d = 0#5 then some (.cclr (r.f.extractLsb' 0 2 ++ r.k ++ r.p ++ r.b) r.a) else none
  | 4 => if r.a = 0#5 ∧ r.d = 0#5 then some (.svc (r.f.extractLsb' 0 2 ++ r.k ++ r.p ++ r.b)) else none
  | 5 => if r.f.extractLsb' 0 2 = 0#2 ∧ r.k = 0#1 ∧ r.p = 0#4 ∧ r.b = 0#5 ∧ r.a = 0#5 ∧ r.d = 0#5 then some (.tret) else none
  | 6 => if r.a = 0#5 ∧ r.d = 0#5 then some (.brk (r.f.extractLsb' 0 2 ++ r.k ++ r.p ++ r.b)) else none
  | 7 => if r.f.extractLsb' 0 2 = 0#2 ∧ r.k = 0#1 ∧ r.p = 0#4 ∧ r.b = 0#5 ∧ r.a = 0#5 ∧ r.d = 0#5 then some (.ifence) else none
  | _ => none

/-- The function codes of major 0x23 (Table 2.5). -/
noncomputable def decodeAtom (r : Raw) : Option Instr :=
  match r.f.toNat with
  | 0 => some (.amoAdd r.d r.a r.b r.k (r.p.extractLsb' 3 1) (r.p.extractLsb' 0 3))
  | 1 => some (.amoAnd r.d r.a r.b r.k (r.p.extractLsb' 3 1) (r.p.extractLsb' 0 3))
  | 2 => some (.amoOr r.d r.a r.b r.k (r.p.extractLsb' 3 1) (r.p.extractLsb' 0 3))
  | 3 => some (.amoXor r.d r.a r.b r.k (r.p.extractLsb' 3 1) (r.p.extractLsb' 0 3))
  | 4 => some (.amoMin r.d r.a r.b r.k (r.p.extractLsb' 3 1) (r.p.extractLsb' 0 3))
  | 5 => some (.amoMax r.d r.a r.b r.k (r.p.extractLsb' 3 1) (r.p.extractLsb' 0 3))
  | 6 => some (.amoMinn r.d r.a r.b r.k (r.p.extractLsb' 3 1) (r.p.extractLsb' 0 3))
  | 7 => some (.amoMaxn r.d r.a r.b r.k (r.p.extractLsb' 3 1) (r.p.extractLsb' 0 3))
  | 8 => some (.amoSwap r.d r.a r.b r.k (r.p.extractLsb' 3 1) (r.p.extractLsb' 0 3))
  | 9 => some (.amoCas r.d r.a r.b r.k (r.p.extractLsb' 3 1) (r.p.extractLsb' 0 3))
  | 16 => if r.k = 1#1 ∧ r.p.extractLsb' 3 1 = 0#1 ∧ r.b = 0#5 then some (.ldAq r.d r.a (r.p.extractLsb' 0 3)) else none
  | 17 => if r.k = 0#1 ∧ r.p.extractLsb' 3 1 = 1#1 ∧ r.b = 0#5 then some (.stRl r.d r.a (r.p.extractLsb' 0 3)) else none
  | _ => none

/-- The function codes of major 0x24 (Table 2.5). -/
noncomputable def decodeFence (r : Raw) : Option Instr :=
  match r.f.toNat with
  | 0 =>
    if r.k = 0#1 ∧ r.p.extractLsb' 3 1 = 1#1 ∧ r.b = 0#5 ∧ r.a = 0#5 ∧ r.d = 0#5 then some (.fenceAcq (r.p.extractLsb' 0 3))
    else if r.k = 1#1 ∧ r.p.extractLsb' 3 1 = 0#1 ∧ r.b = 0#5 ∧ r.a = 0#5 ∧ r.d = 0#5 then some (.fenceRel (r.p.extractLsb' 0 3))
    else if r.k = 1#1 ∧ r.p.extractLsb' 3 1 = 1#1 ∧ r.b = 0#5 ∧ r.a = 0#5 ∧ r.d = 0#5 then some (.fence (r.p.extractLsb' 0 3))
    else none
  | 1 => if r.k = 0#1 ∧ r.p.extractLsb' 3 1 = 0#1 then some (.vfenceArrive r.d r.a r.b (r.p.extractLsb' 0 3)) else none
  | 2 => if r.k = 0#1 ∧ r.p = 0#4 ∧ r.d = 0#5 then some (.cclean r.a r.b) else none
  | 3 => if r.k = 0#1 ∧ r.p = 0#4 ∧ r.d = 0#5 then some (.cinval r.a r.b) else none
  | _ => none

/-- The function codes of major 0x25 (Table 2.5). -/
noncomputable def decodeVctl (r : Raw) : Option Instr :=
  match r.f.toNat with
  | 0 => if r.k = 0#1 ∧ r.p = 0#4 then some (.vset r.d r.a r.b) else none
  | 1 => if r.k = 0#1 ∧ r.p = 0#4 ∧ r.b = 0#5 ∧ r.a = 0#5 ∧ r.d = 0#5 then some (.vrel) else none
  | 2 => if r.k = 0#1 ∧ r.p = 0#4 ∧ r.b = 0#5 ∧ r.a = 0#5 ∧ r.d = 0#5 then some (.vsync) else none
  | _ => none

/-- The function codes of major 0x27 (Table 2.5). -/
noncomputable def decodeVaVv (r : Raw) : Option Instr :=
  match (r.f ++ r.k).toNat with
  | 0 => some (.vaddVv r.d r.a r.b r.p)
  | 1 => some (.vsubVv r.d r.a r.b r.p)
  | 2 => some (.vmulVv r.d r.a r.b r.p)
  | 3 => some (.vmulhVv r.d r.a r.b r.p)
  | 4 => some (.vmaccVv r.d r.a r.b r.p)
  | 5 => some (.vnmsacVv r.d r.a r.b r.p)
  | 6 => some (.vdivVv r.d r.a r.b r.p)
  | 7 => some (.vremVv r.d r.a r.b r.p)
  | 8 => some (.vminVv r.d r.a r.b r.p)
  | 9 => some (.vmaxVv r.d r.a r.b r.p)
  | 10 => some (.vandVv r.d r.a r.b r.p)
  | 11 => some (.vorVv r.d r.a r.b r.p)
  | 12 => some (.vxorVv r.d r.a r.b r.p)
  | 13 => some (.vsllVv r.d r.a r.b r.p)
  | 14 => some (.vsrlVv r.d r.a r.b r.p)
  | 15 => some (.vsraVv r.d r.a r.b r.p)
  | 16 => some (.vaddsVv r.d r.a r.b r.p)
  | 17 => some (.vsubsVv r.d r.a r.b r.p)
  | 18 => some (.vwaddVv r.d r.a r.b r.p)
  | 19 => some (.vwmulVv r.d r.a r.b r.p)
  | 20 => some (.vwmaccVv r.d r.a r.b r.p)
  | 21 => some (.vnclipVv r.d r.a r.b r.p)
  | 22 => some (.vselVv r.d r.a r.b r.p)
  | 23 => some (.vfaddVv r.d r.a r.b r.p)
  | 24 => some (.vfsubVv r.d r.a r.b r.p)
  | 25 => some (.vfmulVv r.d r.a r.b r.p)
  | 26 => some (.vfdivVv r.d r.a r.b r.p)
  | 27 => some (.vfmaVv r.d r.a r.b r.p)
  | 28 => some (.vfnmaVv r.d r.a r.b r.p)
  | 29 => some (.vfminVv r.d r.a r.b r.p)
  | 30 => some (.vfmaxVv r.d r.a r.b r.p)
  | 31 => if r.b = 0#5 then some (.vfsqrt r.d r.a r.p) else none
  | 32 => if r.b = 0#5 then some (.vfrsqrt r.d r.a r.p) else none
  | 33 => if r.b = 0#5 then some (.vfrcp r.d r.a r.p) else none
  | 34 => if r.b = 0#5 then some (.vfexp2 r.d r.a r.p) else none
  | 35 => if r.b = 0#5 then some (.vflog2 r.d r.a r.p) else none
  | 36 => if r.b = 0#5 then some (.vftanh r.d r.a r.p) else none
  | _ => none

/-- The function codes of major 0x28 (Table 2.5). -/
noncomputable def decodeVaVx (r : Raw) : Option Instr :=
  match (r.f ++ r.k).toNat with
  | 0 => some (.vaddVx r.d r.a r.b r.p)
  | 1 => some (.vsubVx r.d r.a r.b r.p)
  | 2 => some (.vmulVx r.d r.a r.b r.p)
  | 3 => some (.vmulhVx r.d r.a r.b r.p)
  | 4 => some (.vmaccVx r.d r.a r.b r.p)
  | 5 => some (.vnmsacVx r.d r.a r.b r.p)
  | 6 => some (.vdivVx r.d r.a r.b r.p)
  | 7 => some (.vremVx r.d r.a r.b r.p)
  | 8 => some (.vminVx r.d r.a r.b r.p)
  | 9 => some (.vmaxVx r.d r.a r.b r.p)
  | 10 => some (.vandVx r.d r.a r.b r.p)
  | 11 => some (.vorVx r.d r.a r.b r.p)
  | 12 => some (.vxorVx r.d r.a r.b r.p)
  | 13 => some (.vsllVx r.d r.a r.b r.p)
  | 14 => some (.vsrlVx r.d r.a r.b r.p)
  | 15 => some (.vsraVx r.d r.a r.b r.p)
  | 16 => some (.vaddsVx r.d r.a r.b r.p)
  | 17 => some (.vsubsVx r.d r.a r.b r.p)
  | 18 => some (.vwaddVx r.d r.a r.b r.p)
  | 19 => some (.vwmulVx r.d r.a r.b r.p)
  | 20 => some (.vwmaccVx r.d r.a r.b r.p)
  | 21 => some (.vnclipVx r.d r.a r.b r.p)
  | 22 => some (.vselVx r.d r.a r.b r.p)
  | 23 => some (.vfaddVx r.d r.a r.b r.p)
  | 24 => some (.vfsubVx r.d r.a r.b r.p)
  | 25 => some (.vfmulVx r.d r.a r.b r.p)
  | 26 => some (.vfdivVx r.d r.a r.b r.p)
  | 27 => some (.vfmaVx r.d r.a r.b r.p)
  | 28 => some (.vfnmaVx r.d r.a r.b r.p)
  | 29 => some (.vfminVx r.d r.a r.b r.p)
  | 30 => some (.vfmaxVx r.d r.a r.b r.p)
  | _ => none

/-- The function codes of major 0x29 (Table 2.5). -/
noncomputable def decodeVcmp (r : Raw) : Option Instr :=
  match (r.f.extractLsb' 3 1).toNat with
  | 0 => some (.vcmp r.d r.a r.b (r.f.extractLsb' 4 1) (r.f.extractLsb' 0 3 ++ r.k) r.p)
  | 1 => some (.vfcmp r.d r.a r.b (r.f.extractLsb' 4 1) (r.f.extractLsb' 0 3 ++ r.k) r.p)
  | _ => none

/-- The function codes of major 0x2A (Table 2.5). -/
noncomputable def decodeVmask (r : Raw) : Option Instr :=
  match (r.f ++ r.k).toNat with
  | 0 => if r.p = 0#4 then some (.mand r.d r.a r.b) else none
  | 1 => if r.p = 0#4 then some (.mor r.d r.a r.b) else none
  | 2 => if r.p = 0#4 then some (.mxor r.d r.a r.b) else none
  | 3 => if r.p = 0#4 ∧ r.b = 0#5 then some (.mnot r.d r.a) else none
  | 4 => if r.p = 0#4 ∧ r.b = 0#5 then some (.mpop r.d r.a) else none
  | 5 => if r.p = 0#4 ∧ r.b = 0#5 then some (.mfirst r.d r.a) else none
  | _ => none

/-- The function codes of major 0x2B (Table 2.5). -/
noncomputable def decodeVred (r : Raw) : Option Instr :=
  match (r.f.extractLsb' 0 2 ++ r.k).toNat with
  | 0 => some (.vred r.d r.a r.b (r.f.extractLsb' 2 3) r.p)
  | 1 => some (.vfred r.d r.a r.b (r.f.extractLsb' 2 3) r.p)
  | 2 => some (.vscan r.d r.a r.b (r.f.extractLsb' 2 3) r.p)
  | 3 => some (.vscanFloat r.d r.a r.b (r.f.extractLsb' 2 3) r.p)
  | _ => none

/-- The function codes of major 0x2C (Table 2.5). -/
noncomputable def decodeVperm (r : Raw) : Option Instr :=
  match (r.f ++ r.k).toNat with
  | 0 => some (.vslide r.d r.a r.b r.p)
  | 1 => some (.vrgather r.d r.a r.b r.p)
  | 2 => if r.p = 0#4 then some (.vcompress r.d r.a r.b) else none
  | 3 => if r.b = 0#5 ∧ r.a = 0#5 then some (.vid r.d r.p) else none
  | 4 => if r.b = 0#5 then some (.vbcast r.d r.a r.p) else none
  | 5 => if r.p = 0#4 then some (.vmvx r.d r.a r.b) else none
  | 6 => if r.b = 0#5 then some (.vmvv r.d r.a r.p) else none
  | _ => none

/-- The function codes of major 0x2D (Table 2.5). -/
noncomputable def decodeVcvt (r : Raw) : Option Instr :=
  match (r.f ++ r.k).toNat with
  | 0 => some (.vcvt r.d r.a r.b r.p)
  | 1 => if r.p = 0#4 then some (.vcvtMx r.d r.a r.b) else none
  | 2 => if r.p = 0#4 ∧ r.b = 0#5 then some (.vpack r.d r.a) else none
  | 3 => if r.p = 0#4 ∧ r.b = 0#5 then some (.vunpack r.d r.a) else none
  | _ => none

/-- The function codes of major 0x2E (Table 2.5). -/
noncomputable def decodeVld (r : Raw) : Option Instr :=
  match (r.f ++ r.k).toNat with
  | 0 => if r.b = 0#5 then some (.vld r.d r.a r.p) else none
  | 1 => some (.vlds r.d r.a r.b r.p)
  | 2 => some (.vldx r.d r.a r.b r.p)
  | 3 => some (.vldChase r.d r.a r.b r.p)
  | 10 => some (.vldseg r.d r.a r.b 10#6 r.p)
  | 11 => some (.vldseg r.d r.a r.b 11#6 r.p)
  | 12 => some (.vldseg r.d r.a r.b 12#6 r.p)
  | 13 => some (.vldseg r.d r.a r.b 13#6 r.p)
  | 14 => some (.vldseg r.d r.a r.b 14#6 r.p)
  | 15 => some (.vldseg r.d r.a r.b 15#6 r.p)
  | 16 => some (.vldseg r.d r.a r.b 16#6 r.p)
  | _ => none

/-- The function codes of major 0x2F (Table 2.5). -/
noncomputable def decodeVst (r : Raw) : Option Instr :=
  match (r.f ++ r.k).toNat with
  | 0 => if r.b = 0#5 then some (.vst r.d r.a r.p) else none
  | 1 => if r.b = 0#5 then some (.vstU r.d r.a r.p) else none
  | 2 => some (.vsts r.d r.a r.b r.p)
  | 3 => some (.vstx r.d r.a r.b r.p)
  | 4 => some (.vstxU r.d r.a r.b r.p)
  | 5 => some (.vamoAdd r.d r.a r.b r.p)
  | _ => none

/-- The function codes of major 0x30 (Table 2.5). -/
noncomputable def decodeCopy (r : Raw) : Option Instr :=
  match r.f.toNat with
  | 0 => if r.k = 0#1 ∧ r.p = 0#4 ∧ r.b = 0#5 then some (.cpTile r.d r.a) else none
  | 1 => if r.k = 0#1 ∧ r.p = 0#4 ∧ r.b = 0#5 then some (.cpStream r.d r.a) else none
  | 2 => if r.k = 0#1 ∧ r.p.extractLsb' 3 1 = 0#1 then some (.cpGather r.d r.a r.b (r.p.extractLsb' 0 3)) else none
  | 3 => if r.k = 0#1 ∧ r.p = 0#4 ∧ r.b = 0#5 then some (.cpResume r.d r.a) else none
  | 4 => if r.k = 0#1 ∧ r.p = 0#4 ∧ r.b = 0#5 then some (.cpCancel r.d r.a) else none
  | 5 => if r.k = 0#1 ∧ r.p = 0#4 ∧ r.b = 0#5 then some (.cpStatus r.d r.a) else none
  | 6 => if r.k = 0#1 ∧ r.p = 0#4 ∧ r.b = 0#5 then some (.cpMg r.d r.a) else none
  | 7 => if r.k = 0#1 ∧ r.p = 0#4 ∧ r.b = 0#5 then some (.mgCheck r.d r.a) else none
  | 8 => if r.k = 0#1 ∧ r.p = 0#4 ∧ r.b = 0#5 then some (.cpKvs r.d r.a) else none
  | _ => none

/-- The function codes of major 0x31 (Table 2.5). -/
noncomputable def decodeMat (r : Raw) : Option Instr :=
  match (r.f ++ r.k).toNat with
  | 0 => if r.p = 0#4 ∧ r.b = 0#5 ∧ r.d = 0#5 then some (.mattach r.a) else none
  | 1 => if r.p = 0#4 ∧ r.b = 0#5 ∧ r.d = 0#5 then some (.mdetach r.a) else none
  | 2 => if r.p = 0#4 ∧ r.b = 0#5 ∧ r.d = 0#5 then some (.mshape r.a) else none
  | 3 => if r.p.extractLsb' 1 3 = 0#3 ∧ r.b.extractLsb' 0 3 = 0#3 ∧ r.a = 0#5 ∧ r.d = 0#5 then some (.mldb (r.p.extractLsb' 0 1) (r.b.extractLsb' 3 2)) else none
  | 4 => if r.p.extractLsb' 1 3 = 0#3 ∧ r.b = 0#5 ∧ r.d.extractLsb' 3 2 = 0#2 then some (.mma (r.d.extractLsb' 0 3) r.a (r.p.extractLsb' 0 1)) else none
  | 5 => if r.p.extractLsb' 1 3 = 0#3 ∧ r.d.extractLsb' 3 2 = 0#2 then some (.mmaMx (r.d.extractLsb' 0 3) r.a r.b (r.p.extractLsb' 0 1)) else none
  | 6 => if r.p = 0#4 ∧ r.b = 0#5 ∧ r.a = 0#5 ∧ r.d.extractLsb' 3 2 = 0#2 then some (.mzero (r.d.extractLsb' 0 3)) else none
  | 7 => if r.p = 0#4 ∧ r.a.extractLsb' 3 2 = 0#2 ∧ r.d.extractLsb' 0 3 = 0#3 then some (.mdrain (r.d.extractLsb' 3 2) (r.a.extractLsb' 0 3) r.b) else none
  | 8 => if r.p = 0#4 ∧ r.a.extractLsb' 0 3 = 0#3 ∧ r.d.extractLsb' 3 2 = 0#2 then some (.mfill (r.d.extractLsb' 0 3) (r.a.extractLsb' 3 2) r.b) else none
  | 9 => if r.p = 0#4 ∧ r.d.extractLsb' 3 2 = 0#2 then some (.msave (r.d.extractLsb' 0 3) r.a r.b) else none
  | 10 => if r.p = 0#4 ∧ r.d.extractLsb' 3 2 = 0#2 then some (.mload (r.d.extractLsb' 0 3) r.a r.b) else none
  | _ => none

/-- The function codes of major 0x32 (Table 2.5). -/
noncomputable def decodeCoro (r : Raw) : Option Instr :=
  match r.f.toNat with
  | 0 => some (.spawn r.d r.a r.b (r.k ++ r.p))
  | 1 => some (.spawnOn r.d r.a r.b (r.k ++ r.p))
  | 2 => if r.k = 0#1 ∧ r.p = 0#4 ∧ r.b = 0#5 ∧ r.d = 0#5 then some (.exit r.a) else none
  | 3 => if r.k = 0#1 ∧ r.p = 0#4 ∧ r.b = 0#5 ∧ r.d = 0#5 then some (.yield r.a) else none
  | 4 => if r.k = 0#1 ∧ r.p = 0#4 then some (.await r.d r.a r.b) else none
  | 5 => if r.k = 0#1 ∧ r.p = 0#4 ∧ r.b = 0#5 then some (.fnext r.d r.a) else none
  | 6 => if r.k = 0#1 ∧ r.p = 0#4 then some (.farm r.d r.a r.b) else none
  | 7 => some (.vctxSave r.d r.a r.b (r.k ++ r.p))
  | 8 => some (.vctxRestore r.d r.a r.b (r.k ++ r.p))
  | 9 => if r.k = 0#1 ∧ r.p = 0#4 then some (.preempt r.d r.a r.b) else none
  | 10 => if r.k = 0#1 ∧ r.p = 0#4 ∧ r.b = 0#5 then some (.crewBind r.d r.a) else none
  | _ => none

/-- The function codes of major 0x33 (Table 2.5). -/
noncomputable def decodeToken (r : Raw) : Option Instr :=
  match r.f.toNat with
  | 0 => if r.k = 0#1 ∧ r.p = 0#4 then some (.tkinit r.d r.a r.b) else none
  | 1 => if r.k = 0#1 ∧ r.p.extractLsb' 3 1 = 0#1 then some (.tkarrive r.d r.a r.b (r.p.extractLsb' 0 3)) else none
  | 2 => if r.k = 0#1 ∧ r.p = 0#4 then some (.tkexpect r.d r.a r.b) else none
  | 3 => if r.k = 0#1 ∧ r.p.extractLsb' 3 1 = 0#1 then some (.tksig r.d r.a r.b (r.p.extractLsb' 0 3)) else none
  | 4 => if r.k = 0#1 ∧ r.p.extractLsb' 1 3 = 0#3 ∧ r.b = 0#5 then some (.tkread r.d r.a (r.p.extractLsb' 0 1)) else none
  | 5 => if r.k = 0#1 ∧ r.p = 0#4 then some (.tkpoll r.d r.a r.b) else none
  | 6 => if r.k = 0#1 ∧ r.p.extractLsb' 3 1 = 0#1 then some (.futSet r.d r.a r.b (r.p.extractLsb' 0 3)) else none
  | 7 => if r.k = 0#1 ∧ r.p = 0#4 then some (.futGet r.d r.a r.b) else none
  | 8 => if r.k = 0#1 ∧ r.p = 0#4 then some (.send r.d r.a r.b) else none
  | 9 => if r.k = 0#1 ∧ r.p = 0#4 then some (.recv r.d r.a r.b) else none
  | 10 => if r.k = 0#1 ∧ r.p = 0#4 then some (.post r.d r.a r.b) else none
  | _ => none

/-- The function codes of major 0x34 (Table 2.5). -/
noncomputable def decodeSpace (r : Raw) : Option Instr :=
  match r.f.toNat with
  | 0 => if r.k = 0#1 ∧ r.p = 0#4 then some (.pcommit r.d r.a r.b) else none
  | 1 => if r.k = 0#1 ∧ r.p = 0#4 then some (.pdecommit r.d r.a r.b) else none
  | 2 => if r.k = 0#1 ∧ r.p = 0#4 ∧ r.b = 0#5 then some (.palloc r.d r.a) else none
  | 3 => if r.k = 0#1 ∧ r.p = 0#4 then some (.pfree r.d r.a r.b) else none
  | 4 => some (.tlbinv r.d r.a r.b (r.k ++ r.p))
  | 5 => if r.k = 0#1 ∧ r.p = 0#4 then some (.space r.d r.a r.b) else none
  | _ => none

/-- The function codes of major 0x35 (Table 2.5). -/
noncomputable def decodeCmpl (r : Raw) : Option Instr :=
  match r.f.toNat with
  | 0 => if r.k = 0#1 ∧ r.p.extractLsb' 2 2 = 0#2 then some (.topk r.d r.a r.b (r.p.extractLsb' 0 2)) else none
  | 1 => if r.k = 0#1 ∧ r.p = 0#4 then some (.umRound r.d r.a r.b) else none
  | 2 => if r.k = 0#1 ∧ r.p = 0#4 ∧ r.b = 0#5 then some (.umDirty r.d r.a) else none
  | _ => none

/-- The function codes of major 0x36 (Table 2.5). -/
noncomputable def decodePod (r : Raw) : Option Instr :=
  match r.f.toNat with
  | 0 => if r.k = 0#1 ∧ r.p = 0#4 ∧ r.b = 0#5 then some (.wopen r.d r.a) else none
  | 1 => if r.k = 0#1 ∧ r.p = 0#4 then some (.wclose r.d r.a r.b) else none
  | 2 => if r.p.extractLsb' 2 2 = 0#2 ∧ r.b = 0#5 then some (.wld r.d r.a (r.p.extractLsb' 0 2) r.k) else none
  | 3 => some (.wst r.d r.a r.b (r.k ++ r.p))
  | 4 => if r.k = 0#1 ∧ r.p = 0#4 then some (.wfenceFlag r.d r.a r.b) else none
  | 16 => if r.p.extractLsb' 0 3 = 0#3 then some (.wamoAdd r.d r.a r.b r.k (r.p.extractLsb' 3 1)) else none
  | 17 => if r.p.extractLsb' 0 3 = 0#3 then some (.wamoAnd r.d r.a r.b r.k (r.p.extractLsb' 3 1)) else none
  | 18 => if r.p.extractLsb' 0 3 = 0#3 then some (.wamoOr r.d r.a r.b r.k (r.p.extractLsb' 3 1)) else none
  | 19 => if r.p.extractLsb' 0 3 = 0#3 then some (.wamoXor r.d r.a r.b r.k (r.p.extractLsb' 3 1)) else none
  | 20 => if r.p.extractLsb' 0 3 = 0#3 then some (.wamoMin r.d r.a r.b r.k (r.p.extractLsb' 3 1)) else none
  | 21 => if r.p.extractLsb' 0 3 = 0#3 then some (.wamoMax r.d r.a r.b r.k (r.p.extractLsb' 3 1)) else none
  | 22 => if r.p.extractLsb' 0 3 = 0#3 then some (.wamoMinn r.d r.a r.b r.k (r.p.extractLsb' 3 1)) else none
  | 23 => if r.p.extractLsb' 0 3 = 0#3 then some (.wamoMaxn r.d r.a r.b r.k (r.p.extractLsb' 3 1)) else none
  | 24 => if r.p.extractLsb' 0 3 = 0#3 then some (.wamoSwap r.d r.a r.b r.k (r.p.extractLsb' 3 1)) else none
  | 25 => if r.p.extractLsb' 0 3 = 0#3 then some (.wamoCas r.d r.a r.b r.k (r.p.extractLsb' 3 1)) else none
  | _ => none

/-- The majors of Table 2.4; majors 0x00 and 0x37 to 0x3F are reserved (R40). -/
noncomputable def decodeMajor (r : Raw) : Option Instr :=
  match r.major.toNat with
  | 0x01 => decodeOp r
  | 0x02 => some (.addi r.d r.a (r.f ++ r.k ++ r.p ++ r.b))
  | 0x03 => some (.andi r.d r.a (r.f ++ r.k ++ r.p ++ r.b))
  | 0x04 => some (.ori r.d r.a (r.f ++ r.k ++ r.p ++ r.b))
  | 0x05 => some (.xori r.d r.a (r.f ++ r.k ++ r.p ++ r.b))
  | 0x06 => if r.f = 0#5 ∧ r.k = 0#1 ∧ r.p.extractLsb' 1 3 = 0#3 then some (.slli r.d r.a (r.p.extractLsb' 0 1 ++ r.b)) else none
  | 0x07 => if r.f = 0#5 ∧ r.k = 0#1 ∧ r.p.extractLsb' 1 3 = 0#3 then some (.srli r.d r.a (r.p.extractLsb' 0 1 ++ r.b)) else none
  | 0x08 => if r.f = 0#5 ∧ r.k = 0#1 ∧ r.p.extractLsb' 1 3 = 0#3 then some (.srai r.d r.a (r.p.extractLsb' 0 1 ++ r.b)) else none
  | 0x09 => some (.slti r.d r.a (r.f ++ r.k ++ r.p ++ r.b))
  | 0x0A => some (.sltni r.d r.a (r.f ++ r.k ++ r.p ++ r.b))
  | 0x0B => some (.lim r.d (r.f ++ r.k ++ r.p ++ r.b ++ r.a))
  | 0x0C => some (.ipc r.d (r.f ++ r.k ++ r.p ++ r.b ++ r.a))
  | 0x0D => some (.ldI8 r.d r.a (r.f ++ r.k ++ r.p ++ r.b))
  | 0x0E => some (.ldN8 r.d r.a (r.f ++ r.k ++ r.p ++ r.b))
  | 0x0F => some (.ldI16 r.d r.a (r.f ++ r.k ++ r.p ++ r.b))
  | 0x10 => some (.ldN16 r.d r.a (r.f ++ r.k ++ r.p ++ r.b))
  | 0x11 => some (.ldI32 r.d r.a (r.f ++ r.k ++ r.p ++ r.b))
  | 0x12 => some (.ldN32 r.d r.a (r.f ++ r.k ++ r.p ++ r.b))
  | 0x13 => some (.ld64 r.d r.a (r.f ++ r.k ++ r.p ++ r.b))
  | 0x14 => some (.st8 r.d r.a (r.f ++ r.k ++ r.p ++ r.b))
  | 0x15 => some (.st16 r.d r.a (r.f ++ r.k ++ r.p ++ r.b))
  | 0x16 => some (.st32 r.d r.a (r.f ++ r.k ++ r.p ++ r.b))
  | 0x17 => some (.st64 r.d r.a (r.f ++ r.k ++ r.p ++ r.b))
  | 0x18 => some (.beq r.d r.a (r.f ++ r.k ++ r.p ++ r.b))
  | 0x19 => some (.bne r.d r.a (r.f ++ r.k ++ r.p ++ r.b))
  | 0x1A => some (.blt r.d r.a (r.f ++ r.k ++ r.p ++ r.b))
  | 0x1B => some (.bge r.d r.a (r.f ++ r.k ++ r.p ++ r.b))
  | 0x1C => some (.bltn r.d r.a (r.f ++ r.k ++ r.p ++ r.b))
  | 0x1D => some (.bgen r.d r.a (r.f ++ r.k ++ r.p ++ r.b))
  | 0x1E => some (.jal (r.f ++ r.k ++ r.p ++ r.b ++ r.a ++ r.d))
  | 0x1F => some (.jalr r.d r.a (r.f ++ r.k ++ r.p ++ r.b))
  | 0x20 => decodeFp32 r
  | 0x21 => decodeFp64 r
  | 0x22 => decodeSys r
  | 0x23 => decodeAtom r
  | 0x24 => decodeFence r
  | 0x25 => decodeVctl r
  | 0x26 => if r.f.extractLsb' 2 3 = 0#3 then some (.vseti r.d r.a (r.f.extractLsb' 0 2 ++ r.k ++ r.p ++ r.b)) else none
  | 0x27 => decodeVaVv r
  | 0x28 => decodeVaVx r
  | 0x29 => decodeVcmp r
  | 0x2A => decodeVmask r
  | 0x2B => decodeVred r
  | 0x2C => decodeVperm r
  | 0x2D => decodeVcvt r
  | 0x2E => decodeVld r
  | 0x2F => decodeVst r
  | 0x30 => decodeCopy r
  | 0x31 => decodeMat r
  | 0x32 => decodeCoro r
  | 0x33 => decodeToken r
  | 0x34 => decodeSpace r
  | 0x35 => decodeCmpl r
  | 0x36 => decodePod r
  | _ => none

/-- The compact opcodes of Table 2.8. -/
noncomputable def decodeCompact (c : Compact) : Option Instr :=
  match c.op.toNat with
  | 0x01 => if c.b = 0#5 then some (.cAdd c.a) else none
  | 0x02 => if c.b = 0#5 then some (.cSub c.a) else none
  | 0x03 => if c.b = 0#5 then some (.cAnd c.a) else none
  | 0x04 => if c.b = 0#5 then some (.cOr c.a) else none
  | 0x05 => if c.b = 0#5 then some (.cXor c.a) else none
  | 0x06 => if c.b = 0#5 then some (.cMul c.a) else none
  | 0x07 => some (.cAddi (c.b ++ c.a))
  | 0x08 => if c.b.extractLsb' 1 4 = 0#4 then some (.cSlli c.a (c.b.extractLsb' 0 1)) else none
  | 0x09 => if c.b.extractLsb' 1 4 = 0#4 then some (.cSrli c.a (c.b.extractLsb' 0 1)) else none
  | 0x0A => if c.b.extractLsb' 1 4 = 0#4 then some (.cSrai c.a (c.b.extractLsb' 0 1)) else none
  | 0x0B => some (.cLd c.a c.b)
  | 0x0C => some (.cSt c.a c.b)
  | 0x10 => if c.b = 0#5 then some (.cVadd c.a) else none
  | 0x11 => if c.b = 0#5 then some (.cVsub c.a) else none
  | 0x12 => if c.b = 0#5 then some (.cVmul c.a) else none
  | 0x13 => some (.cVmacc c.a c.b)
  | 0x14 => if c.b = 0#5 then some (.cVfadd c.a) else none
  | 0x15 => if c.b = 0#5 then some (.cVfsub c.a) else none
  | 0x16 => if c.b = 0#5 then some (.cVfmul c.a) else none
  | 0x17 => some (.cVfma c.a c.b)
  | 0x18 => if c.b = 0#5 then some (.cVfmin c.a) else none
  | 0x19 => if c.b = 0#5 then some (.cVfmax c.a) else none
  | 0x1A => if c.b = 0#5 then some (.cVand c.a) else none
  | 0x1B => if c.b = 0#5 then some (.cVor c.a) else none
  | 0x1C => if c.b = 0#5 then some (.cVxor c.a) else none
  | 0x1D => if c.b = 0#5 then some (.cVmin c.a) else none
  | 0x1E => if c.b = 0#5 then some (.cVmax c.a) else none
  | _ => none

/-- Why the bits are no instruction. -/
inductive Reject where
  /-- The compact opcode is reserved, or a field its row requires to be zero is not (R48). -/
  | compactReserved
  /-- The major or function code is not assigned, or a field that must be zero is not (R38, R40, R41). -/
  | notAssigned
  /-- A field holds a value outside its range (R37, R38, R42 to R46). -/
  | fieldRange
  /-- The bytes end before the instruction does. -/
  | truncated
  deriving DecidableEq, Repr

/-- What decoding answers: an instruction and its length in bytes, or a named rejection. -/
inductive Decoded where
  | ok (i : Instr) (length : Nat)
  | bad (why : Reject)
  deriving DecidableEq, Repr

/-- Keeps a decoded row whose fields pass the checks of `Instr.wf`. -/
def Decoded.checked (i : Instr) (length : Nat) : Decoded :=
  if i.wf then .ok i length else .bad .fieldRange

/-- Decodes the halfword at the program counter and, for a 32-bit instruction, the one after it (R33). -/
noncomputable def decodeHalves (h0 h1 : BitVec 16) : Decoded :=
  if h0.extractLsb' 0 1 = 1#1 then
    match decodeMajor (Raw.ofWord (h1 ++ h0)) with
    | some i => .checked i 4
    | none => .bad .notAssigned
  else
    match decodeCompact (Compact.ofHalf h0) with
    | some i => .checked i 2
    | none => .bad .compactReserved

/-- Decodes the instruction that a list of bytes begins with; the bytes of a halfword are little-endian (R4, R33). -/
noncomputable def decodeBytes : List Byte → Decoded
  | b0 :: b1 :: b2 :: b3 :: _ => decodeHalves (b1 ++ b0) (b3 ++ b2)
  | b0 :: b1 :: _ =>
    if b0.extractLsb' 0 1 = 1#1 then .bad .truncated else decodeHalves (b1 ++ b0) 0#16
  | _ => .bad .truncated

/-- The fields of an instruction's words, from the encoding tables; a device step has none. -/
def encodeFields : Instr → Option (Compact ⊕ Raw)
  | .add d a b => some (.inr ⟨0#5, 0#1, 0#4, b, a, d, 1#6⟩)
  | .sub d a b => some (.inr ⟨1#5, 0#1, 0#4, b, a, d, 1#6⟩)
  | .and d a b => some (.inr ⟨2#5, 0#1, 0#4, b, a, d, 1#6⟩)
  | .or d a b => some (.inr ⟨3#5, 0#1, 0#4, b, a, d, 1#6⟩)
  | .xor d a b => some (.inr ⟨4#5, 0#1, 0#4, b, a, d, 1#6⟩)
  | .sll d a b => some (.inr ⟨5#5, 0#1, 0#4, b, a, d, 1#6⟩)
  | .srl d a b => some (.inr ⟨6#5, 0#1, 0#4, b, a, d, 1#6⟩)
  | .sra d a b => some (.inr ⟨7#5, 0#1, 0#4, b, a, d, 1#6⟩)
  | .slt d a b => some (.inr ⟨8#5, 0#1, 0#4, b, a, d, 1#6⟩)
  | .sltn d a b => some (.inr ⟨9#5, 0#1, 0#4, b, a, d, 1#6⟩)
  | .mul d a b => some (.inr ⟨10#5, 0#1, 0#4, b, a, d, 1#6⟩)
  | .mulh d a b => some (.inr ⟨11#5, 0#1, 0#4, b, a, d, 1#6⟩)
  | .mulhn d a b => some (.inr ⟨12#5, 0#1, 0#4, b, a, d, 1#6⟩)
  | .div d a b => some (.inr ⟨13#5, 0#1, 0#4, b, a, d, 1#6⟩)
  | .divn d a b => some (.inr ⟨14#5, 0#1, 0#4, b, a, d, 1#6⟩)
  | .rem d a b => some (.inr ⟨15#5, 0#1, 0#4, b, a, d, 1#6⟩)
  | .remn d a b => some (.inr ⟨16#5, 0#1, 0#4, b, a, d, 1#6⟩)
  | .min d a b => some (.inr ⟨17#5, 0#1, 0#4, b, a, d, 1#6⟩)
  | .max d a b => some (.inr ⟨18#5, 0#1, 0#4, b, a, d, 1#6⟩)
  | .minn d a b => some (.inr ⟨19#5, 0#1, 0#4, b, a, d, 1#6⟩)
  | .maxn d a b => some (.inr ⟨20#5, 0#1, 0#4, b, a, d, 1#6⟩)
  | .clz d a => some (.inr ⟨21#5, 0#1, 0#4, 0#5, a, d, 1#6⟩)
  | .ctz d a => some (.inr ⟨22#5, 0#1, 0#4, 0#5, a, d, 1#6⟩)
  | .popc d a => some (.inr ⟨23#5, 0#1, 0#4, 0#5, a, d, 1#6⟩)
  | .addi d a i => some (.inr ⟨i.extractLsb' 10 5, i.extractLsb' 9 1, i.extractLsb' 5 4, i.extractLsb' 0 5, a, d, 2#6⟩)
  | .andi d a i => some (.inr ⟨i.extractLsb' 10 5, i.extractLsb' 9 1, i.extractLsb' 5 4, i.extractLsb' 0 5, a, d, 3#6⟩)
  | .ori d a i => some (.inr ⟨i.extractLsb' 10 5, i.extractLsb' 9 1, i.extractLsb' 5 4, i.extractLsb' 0 5, a, d, 4#6⟩)
  | .xori d a i => some (.inr ⟨i.extractLsb' 10 5, i.extractLsb' 9 1, i.extractLsb' 5 4, i.extractLsb' 0 5, a, d, 5#6⟩)
  | .slli d a i => some (.inr ⟨0#5, 0#1, (0#3 ++ i.extractLsb' 5 1), i.extractLsb' 0 5, a, d, 6#6⟩)
  | .srli d a i => some (.inr ⟨0#5, 0#1, (0#3 ++ i.extractLsb' 5 1), i.extractLsb' 0 5, a, d, 7#6⟩)
  | .srai d a i => some (.inr ⟨0#5, 0#1, (0#3 ++ i.extractLsb' 5 1), i.extractLsb' 0 5, a, d, 8#6⟩)
  | .slti d a i => some (.inr ⟨i.extractLsb' 10 5, i.extractLsb' 9 1, i.extractLsb' 5 4, i.extractLsb' 0 5, a, d, 9#6⟩)
  | .sltni d a i => some (.inr ⟨i.extractLsb' 10 5, i.extractLsb' 9 1, i.extractLsb' 5 4, i.extractLsb' 0 5, a, d, 10#6⟩)
  | .lim d i => some (.inr ⟨i.extractLsb' 15 5, i.extractLsb' 14 1, i.extractLsb' 10 4, i.extractLsb' 5 5, i.extractLsb' 0 5, d, 11#6⟩)
  | .ipc d i => some (.inr ⟨i.extractLsb' 15 5, i.extractLsb' 14 1, i.extractLsb' 10 4, i.extractLsb' 5 5, i.extractLsb' 0 5, d, 12#6⟩)
  | .ldI8 d a i => some (.inr ⟨i.extractLsb' 10 5, i.extractLsb' 9 1, i.extractLsb' 5 4, i.extractLsb' 0 5, a, d, 13#6⟩)
  | .ldN8 d a i => some (.inr ⟨i.extractLsb' 10 5, i.extractLsb' 9 1, i.extractLsb' 5 4, i.extractLsb' 0 5, a, d, 14#6⟩)
  | .ldI16 d a i => some (.inr ⟨i.extractLsb' 10 5, i.extractLsb' 9 1, i.extractLsb' 5 4, i.extractLsb' 0 5, a, d, 15#6⟩)
  | .ldN16 d a i => some (.inr ⟨i.extractLsb' 10 5, i.extractLsb' 9 1, i.extractLsb' 5 4, i.extractLsb' 0 5, a, d, 16#6⟩)
  | .ldI32 d a i => some (.inr ⟨i.extractLsb' 10 5, i.extractLsb' 9 1, i.extractLsb' 5 4, i.extractLsb' 0 5, a, d, 17#6⟩)
  | .ldN32 d a i => some (.inr ⟨i.extractLsb' 10 5, i.extractLsb' 9 1, i.extractLsb' 5 4, i.extractLsb' 0 5, a, d, 18#6⟩)
  | .ld64 d a i => some (.inr ⟨i.extractLsb' 10 5, i.extractLsb' 9 1, i.extractLsb' 5 4, i.extractLsb' 0 5, a, d, 19#6⟩)
  | .st8 d a i => some (.inr ⟨i.extractLsb' 10 5, i.extractLsb' 9 1, i.extractLsb' 5 4, i.extractLsb' 0 5, a, d, 20#6⟩)
  | .st16 d a i => some (.inr ⟨i.extractLsb' 10 5, i.extractLsb' 9 1, i.extractLsb' 5 4, i.extractLsb' 0 5, a, d, 21#6⟩)
  | .st32 d a i => some (.inr ⟨i.extractLsb' 10 5, i.extractLsb' 9 1, i.extractLsb' 5 4, i.extractLsb' 0 5, a, d, 22#6⟩)
  | .st64 d a i => some (.inr ⟨i.extractLsb' 10 5, i.extractLsb' 9 1, i.extractLsb' 5 4, i.extractLsb' 0 5, a, d, 23#6⟩)
  | .beq a b o => some (.inr ⟨o.extractLsb' 10 5, o.extractLsb' 9 1, o.extractLsb' 5 4, o.extractLsb' 0 5, b, a, 24#6⟩)
  | .bne a b o => some (.inr ⟨o.extractLsb' 10 5, o.extractLsb' 9 1, o.extractLsb' 5 4, o.extractLsb' 0 5, b, a, 25#6⟩)
  | .blt a b o => some (.inr ⟨o.extractLsb' 10 5, o.extractLsb' 9 1, o.extractLsb' 5 4, o.extractLsb' 0 5, b, a, 26#6⟩)
  | .bge a b o => some (.inr ⟨o.extractLsb' 10 5, o.extractLsb' 9 1, o.extractLsb' 5 4, o.extractLsb' 0 5, b, a, 27#6⟩)
  | .bltn a b o => some (.inr ⟨o.extractLsb' 10 5, o.extractLsb' 9 1, o.extractLsb' 5 4, o.extractLsb' 0 5, b, a, 28#6⟩)
  | .bgen a b o => some (.inr ⟨o.extractLsb' 10 5, o.extractLsb' 9 1, o.extractLsb' 5 4, o.extractLsb' 0 5, b, a, 29#6⟩)
  | .jal o => some (.inr ⟨o.extractLsb' 20 5, o.extractLsb' 19 1, o.extractLsb' 15 4, o.extractLsb' 10 5, o.extractLsb' 5 5, o.extractLsb' 0 5, 30#6⟩)
  | .jalr d a i => some (.inr ⟨i.extractLsb' 10 5, i.extractLsb' 9 1, i.extractLsb' 5 4, i.extractLsb' 0 5, a, d, 31#6⟩)
  | .faddF32 d a b => some (.inr ⟨0#5, 0#1, 0#4, b, a, d, 32#6⟩)
  | .fsubF32 d a b => some (.inr ⟨1#5, 0#1, 0#4, b, a, d, 32#6⟩)
  | .fmulF32 d a b => some (.inr ⟨2#5, 0#1, 0#4, b, a, d, 32#6⟩)
  | .fdivF32 d a b => some (.inr ⟨3#5, 0#1, 0#4, b, a, d, 32#6⟩)
  | .fsqrtF32 d a => some (.inr ⟨4#5, 0#1, 0#4, 0#5, a, d, 32#6⟩)
  | .fmaddF32 d a b c => some (.inr ⟨5#5, c.extractLsb' 4 1, c.extractLsb' 0 4, b, a, d, 32#6⟩)
  | .fminF32 d a b => some (.inr ⟨6#5, 0#1, 0#4, b, a, d, 32#6⟩)
  | .fmaxF32 d a b => some (.inr ⟨7#5, 0#1, 0#4, b, a, d, 32#6⟩)
  | .fcmpF32 d a b c => some (.inr ⟨8#5, c.extractLsb' 4 1, c.extractLsb' 0 4, b, a, d, 32#6⟩)
  | .fcvtF32 d a c => some (.inr ⟨9#5, c.extractLsb' 4 1, c.extractLsb' 0 4, 0#5, a, d, 32#6⟩)
  | .fclassF32 d a => some (.inr ⟨10#5, 0#1, 0#4, 0#5, a, d, 32#6⟩)
  | .faddF64 d a b => some (.inr ⟨0#5, 0#1, 0#4, b, a, d, 33#6⟩)
  | .fsubF64 d a b => some (.inr ⟨1#5, 0#1, 0#4, b, a, d, 33#6⟩)
  | .fmulF64 d a b => some (.inr ⟨2#5, 0#1, 0#4, b, a, d, 33#6⟩)
  | .fdivF64 d a b => some (.inr ⟨3#5, 0#1, 0#4, b, a, d, 33#6⟩)
  | .fsqrtF64 d a => some (.inr ⟨4#5, 0#1, 0#4, 0#5, a, d, 33#6⟩)
  | .fmaddF64 d a b c => some (.inr ⟨5#5, c.extractLsb' 4 1, c.extractLsb' 0 4, b, a, d, 33#6⟩)
  | .fminF64 d a b => some (.inr ⟨6#5, 0#1, 0#4, b, a, d, 33#6⟩)
  | .fmaxF64 d a b => some (.inr ⟨7#5, 0#1, 0#4, b, a, d, 33#6⟩)
  | .fcmpF64 d a b c => some (.inr ⟨8#5, c.extractLsb' 4 1, c.extractLsb' 0 4, b, a, d, 33#6⟩)
  | .fcvtF64 d a c => some (.inr ⟨9#5, c.extractLsb' 4 1, c.extractLsb' 0 4, 0#5, a, d, 33#6⟩)
  | .fclassF64 d a => some (.inr ⟨10#5, 0#1, 0#4, 0#5, a, d, 33#6⟩)
  | .crd d n => some (.inr ⟨(0#3 ++ n.extractLsb' 10 2), n.extractLsb' 9 1, n.extractLsb' 5 4, n.extractLsb' 0 5, 0#5, d, 34#6⟩)
  | .cwr n a => some (.inr ⟨(1#3 ++ n.extractLsb' 10 2), n.extractLsb' 9 1, n.extractLsb' 5 4, n.extractLsb' 0 5, a, 0#5, 34#6⟩)
  | .cset n a => some (.inr ⟨(2#3 ++ n.extractLsb' 10 2), n.extractLsb' 9 1, n.extractLsb' 5 4, n.extractLsb' 0 5, a, 0#5, 34#6⟩)
  | .cclr n a => some (.inr ⟨(3#3 ++ n.extractLsb' 10 2), n.extractLsb' 9 1, n.extractLsb' 5 4, n.extractLsb' 0 5, a, 0#5, 34#6⟩)
  | .svc n => some (.inr ⟨(4#3 ++ n.extractLsb' 10 2), n.extractLsb' 9 1, n.extractLsb' 5 4, n.extractLsb' 0 5, 0#5, 0#5, 34#6⟩)
  | .tret => some (.inr ⟨20#5, 0#1, 0#4, 0#5, 0#5, 0#5, 34#6⟩)
  | .brk n => some (.inr ⟨(6#3 ++ n.extractLsb' 10 2), n.extractLsb' 9 1, n.extractLsb' 5 4, n.extractLsb' 0 5, 0#5, 0#5, 34#6⟩)
  | .ifence => some (.inr ⟨28#5, 0#1, 0#4, 0#5, 0#5, 0#5, 34#6⟩)
  | .amoAdd d a b q l s => some (.inr ⟨0#5, q, (l ++ s), b, a, d, 35#6⟩)
  | .amoAnd d a b q l s => some (.inr ⟨1#5, q, (l ++ s), b, a, d, 35#6⟩)
  | .amoOr d a b q l s => some (.inr ⟨2#5, q, (l ++ s), b, a, d, 35#6⟩)
  | .amoXor d a b q l s => some (.inr ⟨3#5, q, (l ++ s), b, a, d, 35#6⟩)
  | .amoMin d a b q l s => some (.inr ⟨4#5, q, (l ++ s), b, a, d, 35#6⟩)
  | .amoMax d a b q l s => some (.inr ⟨5#5, q, (l ++ s), b, a, d, 35#6⟩)
  | .amoMinn d a b q l s => some (.inr ⟨6#5, q, (l ++ s), b, a, d, 35#6⟩)
  | .amoMaxn d a b q l s => some (.inr ⟨7#5, q, (l ++ s), b, a, d, 35#6⟩)
  | .amoSwap d a b q l s => some (.inr ⟨8#5, q, (l ++ s), b, a, d, 35#6⟩)
  | .amoCas d a b q l s => some (.inr ⟨9#5, q, (l ++ s), b, a, d, 35#6⟩)
  | .ldAq d a s => some (.inr ⟨16#5, 1#1, (0#1 ++ s), 0#5, a, d, 35#6⟩)
  | .stRl d a s => some (.inr ⟨17#5, 0#1, (1#1 ++ s), 0#5, a, d, 35#6⟩)
  | .fenceAcq s => some (.inr ⟨0#5, 0#1, (1#1 ++ s), 0#5, 0#5, 0#5, 36#6⟩)
  | .fenceRel s => some (.inr ⟨0#5, 1#1, (0#1 ++ s), 0#5, 0#5, 0#5, 36#6⟩)
  | .fence s => some (.inr ⟨0#5, 1#1, (1#1 ++ s), 0#5, 0#5, 0#5, 36#6⟩)
  | .vfenceArrive d a b s => some (.inr ⟨1#5, 0#1, (0#1 ++ s), b, a, d, 36#6⟩)
  | .cclean a b => some (.inr ⟨2#5, 0#1, 0#4, b, a, 0#5, 36#6⟩)
  | .cinval a b => some (.inr ⟨3#5, 0#1, 0#4, b, a, 0#5, 36#6⟩)
  | .vset d a b => some (.inr ⟨0#5, 0#1, 0#4, b, a, d, 37#6⟩)
  | .vseti d a i => some (.inr ⟨(0#3 ++ i.extractLsb' 10 2), i.extractLsb' 9 1, i.extractLsb' 5 4, i.extractLsb' 0 5, a, d, 38#6⟩)
  | .vrel => some (.inr ⟨1#5, 0#1, 0#4, 0#5, 0#5, 0#5, 37#6⟩)
  | .vsync => some (.inr ⟨2#5, 0#1, 0#4, 0#5, 0#5, 0#5, 37#6⟩)
  | .vaddVv d a b p => some (.inr ⟨0#5, 0#1, p, b, a, d, 39#6⟩)
  | .vaddVx d a b p => some (.inr ⟨0#5, 0#1, p, b, a, d, 40#6⟩)
  | .vsubVv d a b p => some (.inr ⟨0#5, 1#1, p, b, a, d, 39#6⟩)
  | .vsubVx d a b p => some (.inr ⟨0#5, 1#1, p, b, a, d, 40#6⟩)
  | .vmulVv d a b p => some (.inr ⟨1#5, 0#1, p, b, a, d, 39#6⟩)
  | .vmulVx d a b p => some (.inr ⟨1#5, 0#1, p, b, a, d, 40#6⟩)
  | .vmulhVv d a b p => some (.inr ⟨1#5, 1#1, p, b, a, d, 39#6⟩)
  | .vmulhVx d a b p => some (.inr ⟨1#5, 1#1, p, b, a, d, 40#6⟩)
  | .vmaccVv d a b p => some (.inr ⟨2#5, 0#1, p, b, a, d, 39#6⟩)
  | .vmaccVx d a b p => some (.inr ⟨2#5, 0#1, p, b, a, d, 40#6⟩)
  | .vnmsacVv d a b p => some (.inr ⟨2#5, 1#1, p, b, a, d, 39#6⟩)
  | .vnmsacVx d a b p => some (.inr ⟨2#5, 1#1, p, b, a, d, 40#6⟩)
  | .vdivVv d a b p => some (.inr ⟨3#5, 0#1, p, b, a, d, 39#6⟩)
  | .vdivVx d a b p => some (.inr ⟨3#5, 0#1, p, b, a, d, 40#6⟩)
  | .vremVv d a b p => some (.inr ⟨3#5, 1#1, p, b, a, d, 39#6⟩)
  | .vremVx d a b p => some (.inr ⟨3#5, 1#1, p, b, a, d, 40#6⟩)
  | .vminVv d a b p => some (.inr ⟨4#5, 0#1, p, b, a, d, 39#6⟩)
  | .vminVx d a b p => some (.inr ⟨4#5, 0#1, p, b, a, d, 40#6⟩)
  | .vmaxVv d a b p => some (.inr ⟨4#5, 1#1, p, b, a, d, 39#6⟩)
  | .vmaxVx d a b p => some (.inr ⟨4#5, 1#1, p, b, a, d, 40#6⟩)
  | .vandVv d a b p => some (.inr ⟨5#5, 0#1, p, b, a, d, 39#6⟩)
  | .vandVx d a b p => some (.inr ⟨5#5, 0#1, p, b, a, d, 40#6⟩)
  | .vorVv d a b p => some (.inr ⟨5#5, 1#1, p, b, a, d, 39#6⟩)
  | .vorVx d a b p => some (.inr ⟨5#5, 1#1, p, b, a, d, 40#6⟩)
  | .vxorVv d a b p => some (.inr ⟨6#5, 0#1, p, b, a, d, 39#6⟩)
  | .vxorVx d a b p => some (.inr ⟨6#5, 0#1, p, b, a, d, 40#6⟩)
  | .vsllVv d a b p => some (.inr ⟨6#5, 1#1, p, b, a, d, 39#6⟩)
  | .vsllVx d a b p => some (.inr ⟨6#5, 1#1, p, b, a, d, 40#6⟩)
  | .vsrlVv d a b p => some (.inr ⟨7#5, 0#1, p, b, a, d, 39#6⟩)
  | .vsrlVx d a b p => some (.inr ⟨7#5, 0#1, p, b, a, d, 40#6⟩)
  | .vsraVv d a b p => some (.inr ⟨7#5, 1#1, p, b, a, d, 39#6⟩)
  | .vsraVx d a b p => some (.inr ⟨7#5, 1#1, p, b, a, d, 40#6⟩)
  | .vaddsVv d a b p => some (.inr ⟨8#5, 0#1, p, b, a, d, 39#6⟩)
  | .vaddsVx d a b p => some (.inr ⟨8#5, 0#1, p, b, a, d, 40#6⟩)
  | .vsubsVv d a b p => some (.inr ⟨8#5, 1#1, p, b, a, d, 39#6⟩)
  | .vsubsVx d a b p => some (.inr ⟨8#5, 1#1, p, b, a, d, 40#6⟩)
  | .vwaddVv d a b p => some (.inr ⟨9#5, 0#1, p, b, a, d, 39#6⟩)
  | .vwaddVx d a b p => some (.inr ⟨9#5, 0#1, p, b, a, d, 40#6⟩)
  | .vwmulVv d a b p => some (.inr ⟨9#5, 1#1, p, b, a, d, 39#6⟩)
  | .vwmulVx d a b p => some (.inr ⟨9#5, 1#1, p, b, a, d, 40#6⟩)
  | .vwmaccVv d a b p => some (.inr ⟨10#5, 0#1, p, b, a, d, 39#6⟩)
  | .vwmaccVx d a b p => some (.inr ⟨10#5, 0#1, p, b, a, d, 40#6⟩)
  | .vnclipVv d a b p => some (.inr ⟨10#5, 1#1, p, b, a, d, 39#6⟩)
  | .vnclipVx d a b p => some (.inr ⟨10#5, 1#1, p, b, a, d, 40#6⟩)
  | .vselVv d a b p => some (.inr ⟨11#5, 0#1, p, b, a, d, 39#6⟩)
  | .vselVx d a b p => some (.inr ⟨11#5, 0#1, p, b, a, d, 40#6⟩)
  | .vfaddVv d a b p => some (.inr ⟨11#5, 1#1, p, b, a, d, 39#6⟩)
  | .vfaddVx d a b p => some (.inr ⟨11#5, 1#1, p, b, a, d, 40#6⟩)
  | .vfsubVv d a b p => some (.inr ⟨12#5, 0#1, p, b, a, d, 39#6⟩)
  | .vfsubVx d a b p => some (.inr ⟨12#5, 0#1, p, b, a, d, 40#6⟩)
  | .vfmulVv d a b p => some (.inr ⟨12#5, 1#1, p, b, a, d, 39#6⟩)
  | .vfmulVx d a b p => some (.inr ⟨12#5, 1#1, p, b, a, d, 40#6⟩)
  | .vfdivVv d a b p => some (.inr ⟨13#5, 0#1, p, b, a, d, 39#6⟩)
  | .vfdivVx d a b p => some (.inr ⟨13#5, 0#1, p, b, a, d, 40#6⟩)
  | .vfmaVv d a b p => some (.inr ⟨13#5, 1#1, p, b, a, d, 39#6⟩)
  | .vfmaVx d a b p => some (.inr ⟨13#5, 1#1, p, b, a, d, 40#6⟩)
  | .vfnmaVv d a b p => some (.inr ⟨14#5, 0#1, p, b, a, d, 39#6⟩)
  | .vfnmaVx d a b p => some (.inr ⟨14#5, 0#1, p, b, a, d, 40#6⟩)
  | .vfminVv d a b p => some (.inr ⟨14#5, 1#1, p, b, a, d, 39#6⟩)
  | .vfminVx d a b p => some (.inr ⟨14#5, 1#1, p, b, a, d, 40#6⟩)
  | .vfmaxVv d a b p => some (.inr ⟨15#5, 0#1, p, b, a, d, 39#6⟩)
  | .vfmaxVx d a b p => some (.inr ⟨15#5, 0#1, p, b, a, d, 40#6⟩)
  | .vfsqrt d a p => some (.inr ⟨15#5, 1#1, p, 0#5, a, d, 39#6⟩)
  | .vfrsqrt d a p => some (.inr ⟨16#5, 0#1, p, 0#5, a, d, 39#6⟩)
  | .vfrcp d a p => some (.inr ⟨16#5, 1#1, p, 0#5, a, d, 39#6⟩)
  | .vfexp2 d a p => some (.inr ⟨17#5, 0#1, p, 0#5, a, d, 39#6⟩)
  | .vflog2 d a p => some (.inr ⟨17#5, 1#1, p, 0#5, a, d, 39#6⟩)
  | .vftanh d a p => some (.inr ⟨18#5, 0#1, p, 0#5, a, d, 39#6⟩)
  | .vcmp d a b k c p => some (.inr ⟨(k ++ 0#1 ++ c.extractLsb' 1 3), c.extractLsb' 0 1, p, b, a, d, 41#6⟩)
  | .vfcmp d a b k c p => some (.inr ⟨(k ++ 1#1 ++ c.extractLsb' 1 3), c.extractLsb' 0 1, p, b, a, d, 41#6⟩)
  | .mand d a b => some (.inr ⟨0#5, 0#1, 0#4, b, a, d, 42#6⟩)
  | .mor d a b => some (.inr ⟨0#5, 1#1, 0#4, b, a, d, 42#6⟩)
  | .mxor d a b => some (.inr ⟨1#5, 0#1, 0#4, b, a, d, 42#6⟩)
  | .mnot d a => some (.inr ⟨1#5, 1#1, 0#4, 0#5, a, d, 42#6⟩)
  | .mpop d a => some (.inr ⟨2#5, 0#1, 0#4, 0#5, a, d, 42#6⟩)
  | .mfirst d a => some (.inr ⟨2#5, 1#1, 0#4, 0#5, a, d, 42#6⟩)
  | .vred d a b o p => some (.inr ⟨(o ++ 0#2), 0#1, p, b, a, d, 43#6⟩)
  | .vfred d a b o p => some (.inr ⟨(o ++ 0#2), 1#1, p, b, a, d, 43#6⟩)
  | .vscan d a b o p => some (.inr ⟨(o ++ 1#2), 0#1, p, b, a, d, 43#6⟩)
  | .vscanFloat d a b o p => some (.inr ⟨(o ++ 1#2), 1#1, p, b, a, d, 43#6⟩)
  | .vslide d a b p => some (.inr ⟨0#5, 0#1, p, b, a, d, 44#6⟩)
  | .vrgather d a b p => some (.inr ⟨0#5, 1#1, p, b, a, d, 44#6⟩)
  | .vcompress d a b => some (.inr ⟨1#5, 0#1, 0#4, b, a, d, 44#6⟩)
  | .vid d p => some (.inr ⟨1#5, 1#1, p, 0#5, 0#5, d, 44#6⟩)
  | .vbcast d a p => some (.inr ⟨2#5, 0#1, p, 0#5, a, d, 44#6⟩)
  | .vmvx d a b => some (.inr ⟨2#5, 1#1, 0#4, b, a, d, 44#6⟩)
  | .vmvv d a p => some (.inr ⟨3#5, 0#1, p, 0#5, a, d, 44#6⟩)
  | .vcvt d a t p => some (.inr ⟨0#5, 0#1, p, t, a, d, 45#6⟩)
  | .vcvtMx d a b => some (.inr ⟨0#5, 1#1, 0#4, b, a, d, 45#6⟩)
  | .vpack d a => some (.inr ⟨1#5, 0#1, 0#4, 0#5, a, d, 45#6⟩)
  | .vunpack d a => some (.inr ⟨1#5, 1#1, 0#4, 0#5, a, d, 45#6⟩)
  | .vld d a p => some (.inr ⟨0#5, 0#1, p, 0#5, a, d, 46#6⟩)
  | .vlds d a b p => some (.inr ⟨0#5, 1#1, p, b, a, d, 46#6⟩)
  | .vldx d a b p => some (.inr ⟨1#5, 0#1, p, b, a, d, 46#6⟩)
  | .vldChase d a b p => some (.inr ⟨1#5, 1#1, p, b, a, d, 46#6⟩)
  | .vldseg d a b g p => some (.inr ⟨g.extractLsb' 1 5, g.extractLsb' 0 1, p, b, a, d, 46#6⟩)
  | .vst d a p => some (.inr ⟨0#5, 0#1, p, 0#5, a, d, 47#6⟩)
  | .vstU d a p => some (.inr ⟨0#5, 1#1, p, 0#5, a, d, 47#6⟩)
  | .vsts d a b p => some (.inr ⟨1#5, 0#1, p, b, a, d, 47#6⟩)
  | .vstx d a b p => some (.inr ⟨1#5, 1#1, p, b, a, d, 47#6⟩)
  | .vstxU d a b p => some (.inr ⟨2#5, 0#1, p, b, a, d, 47#6⟩)
  | .vamoAdd d a b p => some (.inr ⟨2#5, 1#1, p, b, a, d, 47#6⟩)
  | .cpTile d a => some (.inr ⟨0#5, 0#1, 0#4, 0#5, a, d, 48#6⟩)
  | .cpStream d a => some (.inr ⟨1#5, 0#1, 0#4, 0#5, a, d, 48#6⟩)
  | .cpGather d a b c => some (.inr ⟨2#5, 0#1, (0#1 ++ c), b, a, d, 48#6⟩)
  | .cpResume d a => some (.inr ⟨3#5, 0#1, 0#4, 0#5, a, d, 48#6⟩)
  | .cpCancel d a => some (.inr ⟨4#5, 0#1, 0#4, 0#5, a, d, 48#6⟩)
  | .cpStatus d a => some (.inr ⟨5#5, 0#1, 0#4, 0#5, a, d, 48#6⟩)
  | .cpMg d a => some (.inr ⟨6#5, 0#1, 0#4, 0#5, a, d, 48#6⟩)
  | .mgCheck d a => some (.inr ⟨7#5, 0#1, 0#4, 0#5, a, d, 48#6⟩)
  | .cpKvs d a => some (.inr ⟨8#5, 0#1, 0#4, 0#5, a, d, 48#6⟩)
  | .mattach a => some (.inr ⟨0#5, 0#1, 0#4, 0#5, a, 0#5, 49#6⟩)
  | .mdetach a => some (.inr ⟨0#5, 1#1, 0#4, 0#5, a, 0#5, 49#6⟩)
  | .mshape a => some (.inr ⟨1#5, 0#1, 0#4, 0#5, a, 0#5, 49#6⟩)
  | .mldb l g => some (.inr ⟨1#5, 1#1, (0#3 ++ l), (g ++ 0#3), 0#5, 0#5, 49#6⟩)
  | .mma d a l => some (.inr ⟨2#5, 0#1, (0#3 ++ l), 0#5, a, (0#2 ++ d), 49#6⟩)
  | .mmaMx d a b l => some (.inr ⟨2#5, 1#1, (0#3 ++ l), b, a, (0#2 ++ d), 49#6⟩)
  | .mzero d => some (.inr ⟨3#5, 0#1, 0#4, 0#5, 0#5, (0#2 ++ d), 49#6⟩)
  | .mdrain g t b => some (.inr ⟨3#5, 1#1, 0#4, b, (0#2 ++ t), (g ++ 0#3), 49#6⟩)
  | .mfill t g b => some (.inr ⟨4#5, 0#1, 0#4, b, (g ++ 0#3), (0#2 ++ t), 49#6⟩)
  | .msave t a b => some (.inr ⟨4#5, 1#1, 0#4, b, a, (0#2 ++ t), 49#6⟩)
  | .mload t a b => some (.inr ⟨5#5, 0#1, 0#4, b, a, (0#2 ++ t), 49#6⟩)
  | .spawn d a b c => some (.inr ⟨0#5, c.extractLsb' 4 1, c.extractLsb' 0 4, b, a, d, 50#6⟩)
  | .spawnOn d a b c => some (.inr ⟨1#5, c.extractLsb' 4 1, c.extractLsb' 0 4, b, a, d, 50#6⟩)
  | .exit a => some (.inr ⟨2#5, 0#1, 0#4, 0#5, a, 0#5, 50#6⟩)
  | .yield a => some (.inr ⟨3#5, 0#1, 0#4, 0#5, a, 0#5, 50#6⟩)
  | .await d a b => some (.inr ⟨4#5, 0#1, 0#4, b, a, d, 50#6⟩)
  | .fnext d a => some (.inr ⟨5#5, 0#1, 0#4, 0#5, a, d, 50#6⟩)
  | .farm d a b => some (.inr ⟨6#5, 0#1, 0#4, b, a, d, 50#6⟩)
  | .vctxSave d a b c => some (.inr ⟨7#5, c.extractLsb' 4 1, c.extractLsb' 0 4, b, a, d, 50#6⟩)
  | .vctxRestore d a b c => some (.inr ⟨8#5, c.extractLsb' 4 1, c.extractLsb' 0 4, b, a, d, 50#6⟩)
  | .preempt d a b => some (.inr ⟨9#5, 0#1, 0#4, b, a, d, 50#6⟩)
  | .crewBind d a => some (.inr ⟨10#5, 0#1, 0#4, 0#5, a, d, 50#6⟩)
  | .tkinit d a b => some (.inr ⟨0#5, 0#1, 0#4, b, a, d, 51#6⟩)
  | .tkarrive d a b s => some (.inr ⟨1#5, 0#1, (0#1 ++ s), b, a, d, 51#6⟩)
  | .tkexpect d a b => some (.inr ⟨2#5, 0#1, 0#4, b, a, d, 51#6⟩)
  | .tksig d a b s => some (.inr ⟨3#5, 0#1, (0#1 ++ s), b, a, d, 51#6⟩)
  | .tkread d a e => some (.inr ⟨4#5, 0#1, (0#3 ++ e), 0#5, a, d, 51#6⟩)
  | .tkpoll d a b => some (.inr ⟨5#5, 0#1, 0#4, b, a, d, 51#6⟩)
  | .futSet d a b s => some (.inr ⟨6#5, 0#1, (0#1 ++ s), b, a, d, 51#6⟩)
  | .futGet d a b => some (.inr ⟨7#5, 0#1, 0#4, b, a, d, 51#6⟩)
  | .send d a b => some (.inr ⟨8#5, 0#1, 0#4, b, a, d, 51#6⟩)
  | .recv d a b => some (.inr ⟨9#5, 0#1, 0#4, b, a, d, 51#6⟩)
  | .post d a b => some (.inr ⟨10#5, 0#1, 0#4, b, a, d, 51#6⟩)
  | .pcommit d a b => some (.inr ⟨0#5, 0#1, 0#4, b, a, d, 52#6⟩)
  | .pdecommit d a b => some (.inr ⟨1#5, 0#1, 0#4, b, a, d, 52#6⟩)
  | .palloc d a => some (.inr ⟨2#5, 0#1, 0#4, 0#5, a, d, 52#6⟩)
  | .pfree d a b => some (.inr ⟨3#5, 0#1, 0#4, b, a, d, 52#6⟩)
  | .tlbinv d a b c => some (.inr ⟨4#5, c.extractLsb' 4 1, c.extractLsb' 0 4, b, a, d, 52#6⟩)
  | .space d a b => some (.inr ⟨5#5, 0#1, 0#4, b, a, d, 52#6⟩)
  | .topk d a b s => some (.inr ⟨0#5, 0#1, (0#2 ++ s), b, a, d, 53#6⟩)
  | .umRound d a b => some (.inr ⟨1#5, 0#1, 0#4, b, a, d, 53#6⟩)
  | .umDirty d a => some (.inr ⟨2#5, 0#1, 0#4, 0#5, a, d, 53#6⟩)
  | .wopen d a => some (.inr ⟨0#5, 0#1, 0#4, 0#5, a, d, 54#6⟩)
  | .wclose d a b => some (.inr ⟨1#5, 0#1, 0#4, b, a, d, 54#6⟩)
  | .wld d a n q => some (.inr ⟨2#5, q, (0#2 ++ n), 0#5, a, d, 54#6⟩)
  | .wst d a b c => some (.inr ⟨3#5, c.extractLsb' 4 1, c.extractLsb' 0 4, b, a, d, 54#6⟩)
  | .wfenceFlag d a b => some (.inr ⟨4#5, 0#1, 0#4, b, a, d, 54#6⟩)
  | .wamoAdd d a b q l => some (.inr ⟨16#5, q, (l ++ 0#3), b, a, d, 54#6⟩)
  | .wamoAnd d a b q l => some (.inr ⟨17#5, q, (l ++ 0#3), b, a, d, 54#6⟩)
  | .wamoOr d a b q l => some (.inr ⟨18#5, q, (l ++ 0#3), b, a, d, 54#6⟩)
  | .wamoXor d a b q l => some (.inr ⟨19#5, q, (l ++ 0#3), b, a, d, 54#6⟩)
  | .wamoMin d a b q l => some (.inr ⟨20#5, q, (l ++ 0#3), b, a, d, 54#6⟩)
  | .wamoMax d a b q l => some (.inr ⟨21#5, q, (l ++ 0#3), b, a, d, 54#6⟩)
  | .wamoMinn d a b q l => some (.inr ⟨22#5, q, (l ++ 0#3), b, a, d, 54#6⟩)
  | .wamoMaxn d a b q l => some (.inr ⟨23#5, q, (l ++ 0#3), b, a, d, 54#6⟩)
  | .wamoSwap d a b q l => some (.inr ⟨24#5, q, (l ++ 0#3), b, a, d, 54#6⟩)
  | .wamoCas d a b q l => some (.inr ⟨25#5, q, (l ++ 0#3), b, a, d, 54#6⟩)
  | .cAdd a => some (.inl ⟨0#5, a, 1#5⟩)
  | .cSub a => some (.inl ⟨0#5, a, 2#5⟩)
  | .cAnd a => some (.inl ⟨0#5, a, 3#5⟩)
  | .cOr a => some (.inl ⟨0#5, a, 4#5⟩)
  | .cXor a => some (.inl ⟨0#5, a, 5#5⟩)
  | .cMul a => some (.inl ⟨0#5, a, 6#5⟩)
  | .cAddi i => some (.inl ⟨(i.extractLsb' 5 5), (i.extractLsb' 0 5), 7#5⟩)
  | .cSlli a h => some (.inl ⟨(0#4 ++ h), a, 8#5⟩)
  | .cSrli a h => some (.inl ⟨(0#4 ++ h), a, 9#5⟩)
  | .cSrai a h => some (.inl ⟨(0#4 ++ h), a, 10#5⟩)
  | .cLd a b => some (.inl ⟨b, a, 11#5⟩)
  | .cSt a b => some (.inl ⟨b, a, 12#5⟩)
  | .cVadd a => some (.inl ⟨0#5, a, 16#5⟩)
  | .cVsub a => some (.inl ⟨0#5, a, 17#5⟩)
  | .cVmul a => some (.inl ⟨0#5, a, 18#5⟩)
  | .cVmacc a b => some (.inl ⟨b, a, 19#5⟩)
  | .cVfadd a => some (.inl ⟨0#5, a, 20#5⟩)
  | .cVfsub a => some (.inl ⟨0#5, a, 21#5⟩)
  | .cVfmul a => some (.inl ⟨0#5, a, 22#5⟩)
  | .cVfma a b => some (.inl ⟨b, a, 23#5⟩)
  | .cVfmin a => some (.inl ⟨0#5, a, 24#5⟩)
  | .cVfmax a => some (.inl ⟨0#5, a, 25#5⟩)
  | .cVand a => some (.inl ⟨0#5, a, 26#5⟩)
  | .cVor a => some (.inl ⟨0#5, a, 27#5⟩)
  | .cVxor a => some (.inl ⟨0#5, a, 28#5⟩)
  | .cVmin a => some (.inl ⟨0#5, a, 29#5⟩)
  | .cVmax a => some (.inl ⟨0#5, a, 30#5⟩)
  | .quantumExpiry => none
  | .preemptSwitch => none
  | .contextSpill => none
  | .contextRefill _ => none
  | .vectorMicroOp => none
  | .vectorCommit => none
  | .vfenceSignal => none
  | .sorterService => none
  | .matrixEntryStart => none
  | .tileUnitFree _ _ => none
  | .copyChannelStart _ => none
  | .copyUnitComplete _ => none
  | .copyFault _ => none
  | .copyRestart _ => none
  | .gatherUnitBurst _ => none
  | .tokenOpSend => none
  | .tokenOpApply _ => none
  | .logReplay => none
  | .tokenWatch _ => none
  | .wake _ => none
  | .recheck _ _ => none
  | .mailboxReservation _ _ _ _ => none
  | .mailboxDelivery _ _ _ _ => none
  | .pageWalk _ _ => none
  | .arenaFaultRecord _ _ => none
  | .atsTranslationResponse _ _ _ _ => none
  | .atsInvalidateRequest _ _ _ => none
  | .priPageResponse _ _ _ => none
  | .l1Writeback _ => none
  | .burstResend _ _ _ => none
  | .liveLaneRepair _ => none
  | .patrolScrub _ => none
  | .swapRequest => none
  | .swapLineExchange _ => none
  | .swapPairRetire _ => none
  | .ingressCheck _ => none
  | .endpointCacheFetch _ => none
  | .windowDrainFree _ => none
  | .linkLevelRetry _ => none
  | .portFailure _ _ => none
  | .bar2Access _ _ _ _ => none
  | .pcieLinkTraining _ => none
  | .ideKm _ _ => none
  | .boot => none
  | .powerThrottle _ => none
  | .autoGateM1 _ => none
  | .autoGateM2 _ => none
  | .movementWake _ => none
  | .identify => none
  | .attestReport => none
  | .attestWrap => none
  | .attestUnwrap => none
  | .crewCreate => none
  | .crewDestroy => none
  | .codeLoad => none
  | .bind => none
  | .farmLaunch => none
  | .signal => none
  | .preemptCommand => none
  | .windowRegister => none
  | .powerSetCap => none
  | .powerSetState => none
  | .powerSetGating => none
  | .debugSetLevel => none
  | .debugSetWatch => none
  | .debugSetCopy => none
  | .errorQuery => none
  | .repairStatus => none
  | .patchApply => none
  | .portConfiguration _ _ => none
  | .reservedEncoding => none

/-- The bytes of an instruction in memory order. -/
def encode (i : Instr) : Option (List Byte) :=
  match encodeFields i with
  | some (.inl c) => some [c.toHalf.extractLsb' 0 8, c.toHalf.extractLsb' 8 8]
  | some (.inr r) =>
    some [r.toWord.extractLsb' 0 8, r.toWord.extractLsb' 8 8, r.toWord.extractLsb' 16 8, r.toWord.extractLsb' 24 8]
  | none => none

/-- The bytes of the `nbits`-bit number `w`, least significant first, padded with zeros to the four bytes of the longest
instruction. -/
def tableBytes (nbits w : Nat) : List Byte :=
  let v := w % 2 ^ nbits
  [BitVec.ofNat 8 v, BitVec.ofNat 8 (v / 2 ^ 8), BitVec.ofNat 8 (v / 2 ^ 16), BitVec.ofNat 8 (v / 2 ^ 24)]

/-- The instruction the decoder reads from an instruction whose bits are `w`, numbered as the operation table numbers them. -/
noncomputable def decodeTableWord (nbits w : Nat) : Option Instr :=
  match decodeBytes (tableBytes nbits w) with
  | .ok i _ => some i
  | .bad _ => none

end Sys2Proof
end

