-- ==== Sys2Proof/Machine/Flags.lean ====
section
/-!
DEFINITION. The sticky flags of fcr and status and the fields of fcr (03_numbers.md R72, R83, 04_scalar.md R99).
-/

namespace Sys2Proof.Machine

/-- Sticky float flags in the order of fcr [21:16]: fsat, fnv, fdz, fof, fuf, fnx (03_numbers.md Table 3.5). -/
abbrev FFlags := BitVec 6

/-- No flag. -/
def noFlags : FFlags := 0#6
/-- Inexact (R76). -/
def fnx : FFlags := 1#6
/-- Underflow (R79). -/
def fuf : FFlags := 2#6
/-- Overflow (R80). -/
def fof : FFlags := 4#6
/-- Float division by zero (R83). -/
def fdz : FFlags := 8#6
/-- Invalid operation (R83). -/
def fnv : FFlags := 16#6
/-- A conversion saturated (R80). -/
def fsat : FFlags := 32#6

/-- A flag when a condition holds. -/
def flagIf (c : Bool) (f : FFlags) : FFlags := if c then f else noFlags

/-- The flags merged into fcr, where they stay set (03_numbers.md R84). -/
def fcrMerge (fcr : Word) (f : FFlags) : Word := fcr ||| (f.zeroExtend 64 <<< 16)

/-- The rounding mode of fcr (03_numbers.md Table 3.7). -/
def fcrRm (fcr : Word) : Nat := (fcr.extractLsb' 0 3).toNat

/-- The saturation bit of fcr. -/
def fcrSat (fcr : Word) : Bool := fcr.getLsbD 4

/-- The writable fields of fcr: the flags, daz, ftz, sat and rm (03_numbers.md Table 3.5). -/
def fcrMask : Word := 0x3F07F7#64

/-- A write of fcr: reserved bits read zero, and a value of rm of 6 or 7 leaves rm unchanged (03_numbers.md R73, 00_scope.md R6). -/
def fcrWrite (old new : Word) : Word :=
  if 6 ≤ fcrRm new then ((new &&& fcrMask) &&& ~~~7#64) ||| (old &&& 7#64) else new &&& fcrMask

/-- status.idz: an integer division by zero (04_scalar.md Table 4.3). -/
def statusIdz : Word := 1#64
/-- status.tkst: a local signal carried a stale generation (04_scalar.md Table 4.3). -/
def statusTkst : Word := 4#64
/-- status.futf: a fut.set found its future full (04_scalar.md Table 4.3). -/
def statusFutf : Word := 8#64

/-- The fields of status that a write stores: voff only at S (04_scalar.md Table 4.3). -/
def statusWrite (sup : Bool) (old new : Word) : Word :=
  if sup then new &&& 0x10D#64 else (new &&& 0xD#64) ||| (old &&& 0x100#64)

/-- One xorshift step (03_numbers.md R75). -/
def xorshift (x : Word) : Word :=
  let x1 := x ^^^ (x <<< 13)
  let x2 := x1 ^^^ (x1 >>> 7)
  x2 ^^^ (x2 <<< 17)

/-- `k` xorshift steps (03_numbers.md R75). -/
def xorshiftN : Nat → Word → Word
  | 0, x => x
  | k + 1, x => xorshiftN k (xorshift x)

/-- A write of prng stores 1 for zero (03_numbers.md R74). -/
def prngWrite (new : Word) : Word := if new = 0#64 then 1#64 else new

/-- The 24 bits that a stochastic rounding adds, X[63:40] of its draw (03_numbers.md R77). -/
def drawBits (x : Word) : Nat := (x.extractLsb' 40 24).toNat

end Sys2Proof.Machine
end

