-- ==== Sys2Proof/Config.lean ====
section
/-!
DEFINITION. What the device fixes and the spec does not state: each is an opaque constant, so no proof can see its value and a
statement holds for every one. The log entry that declares each is named beside it.
-/

namespace Sys2Proof.Config

/-- The a-cycles one step of a core takes, by the free counter (00_scope.md R5; log 8). -/
opaque stepCycles : Nat → BitVec 34

/-- A 64-bit value the spec leaves open, by the free counter (log 9). -/
opaque freeWord : Nat → Word

/-- What a forced switch leaves in a vector register that it does not save and that is not zero (07_coroutines.md R198; log 10). -/
opaque lostVector : Nat → BitVec 16384

/-- The same for a mask register (07_coroutines.md R198; log 10). -/
opaque lostMask : Nat → BitVec 2048

/-- The same for a shadow register (07_coroutines.md R198; log 10). -/
opaque lostShadow : Nat → BitVec 1024

/-- The way that a full set of the scalar L1 gives up (04_scalar.md R101; log 7). -/
opaque l1Victim : Nat → BitVec 3

/-- The bits of a special function: function (Table 6.6 row), element type code, input bits, ftz and daz of its class
(06_vector_arithmetic.md R167; log 11). -/
opaque special (function type bits : Nat) (ftz daz : Bool) : Nat

/-- The 4,096 bytes that stand for a saved vector queue frame (07_coroutines.md R200; log 12). -/
opaque frameImage : Nat → BitVec 32768

/-- The order in which an unordered vector store performs an element: whether element `e` of the store numbered by the free
counter is performed after the others that write its bytes (09_visibility.md R278; log 13). -/
opaque elementRank (store element : Nat) : Nat

/-- The supervisor space the Kerlo ROM sets at boot (07_coroutines.md R212; log 6). -/
opaque supervisorSpace : Word

/-- The first physical address of the range the Kerlo ROM holds, in 64 KiB frames below the end of HBM
(13_address_space.md R371; log 6). -/
opaque romFrames : BitVec 24

/-- The stripe boundary in units of 12 GiB (14_near_far_memory.md R401; log 6). -/
opaque stripeUnits : BitVec 6

/-- The swap ring's physical address and size (14_near_far_memory.md R412; log 6). -/
opaque swapRing : BitVec 56
/-- The number of entries of the swap ring (14_near_far_memory.md R412; log 6). -/
opaque swapEntries : BitVec 16

/-- The lanes of an HBM channel that fail training after a package reset (14_near_far_memory.md R407; log 6). -/
opaque lanesFailed : Nat → BitVec 7

/-- The port that the Kerlo ROM fills into the route table for a device and a source movement (16_pod.md R433; log 6). -/
opaque routePort (device : BitVec 10) (movement : BitVec 8) : BitVec 5
/-- The first address of the token-signal range that the Kerlo ROM reserves (16_pod.md R432; log 6). -/
opaque signalRange : Word

/-- The host address of BAR2, in units of its smallest size, and log2 of its size in GiB (17_host_security_power.md R452; log 6). -/
opaque barBase : BitVec 34
/-- log2 of BAR2's size in GiB, 0 to 10 (17_host_security_power.md R452; log 6). -/
opaque barLog : BitVec 4

/-- The context key that a boot draws (17_host_security_power.md R459; log 6). -/
opaque contextKey : Nat → Word

/-- The device's identity public key, doubleword by doubleword (17_host_security_power.md R461; log 6). -/
opaque identityKey : Nat → Word

/-- The device's unique id, doubleword by doubleword (17_host_security_power.md R461; log 6). -/
opaque uniqueId : Nat → Word

/-- A doubleword of the reply of a cryptographic command, from the command's parameters and the device's keys
(17_host_security_power.md R461, R462; log 14). -/
opaque cipherWord (command : Nat) (parameters : List Word) (key : Word) (index : Nat) : Word

/-- Whether a signature or tag in a command's parameters verifies (17_host_security_power.md R460 to R463; log 14). -/
opaque signatureOk (command : Nat) (parameters : List Word) (key : Word) : Bool

/-- The context key that a wrapped blob carries (17_host_security_power.md R462; log 14). -/
opaque unwrapKey (parameters : List Word) : Word

/-- Whether an image is a firmware patch rather than a lifecycle transition, from its doublewords (17_host_security_power.md R460;
log 14). -/
opaque imageIsPatch (image : List Word) : Bool
/-- The patch level of a firmware patch (17_host_security_power.md R460; log 14). -/
opaque imageLevel (image : List Word) : BitVec 16
/-- The lifecycle state that a transition leads to (17_host_security_power.md R460; log 14). -/
opaque imageTarget (image : List Word) : BitVec 8

/-- What another device answers to the remote operation numbered by the free counter: 0 done, 1 refused at ingress, else failed
there with that cause code (16_pod.md R439, R440; log 15). -/
opaque remoteOutcome : Nat → BitVec 8

/-- The frame that the Kerlo ROM chooses when a new crew's pool takes its next frame (17_host_security_power.md Table 17.3;
log 17). -/
opaque chosenFrame : Nat → BitVec 24

end Sys2Proof.Config
end

