-- ==== Sys2Proof/Machine/State.lean ====
section
/-!
DEFINITION. The state of the device as plain data: the coroutine contexts, each core's front end, escapement and queues, each
movement's engines, memory, and the device-wide tables. INVENTORY.md lists every field with the rule that names it.
-/

namespace Sys2Proof.Machine

/-! ## The vector and matrix queues -/

/-- The b operand of a vector instruction: a register, or the scalar value read at issue (06_vector_arithmetic.md R156). -/
inductive VSrc where
  | reg (n : BitVec 5)
  | scalar (x : Word)
  deriving DecidableEq, Repr

/-- The integer element operations, in the order of Table 6.5. -/
inductive IntOp where
  | add | sub | mul | mulh | macc | nmsac | div | rem | min | max | and | or | xor | sll | srl | sra | adds | subs
  deriving DecidableEq, Repr

/-- The widening operations (R164). -/
inductive WideOp where
  | add | mul | macc
  deriving DecidableEq, Repr

/-- The float element operations (R166). -/
inductive FloatOp where
  | add | sub | mul | div | fma | fnma | min | max | sqrt
  deriving DecidableEq, Repr

/-- The special functions (R167). -/
inductive SpecialOp where
  | rsqrt | rcp | exp2 | log2 | tanh
  deriving DecidableEq, Repr

/-- The mask operations that write a mask (R171). -/
inductive MaskOp where
  | and | or | xor | not
  deriving DecidableEq, Repr

/-- The address forms of vector loads and stores (10_scratchpad_copy.md Table 10.3). -/
inductive AddrForm where
  | unit
  | strided (stride : Word)
  | indexed (group : BitVec 5)
  deriving DecidableEq, Repr

/-- What a queued vector instruction does (05_lanes.md R143). -/
inductive VOp where
  | int (op : IntOp)
  | wide (op : WideOp)
  | nclip
  | float (op : FloatOp)
  | special (op : SpecialOp)
  | sel
  | cmp (float : Bool) (cond : BitVec 4)
  | mask (op : MaskOp)
  | cvt (target : BitVec 5)
  | cvtMx
  | pack
  | unpack
  | reduce (float : Bool) (op : BitVec 3) (shadow : BitVec 2)
  | scan (float : Bool) (op : BitVec 3) (shadow : BitVec 2)
  | slide
  | gather
  | compress
  | iota
  | bcast
  | move
  | load (form : AddrForm) (base : Word)
  | chase (base : Word) (slot : BitVec 2)
  | loadSeg (fields : Nat) (base : Word)
  | store (form : AddrForm) (base : Word) (ordered : Bool)
  | atomicAdd (base : Word)
  | topk (control : Word) (shadow : BitVec 2)
  | release
  | shape
  | fenceArrive (handle amount reply : Word) (scope : BitVec 3)
  | gatherMarker (entry : BitVec 3) (seq : BitVec 29)
  | drained (value : Option (BitVec 131072))
  deriving DecidableEq, Repr

/-- A vector queue entry: the instruction with the state captured at its entry (05_lanes.md R143, 03_numbers.md R85); its predicate mask once
that is available (R145, R150); its progress index (R145), the element below which its micro-operation at hand ends, and whether all its
elements are finished (R146); the registers that it writes, in vdirty's layout (R134, R144), or for vrel those that later instructions have
marked (R153); its place in program order among the entries of both queues; the flags of fcr and of status that a later write has settled
(03_numbers.md R84, 04_scalar.md R100); and whether a forced switch put it into a vector queue frame (07_coroutines.md R198). The entry
`drained` is the marker of an mdrain (12_matrix.md R353) with the values that it has drained. -/
structure VEntry where
  op : VOp
  d : BitVec 5
  a : BitVec 5
  b : VSrc
  pred : BitVec 4
  pc : Offset
  vl : Word
  vtype : Word
  fcr : Word
  prng : Word
  mask : Option Nat
  pos : Nat
  lim : Nat
  finished : Bool
  dirty : Word
  ord : Nat
  pins : Word
  statusPins : Word
  framed : Bool
  deriving DecidableEq, Repr

/-- What a queued matrix instruction does (12_matrix.md Table 12.6). -/
inductive MOp where
  | detach (units : Word)
  | shape (word : Word)
  | loadB
  | mma
  | mmaMx
  | zero
  | drain (half : Bool)
  | fill (half : Bool)
  | save (offset : Word) (half : Bool)
  | load (offset : Word) (half : Bool)
  deriving DecidableEq, Repr

/-- A matrix queue entry with what it captured (12_matrix.md R353): the shape and the physical unit of its tile; its place in program order;
and whether a forced switch put it into a vector queue frame (07_coroutines.md R199). -/
structure MEntry where
  op : MOp
  d : BitVec 5
  a : BitVec 5
  b : BitVec 5
  latch : BitVec 1
  shape : Word
  unit : BitVec 3
  pc : Offset
  ord : Nat
  framed : Bool
  deriving DecidableEq, Repr

/-! ## Coroutines -/

/-- A record of a core's record queue (07_coroutines.md R206 to R209). `entry` names the copy command entry it is for, `detached`
marks one whose coroutine was evicted, and `queue` is the core whose queue it joined. -/
structure Record where
  code : BitVec 8
  st : Bool
  vec : Bool
  rcoid : BitVec 18
  eaddr : Word
  epc : Offset
  entry : Option (BitVec 3)
  detached : Bool
  queue : BitVec 10
  deriving DecidableEq, Repr

/-- The context of a coroutine (07_coroutines.md R196, R198, Table 7.5). While the coroutine runs these are its live registers;
otherwise they are what its switch saved. -/
structure Ctx where
  pc : Offset
  x : Vector Word 32
  v : Vector (BitVec 16384) 32
  m : Vector (BitVec 2048) 8
  sh : Vector (BitVec 1024) 4
  vl : Word
  vtype : Word
  vstart : BitVec 16
  ldst : BitVec 6
  fcr : Word
  prng : Word
  status : Word
  vdirty : Word
  quantum : Word
  cause : Word
  eaddr : Word
  epc : Offset
  record : Option Record
  vq : List VEntry
  mq : List MEntry
  deriving DecidableEq, Repr

/-- Slot states (07_coroutines.md Table 7.1); an empty slot is one that the slot table does not list. -/
inductive SlotState where
  | running | ready | waiting | held
  deriving DecidableEq, Repr

/-- The pending form of a waiting fut.get or recv (07_coroutines.md R491). -/
inductive Pending where
  | none
  | futGet (d : BitVec 5)
  | recv (d : BitVec 5)
  deriving DecidableEq, Repr

/-- How a context came to be saved (07_coroutines.md Table 7.6). -/
inductive FrameKind where
  | voluntary | forced | fresh
  deriving DecidableEq, Repr

/-- What the awaited handle and phase of a slot are for: an await, fut.get, recv, spawn.on, resource suspension (R186), or a
fault token (R384). -/
inductive WaitFor where
  | nothing
  | token
  | resource
  | fault
  deriving DecidableEq, Repr

/-- A slot table entry and the context it holds (07_coroutines.md R185, R191). `recent` orders the slots by when they last entered ready or
running (R194); `acq` is the scope at which a new coroutine acquires (R218); `deferred` is the serial of an image whose vector part awaits a
restore, and `deferredVq` the low bits of vcp in that image where it has a queue frame (R226, 05_lanes.md R133). -/
structure Slot where
  num : BitVec 8
  state : SlotState
  cls : BitVec 2
  seq : Word
  waitFor : WaitFor
  handle : Word
  phase : Word
  woken : Bool
  refused : Bool
  pending : Pending
  records : Nat
  crewFault : Bool
  kind : FrameKind
  saved : Word
  spilled : Bool
  recent : Word
  deferred : Option (BitVec 32)
  deferredVq : Option (BitVec 20)
  deferredSpawn : Bool
  acq : BitVec 3
  ctx : Ctx
  deriving DecidableEq, Repr

/-! ## Cores and movements -/

/-- A line of the scalar L1 (04_scalar.md R101, R103, 09_visibility.md R271): valid and dirty bits a byte, held units of 8. -/
structure L1Line where
  line : Nat
  data : BitVec 512
  valid : BitVec 64
  dirty : BitVec 64
  held : BitVec 8
  deriving DecidableEq, Repr

/-- A line of an L2 slice (09_visibility.md R281, 14_near_far_memory.md R410): its place in HBM in lines of 256 bytes, whether it is dirty,
and its uncorrectable 8-byte units. Its bytes are those that memory holds (log 56). -/
structure L2Line where
  line : Nat
  dirty : Bool
  bad : BitVec 32
  deriving DecidableEq, Repr

/-- A store in a core's write queue (09_visibility.md R275): its address, bytes and value, and whether its page is UC. -/
structure QueuedWrite where
  pa : Nat
  n : Nat
  v : Nat
  uc : Bool
  deriving DecidableEq, Repr

/-- A translation that a TLB, a slice or a micro-TLB holds (13_address_space.md R380): the page's virtual base and size, the asid, the
physical base, the policy and the permissions; `ats` marks one that the host gave, `host` one whose `phys` is a host address (R374). -/
structure TlbEntry where
  asid : BitVec 16
  base : Nat
  size : Nat
  phys : Nat
  policy : BitVec 2
  user : Bool
  write : Bool
  read : Bool
  dirty : Bool
  ats : Bool
  host : Bool
  deriving DecidableEq, Repr

/-- A pointer entry in a die's cache of the walkers (13_address_space.md R380): the table that the entry of `level` on the path of the
addresses `prefix` names. -/
structure PointerEntry where
  die : BitVec 2
  asid : BitVec 16
  level : Nat
  path : Nat
  ppn : Nat
  deriving DecidableEq, Repr

/-- A B latch (12_matrix.md R351). -/
structure Latch where
  data : BitVec 131072
  scales : BitVec 8192
  valid : Bool
  deriving DecidableEq, Repr

/-- A chase slot (10_scratchpad_copy.md R299). -/
structure Chase where
  base : Nat
  limit : Nat
  rows : Vector Nat 32
  deriving DecidableEq, Repr

/-- The kinds of copy command (10_scratchpad_copy.md, 11_multigrid.md R339, 15_complications.md R423, 16_pod.md R449,
08_tokens.md R260). -/
inductive CopyKind where
  | tile | stream | gather | grid | kvs | remote | send
  deriving DecidableEq, Repr

/-- The state of a copy command (10_scratchpad_copy.md Table 10.11); a done command holds no entry. -/
inductive CopyState where
  | marker | queued | running | waiting | stopped
  deriving DecidableEq, Repr

/-- What has become of the coroutine that issued a copy command (R316): it holds its slot; it exited, at a place in the order of its core's
selections; or vctx.save evicted it into the image of a serial. -/
inductive Issuer where
  | present
  | exited (order : Word)
  | evicted (serial : BitVec 32)
  deriving DecidableEq, Repr

/-- A copy command in its queue entry (10_scratchpad_copy.md R311 to R316): what it captured at acceptance and its progress. -/
structure CopyCmd where
  entry : BitVec 3
  seq : BitVec 29
  kind : CopyKind
  state : CopyState
  chan : Option (BitVec 4)
  lastChan : BitVec 4
  slot : BitVec 8
  issuer : Issuer
  crew : BitVec 7
  space : Word
  control : Word
  desc : List Word
  units : List (BitVec 3)
  index : List Nat
  weights : List Nat
  mode : BitVec 3
  done : Nat
  sent : Nat
  cause : BitVec 8
  token : Word
  addr : Word
  store : Bool
  flags : BitVec 5
  skipped : Nat
  decided : List (Nat × Bool)
  steps : Nat
  stripsIn : Nat
  stripsOut : Nat
  partIn : Nat
  partOut : Nat
  priority : Bool
  behind : Nat
  fetched : List (Nat × Nat)
  deriving DecidableEq, Repr

/-- An operation in a core's outgoing queue (08_tokens.md R240), with its place in the core's count of them, the sequence numbers of
the wst commands whose first sector it follows (16_pod.md R443) and of those it waits for whole (16_pod.md R451), and the place in program
order of the last vector access that it waits for (09_visibility.md R270), 0 where there is none; and the flags of status that a later write
has settled (04_scalar.md R100). -/
structure OutOp where
  op : TokenOp
  num : Nat
  first : List (BitVec 29)
  whole : List (BitVec 29)
  vector : Nat
  mutes : Word
  deriving DecidableEq, Repr

/-- A core (01_machine.md R15). -/
structure Core where
  id : BitVec 10
  run : Option (BitVec 8)
  ctx : Ctx
  slots : List Slot
  seqCount : Word
  recentCount : Word
  records : List Record
  saveCount : BitVec 32
  bound : BitVec 7
  rsv : BitVec 8
  space : Word
  tvec : Word
  cyc : Word
  spills : Word
  cpqwait : Word
  rowwait : Word
  tlbmiss : Word
  logappend : Word
  winrefuse : Word
  l1 : List L1Line
  wq : List QueuedWrite
  utlb : List TlbEntry
  slices : Vector (List TlbEntry) 4
  walks : List (BitVec 16 × Nat)
  outq : List OutOp
  outCount : Nat
  latches : Vector Latch 2
  grant : List (BitVec 3)
  mshape : Word
  copies : List CopyCmd
  copySeq : BitVec 29
  chases : Vector Chase 4
  halted : Bool
  engineNext : Bool
  replay : Bool
  replayEnd : Bool
  watches : List Watch
  overflowCores : List (BitVec 10)
  overflowDevs : List (BitVec 10)
  overflowCells : List (BitVec 16)
  passed : Option Word
  deriving DecidableEq, Repr

/-- Movement power states (17_host_security_power.md Table 17.5). -/
inductive Power where
  | m0 | m1 | m2 | m3
  deriving DecidableEq, Repr

/-- A movement (01_machine.md R14). -/
structure Movement where
  id : BitVec 8
  rows : Vector (BitVec 262144) 8
  bad : List Nat
  owner : Vector (Option (BitVec 10)) 8
  freeing : List (BitVec 3)
  turn : BitVec 2
  tlb : List TlbEntry
  power : Power
  kept : List (BitVec 10 × List Slot)
  leaving : Bool
  clock : Word
  scalarClock : Word
  deriving DecidableEq, Repr

/-! ## Device tables -/

/-- A die fault entry (13_address_space.md R383). `arena` is the arena index of an arena fault; `command` the copy command id of
a fault that a copy raised. -/
structure FaultEntry where
  die : BitVec 2
  asid : BitVec 16
  key : Nat
  size : Nat
  token : Word
  signalled : Bool
  addr : Word
  store : Bool
  arena : Option (BitVec 4)
  coid : BitVec 18
  command : Option Word
  sent : Bool
  deriving DecidableEq, Repr

/-- A user crew (17_host_security_power.md Table 17.3 CREW_CREATE, 13_address_space.md R374, R387, R391). Its signal log is a ring of
2^logSize entries from logBase on; logHead and logTail count the entries taken and appended (08_tokens.md R247). -/
structure Crew where
  num : BitVec 7
  space : Word
  reserve : BitVec 5
  logSize : BitVec 5
  logBase : Nat
  logHead : Nat
  logTail : Nat
  faulted : Bool
  consent : Bool
  pasid : BitVec 20
  arenaTable : Nat
  poolTable : Nat
  deriving DecidableEq, Repr

/-- Window states (16_pod.md R437); a free window is one that the table does not list. -/
inductive WindowState where
  | opened | closing
  deriving DecidableEq, Repr

/-- A peer of a window (16_pod.md Table 16.2). -/
structure Peer where
  valid : Bool
  first : BitVec 10
  last : BitVec 10
  crew : BitVec 7
  deriving DecidableEq, Repr

/-- A window table entry (16_pod.md R436, R437). -/
structure Window where
  index : BitVec 12
  state : WindowState
  owner : BitVec 7
  base : Word
  length : Nat
  r : Bool
  w : Bool
  a : Bool
  t : Bool
  first : BitVec 10
  count : Nat
  peers : List Peer
  inflight : Nat
  completion : Word
  deriving DecidableEq, Repr

/-- Frame states (13_address_space.md Table 13.8); a frame that the table does not list is in state system. -/
inductive FrameState where
  | system | pooled | held | mapped
  deriving DecidableEq, Repr

/-- A frame entry (13_address_space.md R390). -/
structure Frame where
  num : Nat
  state : FrameState
  crew : BitVec 7
  link : BitVec 24
  deriving DecidableEq, Repr

/-- A translation that the host's ATS gave (13_address_space.md R379). -/
structure AtsEntry where
  asid : BitVec 16
  page : Nat
  host : Nat
  read : Bool
  write : Bool
  deriving DecidableEq, Repr

/-- A vector queue frame that vctx.save wrote (07_coroutines.md R200): the opaque image's number, its serial and stepping, and the
queue entries it stands for. -/
structure SavedFrame where
  image : Nat
  serial : BitVec 32
  key : Word
  vq : List VEntry
  mq : List MEntry
  deriving DecidableEq, Repr

/-- An active swap pair (14_near_far_memory.md R412, R413). -/
structure SwapPair where
  near : Nat
  far : Nat
  nearEntry : Nat
  farEntry : Nat
  future : Word
  asid : BitVec 16
  bitmap : BitVec 256
  deriving DecidableEq, Repr

/-- A watch range (17_host_security_power.md R464). -/
structure WatchRange where
  num : BitVec 2
  crew : BitVec 7
  base : Nat
  length : Nat
  loads : Bool
  stores : Bool
  deriving DecidableEq, Repr

/-- A queued Kerlo command: its slot and the snapshot of dw 0 to 31 (17_host_security_power.md R455). -/
structure KerloCmd where
  slot : BitVec 6
  dw : List Word
  deriving DecidableEq, Repr

/-- What the host does to the function: a read or write of a doubleword of BAR0, by its offset, the place and size of BAR2 set through its
Resizable BAR capability, and a package reset (17_host_security_power.md R452, R454, R459, R460). -/
inductive CrownAccess where
  | read (offset : Nat)
  | write (offset : Nat) (value : Word)
  | placeBar (base : Nat) (log : BitVec 4)
  | packageReset
  deriving DecidableEq, Repr

/-- The crown and the Kerlo ROM's state (17_host_security_power.md R452 to R468). `access` holds the host's accesses to the function that have
not yet arrived, oldest first; `pendingPatch` is the level of the patch that the patch store holds, and `patchStore` its image; `msix` and
`pba` are the MSI-X table and its pending bits; `ideKeys` the keys of the link stream and the four selective streams. -/
structure Kerlo where
  access : List CrownAccess
  ready : Bool
  patch : BitVec 16
  pendingPatch : BitVec 16
  patchStore : List Word
  dbg : BitVec 8
  life : BitVec 8
  slots : List (Nat × Word)
  status : List (Nat × Word)
  result : List (Nat × Word)
  queue : List KerloCmd
  cap : BitVec 16
  gating : BitVec 1
  ideKeys : Vector (Option Word) 5
  msix : List (Nat × Word)
  pba : Word
  trained : Bool
  challenge : Nat
  next : Bool
  errors : List Word
  deriving DecidableEq, Repr

/-- A soft error that strikes a stored unit (04_scalar.md R103, 14_near_far_memory.md R410, 10_scratchpad_copy.md R296, 12_matrix.md
R360): of one bit or symbol, or beyond correction. It comes from outside, as an input does (log 57). -/
inductive Upset where
  | l1 (core : BitVec 10) (line : Nat) (unit : BitVec 3) (double : Bool)
  | l2 (line : Nat) (unit : BitVec 5) (double : Bool)
  | memory (addr : Nat) (double : Bool)
  | tile (mov : BitVec 8) (acc : Nat) (double : Bool)
  deriving DecidableEq, Repr

/-! ## The machine -/

/-- The state of the device. `recordsAway` names the coroutines of the own records that stay open with a holder that vctx.save has evicted
(07_coroutines.md R225, R227). `lag` says of each vector instruction to come that enters an empty queue, oldest first, whether the lanes leave
it there for now; where it says nothing they keep up. `pauses` says after how many elements each micro-operation of a vector memory access to
come pauses; where it says nothing or 0 it ends with its element group (log 21). `me` is the core whose turn it is, `others` the other cores
that have left their reset state, in no order that matters; a core in neither is as reset leaves it. -/
structure State where
  me : Core
  others : List Core
  movements : List Movement
  mem : List Host.Cell
  bad : List Nat
  failing : List Nat
  l2 : List L2Line
  pointers : List PointerEntry
  upsets : List Upset
  lag : List Bool
  pauses : List Nat
  devNo : BitVec 10
  routes : List Nat
  portMoves : List (Nat × Nat)
  signalRange : Nat
  supSpace : Word
  romBase : Nat
  stripe : Nat
  faults : List FaultEntry
  crews : List Crew
  frames : List Frame
  windows : List Window
  lastWindow : BitVec 12
  endpoint : List (BitVec 12)
  sectorsHeld : List (RemoteReq × Option Word)
  heldReqs : List (RemoteReq × BitVec 12)
  ats : List AtsEntry
  atsOut : List (BitVec 16 × Nat)
  atsDone : Nat
  priOut : List (BitVec 16 × Word)
  barBase : Nat
  barSize : Nat
  savedFrames : List SavedFrame
  recordsAway : List (BitVec 18)
  contextKey : Word
  swapNext : Nat
  swapRung : Nat
  swaps : List SwapPair
  swapdone : Word
  lanelend : Word
  cecount : List (Nat × Word)
  uecount : List (Nat × Word)
  crcretry : List (Nat × Word)
  lanerepair : List (Nat × Word)
  laneErrors : List (Nat × Word)
  sparesUsed : List (Nat × Word)
  degraded : List Nat
  portsDown : List Nat
  watchRanges : List WatchRange
  kerlo : Kerlo
  inbox : List Instr
  msixOut : List Nat
  barOut : List (Option Word)
  podOut : List RemoteReq
  fresh : Nat
  deriving DecidableEq, Repr

/-! ## Stops -/

/-- Why the machine stops. -/
inductive Fault where
  /-- An outside agent put an encoded instruction into the inbox: raised by step alone, where the inbox's head is no device step. No
  outside agent sends one, so no run of the device reaches it. Safe. -/
  | notAnInput
  deriving DecidableEq, Repr

/-- Why an instruction is refused. -/
inductive Refusal where
  /-- The instruction has no meaning yet: raised by its arm of exec. Safe. -/
  | notModelled (mnemonic : String)
  deriving DecidableEq, Repr

/-! ## Reset -/

/-- A coroutine's registers as no spawn has set them (05_lanes.md R127, 03_numbers.md R72; log 5). -/
def Ctx.reset : Ctx where
  pc := 0#19
  x := Vector.replicate 32 0#64
  v := Vector.replicate 32 0#16384
  m := Vector.replicate 8 0#2048
  sh := Vector.replicate 4 0#1024
  vl := 0#64
  vtype := 0#64
  vstart := 0#16
  ldst := 0#6
  fcr := 0#64
  prng := 1#64
  status := 0#64
  vdirty := 0#64
  quantum := 0#64
  cause := 0#64
  eaddr := 0#64
  epc := 0#19
  record := none
  vq := []
  mq := []

/-- Core `id` after reset: no coroutine in any slot, no crew bound, counters at zero (01_machine.md R25, 07_coroutines.md R185,
R213, 12_matrix.md R342, R348, R351, 13_address_space.md R373). -/
def Core.reset (id : BitVec 10) : Core where
  id := id
  run := none
  ctx := Ctx.reset
  slots := []
  seqCount := 0#64
  recentCount := 0#64
  records := []
  saveCount := 0#32
  bound := 0#7
  rsv := 0#8
  space := 0#64
  tvec := 0#64
  cyc := 0#64
  spills := 0#64
  cpqwait := 0#64
  rowwait := 0#64
  tlbmiss := 0#64
  logappend := 0#64
  winrefuse := 0#64
  l1 := []
  wq := []
  utlb := []
  slices := Vector.replicate 4 []
  walks := []
  outq := []
  outCount := 0
  latches := Vector.replicate 2 ⟨0#131072, 0#8192, false⟩
  grant := []
  mshape := 0x8000000000000000#64
  copies := []
  copySeq := 0#29
  chases := Vector.replicate 4 ⟨0, 0, Vector.replicate 32 0⟩
  halted := false
  engineNext := false
  replay := false
  replayEnd := false
  watches := []
  overflowCores := []
  overflowDevs := []
  overflowCells := []
  passed := none

/-- Movement `id` after reset: every tile unit free and +0 (12_matrix.md R341, R346, 17_host_security_power.md R459), and
the clocks of 00_scope.md Table 0.1 in MHz. -/
def Movement.reset (id : BitVec 8) : Movement where
  id := id
  rows := Vector.replicate 8 0#262144
  bad := []
  owner := Vector.replicate 8 none
  freeing := []
  turn := 0#2
  tlb := []
  power := .m0
  kept := []
  leaving := false
  clock := 800#64
  scalarClock := 1600#64

/-- The Kerlo ROM right after a package reset: boot is not complete (17_host_security_power.md R454, R459; log 5). -/
def Kerlo.reset : Kerlo where
  access := []
  ready := false
  patch := 0#16
  pendingPatch := 0#16
  patchStore := []
  dbg := 0#8
  life := 0#8
  slots := []
  status := []
  result := []
  queue := []
  cap := 4400#16
  gating := 0#1
  ideKeys := Vector.replicate 5 none
  msix := []
  pba := 0#64
  trained := false
  challenge := 0
  next := true
  errors := []

/-- The device right after a package reset (17_host_security_power.md R459): core 0 has the turn, no slot holds a coroutine, memory
lists nothing, and boot has not run. -/
def State.reset : State where
  me := Core.reset 0#10
  others := []
  movements := []
  mem := []
  bad := []
  failing := []
  l2 := []
  pointers := []
  upsets := []
  lag := []
  pauses := []
  devNo := 0#10
  routes := []
  portMoves := []
  signalRange := 0
  supSpace := 0#64
  romBase := 0xC000000000
  stripe := 0x6000000000
  faults := []
  crews := []
  frames := []
  windows := []
  lastWindow := 0#12
  endpoint := []
  sectorsHeld := []
  heldReqs := []
  ats := []
  atsOut := []
  atsDone := 0
  priOut := []
  barBase := 0
  barSize := 0
  savedFrames := []
  recordsAway := []
  contextKey := 0#64
  swapNext := 0
  swapRung := 0
  swaps := []
  swapdone := 0#64
  lanelend := 0#64
  cecount := []
  uecount := []
  crcretry := []
  lanerepair := []
  laneErrors := []
  sparesUsed := []
  degraded := []
  portsDown := []
  watchRanges := []
  kerlo := Kerlo.reset
  inbox := []
  msixOut := []
  barOut := []
  podOut := []
  fresh := 0

end Sys2Proof.Machine
end

