-- ==== Sys2Proof/Machine/Access.lean ====
section
/-!
DEFINITION. Reading and writing the parts of the state: cores, movements, slots, and the registers of the running coroutine
(01_machine.md R15, R18, 04_scalar.md R95, 02_encoding.md R49).
-/

namespace Sys2Proof.Machine

/-- What a meaning answers. -/
abbrev Result := Host.Outcome State Fault Refusal

/-! ## Cores and movements -/

/-- Core `c` of the device. -/
def State.coreAt (s : State) (c : BitVec 10) : Core :=
  if c = s.me.id then s.me else (s.others.find? fun k => k.id = c).getD (Core.reset c)

/-- The state with core `k.id` replaced by `k`. -/
def State.setCore (s : State) (k : Core) : State :=
  if k.id = s.me.id then { s with me := k } else { s with others := k :: s.others.filter fun o => o.id ≠ k.id }

/-- Core `c` given the turn. -/
def State.giveTurn (s : State) (c : BitVec 10) : State :=
  if c = s.me.id then s
  else { s with me := s.coreAt c, others := s.me :: s.others.filter fun o => o.id ≠ c }

/-- Core `c` changed by `f`. -/
def State.updCore (s : State) (c : BitVec 10) (f : Core → Core) : State := s.setCore (f (s.coreAt c))

/-- The cores that have left their reset state. -/
def State.cores (s : State) : List Core := s.me :: s.others

/-- Every listed core changed by `f`. -/
def State.mapCores (s : State) (f : Core → Core) : State := { s with me := f s.me, others := s.others.map f }

/-- The movement of a core: core id [9:2] (01_machine.md R15). -/
def movOf (c : BitVec 10) : BitVec 8 := c.extractLsb' 2 8

/-- The die of a core: core id [9:8] (01_machine.md R15). -/
def dieOf (c : BitVec 10) : BitVec 2 := c.extractLsb' 8 2

/-- Movement `m` of the device. -/
def State.movAt (s : State) (m : BitVec 8) : Movement :=
  (s.movements.find? fun k => k.id = m).getD (Movement.reset m)

/-- The state with movement `k.id` replaced by `k`. -/
def State.setMov (s : State) (k : Movement) : State :=
  { s with movements := k :: s.movements.filter fun o => o.id ≠ k.id }

/-- Movement `m` changed by `f`. -/
def State.updMov (s : State) (m : BitVec 8) (f : Movement → Movement) : State := s.setMov (f (s.movAt m))

/-- The movement of the core whose turn it is. -/
def State.mov (s : State) : Movement := s.movAt (movOf s.me.id)

/-! ## Slots -/

/-- A slot of a core; an empty slot is not listed. -/
def Core.slot? (k : Core) (n : BitVec 8) : Option Slot := k.slots.find? fun t => t.num = n

/-- Slot `n` changed by `f`. -/
def Core.updSlot (k : Core) (n : BitVec 8) (f : Slot → Slot) : Core :=
  { k with slots := k.slots.map fun t => if t.num = n then f t else t }

/-- Slot `n` emptied. -/
def Core.dropSlot (k : Core) (n : BitVec 8) : Core := { k with slots := k.slots.filter fun t => t.num ≠ n }

/-- A new slot entry, in ascending slot order. -/
def insertSlot (t : Slot) : List Slot → List Slot
  | [] => [t]
  | u :: r => if t.num < u.num then t :: u :: r else u :: insertSlot t r

/-- A slot entry added or replaced. -/
def Core.putSlot (k : Core) (t : Slot) : Core := { k with slots := insertSlot t (k.dropSlot t.num).slots }

/-- Whether a slot belongs to crew 0 (01_machine.md R19). -/
def supSlot (n : BitVec 8) : Bool := n < 4#8

/-- The crew of a slot of a core (01_machine.md R19). -/
def Core.crewOf (k : Core) (n : BitVec 8) : BitVec 7 := if supSlot n then 0#7 else k.bound

/-- A coroutine id: the core id above the slot (01_machine.md R18). -/
def coidOf (c : BitVec 10) (n : BitVec 8) : BitVec 18 := c ++ n

/-- The core of a coroutine id. -/
def coidCore (i : BitVec 18) : BitVec 10 := i.extractLsb' 8 10

/-- The slot of a coroutine id. -/
def coidSlot (i : BitVec 18) : BitVec 8 := i.extractLsb' 0 8

/-! ## The running coroutine -/

/-- The slot of the running coroutine; 0 where none runs. -/
def State.slotNum (s : State) : BitVec 8 := s.me.run.getD 0#8

/-- Whether the running coroutine is at level S (01_machine.md R22). -/
def State.sup (s : State) : Bool := supSlot s.slotNum

/-- The crew of the running coroutine. -/
def State.crew (s : State) : BitVec 7 := s.me.crewOf s.slotNum

/-- The id of the running coroutine. -/
def State.coid (s : State) : BitVec 18 := coidOf s.me.id s.slotNum

/-- The space a slot's accesses translate through (13_address_space.md R373). -/
def State.spaceOf (s : State) (c : BitVec 10) (n : BitVec 8) : Word :=
  if supSlot n then s.supSpace else (s.coreAt c).space

/-- The running coroutine's live registers changed by `f`. -/
def State.updCtx (s : State) (f : Ctx → Ctx) : State := { s with me := { s.me with ctx := f s.me.ctx } }

/-- The offset of the instruction that executes. -/
def State.pc (s : State) : Offset := s.me.ctx.pc

/-- The program counter set. -/
def State.setPc (s : State) (o : Offset) : State := s.updCtx fun c => { c with pc := o }

/-- The program counter moved past an instruction of `n` bytes, modulo 2^19 (02_encoding.md R33). -/
def State.adv (s : State) (n : Nat) : State := s.setPc (s.pc + BitVec.ofNat 19 n)

/-! ## Registers -/

/-- Scalar register `n`; x0 reads as zero (04_scalar.md R95). -/
def Ctx.getX (c : Ctx) (n : BitVec 5) : Word := if n = 0#5 then 0#64 else c.x[n.toNat]'(n.isLt)

/-- Scalar register `n` written; a write to x0 is discarded (04_scalar.md R95). -/
def Ctx.setX (c : Ctx) (n : BitVec 5) (v : Word) : Ctx :=
  if n = 0#5 then c else { c with x := c.x.set n.toNat v n.isLt }

/-- Scalar register `n` of the running coroutine. -/
def State.x (s : State) (n : BitVec 5) : Word := s.me.ctx.getX n

/-- The destination of a scalar instruction written, with ldst naming it (02_encoding.md R49, 04_scalar.md R95). -/
def State.putX (s : State) (n : BitVec 5) (v : Word) : State :=
  s.updCtx fun c => { c.setX n v with ldst := 0#1 ++ n }

/-- ldst naming a v register (02_encoding.md R49). -/
def State.nameV (s : State) (n : BitVec 5) : State := s.updCtx fun c => { c with ldst := 1#1 ++ n }

/-- The next free value's number, with the counter advanced. -/
def State.bump (s : State) (n : Nat) : State := { s with fresh := s.fresh + n }

/-- The bits `hi` down to `lo` of a word as a number. -/
def bits (w : Word) (hi lo : Nat) : Nat := (w.toNat >>> lo) % 2 ^ (hi - lo + 1)

/-- A failure result word (07_coroutines.md R217). -/
def failWord (code : Nat) : Word := BitVec.ofNat 64 (2 ^ 63 + code)

end Sys2Proof.Machine
end

