-- ==== Sys2Proof/Machine/Phys.lean ====
section
/-!
DEFINITION. Physical memory (13_address_space.md R371): bytes in one canonical list, the virtual hardware resource cells,
uncorrectable units and the redirection of active swap pairs.
-/

namespace Sys2Proof.Machine

/-! ## The list of bytes -/

/-- The byte at an address; an unlisted address reads 0 (log 4). -/
def memByte : List Host.Cell → Nat → Byte
  | [], _ => 0#8
  | c :: r, a => if c.1 = a then c.2 else memByte r a

/-- A byte stored, in the canonical form: ascending addresses and no entry equal to 0. -/
def memPut : List Host.Cell → Nat → Byte → List Host.Cell
  | [], a, b => if b = 0#8 then [] else [(a, b)]
  | c :: r, a, b =>
    if a < c.1 then (if b = 0#8 then c :: r else (a, b) :: c :: r)
    else if a = c.1 then (if b = 0#8 then r else (a, b) :: r)
    else c :: memPut r a b

/-- `n` bytes from an address as a little-endian number (00_scope.md R4). -/
def memRead (m : List Host.Cell) (a : Nat) : Nat → Nat
  | 0 => 0
  | n + 1 => (memByte m a).toNat + 256 * memRead m (a + 1) n

/-- `n` bytes of a number stored little-endian (00_scope.md R4). -/
def memWrite (m : List Host.Cell) (a : Nat) : Nat → Nat → List Host.Cell
  | 0, _ => m
  | n + 1, v => memWrite (memPut m a (BitVec.ofNat 8 v)) (a + 1) n (v / 256)

/-- Zeros stored from `lo` up to but not including `hi`. -/
def memClear (m : List Host.Cell) (lo hi : Nat) : List Host.Cell := m.filter fun c => c.1 < lo || hi ≤ c.1

/-- The canonical form: every entry above address `lo`, ascending and non-zero. -/
def memWfFrom : Nat → List Host.Cell → Bool
  | _, [] => true
  | lo, c :: r => decide (lo ≤ c.1) && decide (c.2 ≠ 0#8) && memWfFrom (c.1 + 1) r

/-- The canonical form of memory. -/
def Memory.wf (m : List Host.Cell) : Bool := memWfFrom 0 m

/-! ## The address map -/

/-- The bytes of HBM (Table 13.1). -/
def hbmSize : Nat := 0xC000000000
/-- The first address of the scratchpad window (10_scratchpad_copy.md R298). -/
def scratchBase : Nat := 0x10000000000
/-- The first address of the instruction stores (Table 13.1). -/
def istoreBase : Nat := 0x10100000000
/-- The first address of the host window (Table 13.1). -/
def hostBase : Nat := 0x80000000000000

/-- What a physical address names (Table 13.1). -/
inductive Region where
  | hbm
  | scratch (core : BitVec 10) (offset : Nat)
  | istore (mov : BitVec 8) (offset : Nat)
  | host (addr : Nat)
  | reserved
  deriving DecidableEq, Repr

/-- The region of a physical address (Table 13.1). -/
def regionOf (pa : Nat) : Region :=
  if pa < hbmSize then .hbm
  else if scratchBase ≤ pa ∧ pa < scratchBase + 2 ^ 30 then
    .scratch (BitVec.ofNat 10 ((pa - scratchBase) / 2 ^ 20)) ((pa - scratchBase) % 2 ^ 20)
  else if istoreBase ≤ pa ∧ pa < istoreBase + 2 ^ 27 then
    .istore (BitVec.ofNat 8 ((pa - istoreBase) / 2 ^ 19)) ((pa - istoreBase) % 2 ^ 19)
  else if hostBase ≤ pa ∧ pa < 2 ^ 56 then .host (pa - hostBase)
  else .reserved

/-- The physical address of a core's scratchpad offset (10_scratchpad_copy.md R298). -/
def scratchAddr (c : BitVec 10) (o : Nat) : Nat := scratchBase + c.toNat * 2 ^ 20 + o

/-- The physical address of a movement's instruction store offset (Table 13.1). -/
def istoreAddr (m : BitVec 8) (o : Nat) : Nat := istoreBase + m.toNat * 2 ^ 19 + o

/-! ## Context cache use (07_coroutines.md R191 to R195) -/

/-- The number of one bits of a number below 2^n. -/
def popNat : Nat → Nat → Nat
  | 0, _ => 0
  | n + 1, v => v % 2 + popNat n (v / 2)

/-- The pool units a saved context holds: one a vector register, one for masks, two for a queue frame (R191). -/
def Slot.units (t : Slot) : Nat :=
  popNat 32 (bits t.saved 31 0) + (if bits t.saved 39 32 = 0 then 0 else 1) +
    (if t.ctx.vq.isEmpty && t.ctx.mq.isEmpty then 0 else 2)

/-- The claim of a running coroutine's pool units (R192). -/
def claimUnits (vdirty : Word) : Nat :=
  popNat 32 (bits vdirty 31 0) + (if bits vdirty 39 32 = 0 then 0 else 1) + 2

/-- Whether a slot's context lies in the context cache (R191). -/
def Slot.cached (t : Slot) : Bool := t.state ≠ .running && !t.spilled

/-- The pool units in use, the claim of the running coroutine among them (R191, R192). -/
def Core.unitsUsed (k : Core) : Nat :=
  ((k.slots.filter Slot.cached).map Slot.units).foldl (· + ·) 0 + (if k.run.isSome then claimUnits k.ctx.vdirty else 0)

/-- Free pool units (R191). -/
def Core.freeUnits (k : Core) : Nat := 72 - k.unitsUsed

/-- Free frames among frames 4 to 47, one kept for a running user coroutine (R191, R192). -/
def Core.freeFrames (k : Core) : Nat :=
  44 - ((k.slots.filter fun t => t.cached && !supSlot t.num).length +
    (if k.run.isSome && !supSlot (k.run.getD 0#8) then 1 else 0))

/-- The bytes a spilled context takes (R193). -/
def Slot.spillSize (t : Slot) : Nat := 1024 + 2048 * t.units

/-- The free bytes of the reserve that a slot's spill uses (R193). -/
def Core.reserveFree (k : Core) (sup : Bool) : Nat :=
  (if sup then 65536 else k.rsv.toNat * 65536) -
    ((k.slots.filter fun t => t.spilled && (supSlot t.num == sup)).map Slot.spillSize).foldl (· + ·) 0

/-- The order in which contexts are taken for a spill: waiting and held before ready, then by when the slot last entered ready or
running (R194). -/
def spillBefore (a b : Slot) : Bool :=
  if (a.state = .ready) ≠ (b.state = .ready) then b.state = .ready else a.recent < b.recent

/-- The least of a list by a strict order. -/
def leastBy (lt : α → α → Bool) : List α → Option α
  | [] => none
  | a :: r => match leastBy lt r with
    | none => some a
    | some b => if lt b a then some b else some a

/-- The least recently ready context of the cache, where its reserve can take it (R194, R195). -/
def Core.victim (k : Core) : Option Slot :=
  (leastBy spillBefore (k.slots.filter Slot.cached)).filter fun t => decide (t.spillSize ≤ k.reserveFree (supSlot t.num))

/-- A context moved whole to the reserve, adding 1 to spills (R194). -/
def Core.spill (k : Core) (t : Slot) : Core :=
  { k.updSlot t.num (fun u => { u with spilled := true }) with spills := k.spills + 1#64 }

/-- The least recently ready context moved to the reserve. -/
def Core.spillOne (k : Core) : Option Core := k.victim.map k.spill

/-- Spills until the cache has the frames and units asked for (R194). -/
def Core.makeRoom (frames units : Nat) : Nat → Core → Option Core
  | 0, k => if frames ≤ k.freeFrames ∧ units ≤ k.freeUnits then some k else none
  | n + 1, k =>
    if frames ≤ k.freeFrames ∧ units ≤ k.freeUnits then some k
    else match k.victim with
      | none => none
      | some t => Core.makeRoom frames units n (k.spill t)

/-- Spills while the contexts of the cache and the running claim take more than the 72 units of the pool (R191, R194). -/
def Core.fit : Nat → Core → Core
  | 0, k => k
  | n + 1, k =>
    if k.unitsUsed ≤ 72 then k
    else match k.victim with
      | none => k
      | some t => Core.fit n (k.spill t)

/-! ## Handles (08_tokens.md R230) -/

/-- The device of a handle. -/
def hDev (h : Word) : BitVec 10 := h.extractLsb' 54 10
/-- The home core of a handle. -/
def hCore (h : Word) : BitVec 10 := h.extractLsb' 44 10
/-- The kind of a handle: 0 barrier, 1 count, 2 future, 3 mailbox. -/
def hKind (h : Word) : BitVec 2 := h.extractLsb' 42 2
/-- The generation of a handle. -/
def hGen (h : Word) : BitVec 26 := h.extractLsb' 16 26
/-- The cell index of a handle. -/
def hIndex (h : Word) : BitVec 16 := h.extractLsb' 0 16
/-- A handle from its fields. -/
def mkHandle (dev core : BitVec 10) (kind : BitVec 2) (gen : BitVec 26) (index : BitVec 16) : Word :=
  dev ++ core ++ kind ++ gen ++ index
/-- The handle of hardware resource cell `i` of a core (07_coroutines.md R195). -/
def resourceHandle (dev core : BitVec 10) (i : BitVec 16) : Word := mkHandle dev core 1#2 0#26 i

/-- Whether the cell is a hardware resource cell, reserved ones among them (08_tokens.md R229). -/
def isResource (h : Word) : Bool := (hIndex h).toNat < 16

/-! ## Hardware resource cells -/

/-- The units of a movement that no core holds and that are not being zeroed (12_matrix.md R345, R346). -/
def Movement.freeUnits (v : Movement) : Nat :=
  ((List.range 8).filter fun i => (v.owner.toList.getD i none).isNone && !(v.freeing.contains (BitVec.ofNat 3 i))).length

/-- The count of hardware resource cell `i` of core `c` (07_coroutines.md R195, 08_tokens.md R234, R249, 10_scratchpad_copy.md
R312, 12_matrix.md R345, 14_near_far_memory.md R412). -/
def State.resourceCount (s : State) (c : BitVec 10) (i : Nat) : Nat :=
  let k := s.coreAt c
  match i with
  | 0 => 252 - (k.slots.filter fun t => !supSlot t.num).length
  | 1 => if k.victim.isSome then max 1 k.freeUnits else k.freeUnits
  | 2 => k.records.length
  | 3 => if k.replay then 0 else 1
  | 4 => 8 - k.copies.length
  | 5 => (s.movAt (movOf c)).freeUnits
  | 6 => if c = 0#10 then Config.swapEntries.toNat - s.swapRung else 0
  | _ => 0

/-- The expected phase that a wait's condition reads: an await's and a spawn.on's for barriers alone (R186, R222). -/
def Slot.asks (t : Slot) : Word := if t.waitFor = .token ∧ hKind t.handle ≠ 0#2 then 0#64 else t.phase

/-- Whether a coroutine of the core waits on a hardware resource cell of it, or a watch is held for it or found the table full
(08_tokens.md R232, R243). -/
def State.resourceWaits (s : State) (c : BitVec 10) (i : Nat) : Bool :=
  let k := s.coreAt c
  (k.slots.any fun t => t.state != .running && (t.waitFor == .token || t.waitFor == .resource) && hDev t.handle == s.devNo &&
    hCore t.handle == c && (hIndex t.handle).toNat == i) ||
  (k.watches.any fun w => (hIndex w.handle).toNat == i) || k.overflowCells.any fun j => j.toNat == i

/-- The two doublewords of a hardware resource cell: a count cell of generation 0 and threshold 1, with its wp bit (08_tokens.md R232,
R234). -/
def State.resourceCell (s : State) (c : BitVec 10) (i : Nat) : Nat :=
  s.resourceCount c i + 2 ^ 32 + (if s.resourceWaits c i then 2 ^ 87 else 0) + 2 ^ 100

/-! ## HBM's places (14_near_far_memory.md R400 to R402) -/

/-- The stack of an HBM address under a stripe boundary, and its line index in it (14_near_far_memory.md R401). -/
def stackLine (bs pa : Nat) : Nat × Nat :=
  if pa < bs then (pa / 256 % 12, pa / 256 / 12)
  else
    let p := (hbmSize - bs) / 4
    let o := pa - bs
    let n := o % p / 256
    (3 * (o / p) + n % 3, bs / 3072 + n / 3)

/-- The channel of an HBM address, 64 to a stack (14_near_far_memory.md R402). -/
def channelOf (bs pa : Nat) : Nat :=
  let l := stackLine bs pa
  64 * l.1 + (l.2 % 64 ^^^ l.2 / 64 % 64)

/-- The pseudo-channel of an HBM address, 2 to a channel and 128 to a stack (14_near_far_memory.md R400, R402). -/
def pseudoOf (bs pa : Nat) : Nat :=
  let l := stackLine bs pa
  2 * channelOf bs pa + (l.2 / 64 % 2 ^^^ l.2 / 4096 % 2)

/-- The line of an HBM address in its pseudo-channel, below 2^21 (14_near_far_memory.md R400, R402). -/
def pseudoLine (bs pa : Nat) : Nat := (stackLine bs pa).2 / 128

/-- A counter of a list of them, which starts at 0 and wraps (01_machine.md R25). -/
def countAt (l : List (Nat × Word)) (key : Nat) : Word := ((l.find? fun p => p.1 = key).map fun p => p.2).getD 0#64

/-- A counter of a list grown. -/
def addCount (l : List (Nat × Word)) (key n : Nat) : List (Nat × Word) :=
  (key, countAt l key + BitVec.ofNat 64 n) :: l.filter fun p => p.1 ≠ key

/-! ## Reading and writing physical memory -/

/-- The place of an address while a swap pair is active: a line whose bitmap bit is set is served from its new place
(14_near_far_memory.md R413). -/
def State.redirect (s : State) (pa : Nat) : Nat :=
  match s.swaps.find? fun p => p.near ≤ pa && pa < p.near + 65536 || p.far ≤ pa && pa < p.far + 65536 with
  | none => pa
  | some p =>
    if p.near ≤ pa ∧ pa < p.near + 65536 then
      (if p.bitmap.getLsbD ((pa - p.near) / 256) then p.far + (pa - p.near) else pa)
    else if p.bitmap.getLsbD ((pa - p.far) / 256) then p.near + (pa - p.far) else pa

/-- Whether an address lies in a hardware resource cell, and which byte (08_tokens.md R229). -/
def resourceByte (pa : Nat) : Option (BitVec 10 × Nat) :=
  match regionOf pa with
  | .scratch c o => if o < 256 then some (c, o) else none
  | .hbm => none
  | .istore _ _ => none
  | .host _ => none
  | .reserved => none

/-- `n` bytes of physical memory as a number; n is at most 16 and the bytes do not pass an aligned 16-byte unit or lie outside the
resource cells. -/
def State.physRead (s : State) (pa n : Nat) : Nat :=
  match resourceByte pa with
  | some (c, o) => (s.resourceCell c (o / 16) >>> (8 * (o % 16))) % 256 ^ n
  | none => memRead s.mem (s.redirect pa) n

/-! ## The L2 slices (04_scalar.md R102, 09_visibility.md R281, 14_near_far_memory.md R410) -/

/-- The L2 line that holds a place of HBM, if any. -/
def State.l2Line? (s : State) (line : Nat) : Option L2Line := s.l2.find? fun l => l.line = line

/-- The bytes of an error unit of memory: a 32-byte burst of HBM, else 8 bytes (14_near_far_memory.md R410, 10_scratchpad_copy.md R296). -/
def unitSize (pa : Nat) : Nat := if pa < hbmSize then 32 else 8

/-- The 8-byte units of a 256-byte line that `n` bytes from offset `o` touch; `whole` asks for those that they cover. -/
def unitMask (o n : Nat) (whole : Bool) : BitVec 32 :=
  (List.range 32).foldl (fun acc i =>
    if (if whole then decide (o ≤ 8 * i) && decide (8 * i + 8 ≤ o + n) else decide (8 * i < o + n) && decide (o < 8 * i + 8))
    then acc ||| (1#32 <<< i) else acc) 0#32

/-- Whether `n` bytes from an address touch an uncorrectable unit: of HBM behind no L2 line, where a burst whose read failed counts as one, of
other memory, or of a dirty L2 line (14_near_far_memory.md R410). -/
def State.isBad (s : State) (pa n : Nat) : Bool :=
  let q := s.redirect pa
  ((s.bad ++ s.failing).any fun u => decide (u < q + n) && decide (q < u + unitSize u) && !(decide (u < hbmSize) && (s.l2Line? (u / 256)).isSome)) ||
    s.l2.any fun l => l.bad != 0#32 && decide (256 * l.line < q + n) && decide (q < 256 * l.line + 256) &&
      (l.bad &&& unitMask (q - 256 * l.line) (q + n - max q (256 * l.line)) false) != 0#32

/-- The uncorrectable units left after a write of `n` bytes: one that it covers whole is renewed (14_near_far_memory.md R410). -/
def State.badAfter (s : State) (pa n : Nat) : List Nat :=
  s.bad.filter fun u => !(decide (s.redirect pa ≤ u) && decide (u + unitSize u ≤ s.redirect pa + n))

/-- The L2 lines after a write of `n` bytes at a place: one that the write meets is dirty, and a unit that it covers whole is renewed. -/
def State.l2After (s : State) (pa n : Nat) : List L2Line :=
  let q := s.redirect pa
  s.l2.map fun l =>
    if l.line = q / 256 then { l with dirty := true, bad := l.bad &&& ~~~(unitMask (q % 256) n true) } else l

/-- The bursts of an L2 line with an uncorrectable unit. -/
def L2Line.badBursts (l : L2Line) : List Nat :=
  (List.range 8).filterMap fun i => if l.bad.extractLsb' (4 * i) 4 = 0#4 then none else some (256 * l.line + 32 * i)

/-- An L2 line leaves its slice: where it is dirty its bytes are written to HBM, which renews its bursts but for those with an
uncorrectable unit (14_near_far_memory.md R410; log 56). -/
def State.dropL2 (s : State) (line : Nat) : State :=
  match s.l2Line? line with
  | none => s
  | some l =>
    { s with
      l2 := s.l2.filter fun m => m.line ≠ line
      bad := if l.dirty then l.badBursts ++ s.bad.filter fun u => u / 256 ≠ line else s.bad }

/-- An L2 line left clean, its bytes written to HBM; one with an uncorrectable unit leaves its slice (log 56). -/
def State.cleanL2 (s : State) (line : Nat) : State :=
  match s.l2Line? line with
  | none => s
  | some l =>
    if !l.dirty then s
    else if l.bad ≠ 0#32 then s.dropL2 line
    else
      { s with
        l2 := s.l2.map fun m => if m.line = line then { m with dirty := false } else m
        bad := s.bad.filter fun u => u / 256 ≠ line }

/-- The lines that the L2 of one die holds (00_scope.md Table 0.1: 128 MiB of 256-byte lines). -/
def l2Lines : Nat := 524288

/-- The die whose L2 holds a place of HBM: the die of its stack (14_near_far_memory.md R400; log 56). -/
def State.l2Die (s : State) (line : Nat) : Nat := (stackLine s.stripe (256 * line)).1 / 3

/-- Room for one more line in a die's L2: a full one gives up its oldest line. -/
def State.makeL2 (s : State) (line : Nat) : State :=
  let mine := s.l2.filter fun l => s.l2Die l.line = s.l2Die line
  if mine.length < l2Lines then s
  else match mine.getLast? with
    | none => s
    | some l => s.dropL2 l.line

/-- An access of a WB or L2 page at the L2 home slice: the line is allocated, unless a burst of it is uncorrectable, and host memory and
the scratchpads are never in L2 (13_address_space.md R378, 14_near_far_memory.md R410). -/
def State.touchL2 (s : State) (pa : Nat) : State :=
  let q := s.redirect pa
  if hbmSize ≤ q ∨ (s.l2Line? (q / 256)).isSome ∨ (s.bad ++ s.failing).any (fun u => u / 256 == q / 256) then s
  else
    let s1 := s.makeL2 (q / 256)
    { s1 with l2 := ⟨q / 256, false, 0#32⟩ :: s1.l2 }

/-- What a page's policy asks of L2 at an access: a UC access reaches HBM and leaves no line there (09_visibility.md R281, R290). -/
def State.byPolicy (s : State) (pa : Nat) (policy : BitVec 2) : State :=
  if policy = 2#2 then s.dropL2 (s.redirect pa / 256) else s.touchL2 pa

/-! ## Writing physical memory -/

/-- `n` bytes of a number stored; a store to a hardware resource cell changes nothing (08_tokens.md R234). -/
def State.physWrite (s : State) (pa n v : Nat) : State :=
  match resourceByte pa with
  | some _ => s
  | none => { s with mem := memWrite s.mem (s.redirect pa) n v, bad := s.badAfter pa n, l2 := s.l2After pa n }

/-- A number of bytes from consecutive doublewords, for blocks that do not cross a redirected line. -/
def State.physReadDws (s : State) (pa : Nat) : Nat → List Word
  | 0 => []
  | n + 1 => BitVec.ofNat 64 (s.physRead pa 8) :: s.physReadDws (pa + 8) n

/-- Consecutive doublewords stored. -/
def State.physWriteDws (s : State) (pa : Nat) : List Word → State
  | [] => s
  | w :: r => (s.physWrite pa 8 w.toNat).physWriteDws (pa + 8) r

/-- The pieces of a range that a swap pair's lines cut it into: each stays inside one 256-byte line. -/
def lineCuts (pa : Nat) : Nat → Nat → List (Nat × Nat)
  | 0, _ => []
  | k + 1, n =>
    if n = 0 then []
    else
      let m := min n (256 - pa % 256)
      (pa, m) :: lineCuts (pa + m) k (n - m)

/-- Zeros stored over places that hold no resource cell, whose uncorrectable units they renew. -/
def State.placeZero (s : State) (q n : Nat) : State :=
  { s with
    mem := memClear s.mem q (q + n)
    bad := s.bad.filter fun u => !(decide (q ≤ u) && decide (u < q + n))
    l2 := s.l2.map fun l =>
      if 256 * l.line < q + n ∧ q < 256 * l.line + 256 then
        { l with dirty := true, bad := if q ≤ 256 * l.line ∧ 256 * l.line + 256 ≤ q + n then 0#32 else l.bad } else l }

/-- Zeros stored over a range of physical addresses, line by line where a swap pair is active (14_near_far_memory.md R413). -/
def State.physZero (s : State) (pa n : Nat) : State :=
  if s.swaps.isEmpty then s.placeZero pa n
  else (lineCuts pa (n / 256 + 2) n).foldl (fun acc c => acc.placeZero (acc.redirect c.1) c.2) s

/-- Bytes read at their places one by one, where a range may pass a line (14_near_far_memory.md R413). -/
def State.physReadBytes (s : State) (pa : Nat) : Nat → Nat
  | 0 => 0
  | n + 1 => s.physRead pa 1 + 256 * s.physReadBytes (pa + 1) n

/-- Bytes stored at their places one by one. -/
def State.physWriteBytes (s : State) (pa : Nat) : Nat → Nat → State
  | 0, _ => s
  | n + 1, v => (s.physWrite pa 1 (v % 256)).physWriteBytes (pa + 1) n (v / 256)

end Sys2Proof.Machine
end

