-- ==== Sys2Proof/Machine/Cells.lean ====
section
/-!
DEFINITION. Token cells (08_tokens.md R229 to R236): layouts, staleness, the await conditions, and what one operation
does to a cell.
-/

namespace Sys2Proof.Machine

/-! ## Cells (R232, R233) -/

/-- A token cell's doublewords. -/
structure TokenCell where
  lower : Word
  upper : Word
  deriving DecidableEq, Repr

/-- The generation of a cell. -/
def TokenCell.gen (c : TokenCell) : BitVec 26 := c.upper.extractLsb' 38 26
/-- The kind of a cell. -/
def TokenCell.kind (c : TokenCell) : BitVec 2 := c.upper.extractLsb' 36 2
/-- The phase of a cell; bit 0 is full in a future. -/
def TokenCell.phase (c : TokenCell) : BitVec 4 := c.upper.extractLsb' 32 4
/-- The first error since tkinit. -/
def TokenCell.err (c : TokenCell) : BitVec 8 := c.upper.extractLsb' 24 8
/-- Waiter present. -/
def TokenCell.wp (c : TokenCell) : Bool := c.upper.getLsbD 23
/-- The deferred-spawn slot. -/
def TokenCell.dslot (c : TokenCell) : BitVec 8 := c.upper.extractLsb' 15 8
/-- The deferred-spawn slot is valid. -/
def TokenCell.dval (c : TokenCell) : Bool := c.upper.getLsbD 14
/-- The widest release scope of the last completed phase. -/
def TokenCell.cscope (c : TokenCell) : BitVec 3 := c.upper.extractLsb' 3 3
/-- The widest release scope. -/
def TokenCell.rscope (c : TokenCell) : BitVec 3 := c.upper.extractLsb' 0 3
/-- A count cell's count. -/
def TokenCell.count (c : TokenCell) : Nat := bits c.lower 31 0
/-- A count cell's threshold. -/
def TokenCell.threshold (c : TokenCell) : Nat := bits c.lower 63 32
/-- A barrier's pending arrivals. -/
def TokenCell.pa (c : TokenCell) : Nat := bits c.lower 19 0
/-- A barrier's arrivals a phase. -/
def TokenCell.reload (c : TokenCell) : Nat := bits c.lower 39 20
/-- A barrier's pending sectors, signed. -/
def TokenCell.ps (c : TokenCell) : Int := (c.lower.extractLsb' 40 24).toInt
/-- A mailbox's head. -/
def TokenCell.head (c : TokenCell) : BitVec 16 := c.lower.extractLsb' 0 16
/-- A mailbox's tail. -/
def TokenCell.tail (c : TokenCell) : BitVec 16 := c.lower.extractLsb' 16 16
/-- A mailbox's posted buffers not yet reserved. -/
def TokenCell.posted (c : TokenCell) : BitVec 16 := c.lower.extractLsb' 32 16
/-- log2 of a mailbox's ring size. -/
def TokenCell.lsize (c : TokenCell) : Nat := bits c.lower 51 48
/-- A mailbox's ring base in 4 KiB units. -/
def TokenCell.base (c : TokenCell) : Nat := bits c.lower 59 52
/-- A mailbox notifies its count cell. -/
def TokenCell.notify (c : TokenCell) : Bool := c.upper.getLsbD 0

/-- Bits `hi` to `lo` of a word replaced. -/
def setBits (w : Word) (hi lo v : Nat) : Word :=
  let m : Word := BitVec.ofNat 64 ((2 ^ (hi - lo + 1) - 1) * 2 ^ lo)
  (w &&& ~~~m) ||| (BitVec.ofNat 64 (v % 2 ^ (hi - lo + 1) * 2 ^ lo))

/-- Err(e): the first error stays (R236). -/
def TokenCell.addErr (c : TokenCell) (e : Nat) : TokenCell :=
  if c.err = 0#8 then { c with upper := setBits c.upper 31 24 e } else c

/-- rscope raised to a release scope (R235, R240). -/
def TokenCell.mergeScope (c : TokenCell) (sc : BitVec 3) : TokenCell :=
  { c with upper := setBits c.upper 2 0 (max c.rscope.toNat sc.toNat) }

/-- The pending arrivals set. -/
def TokenCell.setPa (c : TokenCell) (n : Nat) : TokenCell := { c with lower := setBits c.lower 19 0 n }
/-- The pending sectors set, clamped with RANGE where that changes the sum (R235). -/
def TokenCell.setPs (c : TokenCell) (t : Int) : TokenCell :=
  let p := max (-8388608) (min t 8388607)
  let c' := { c with lower := setBits c.lower 63 40 (p % 16777216).toNat }
  if p = t then c' else c'.addErr 3
/-- The count set, saturating with RANGE (R256). -/
def TokenCell.setCount (c : TokenCell) (n : Nat) : TokenCell :=
  let c' := { c with lower := setBits c.lower 31 0 (min n 4294967295) }
  if n ≤ 4294967295 then c' else c'.addErr 3

/-- The completion check of a barrier (R235). -/
def TokenCell.complete (c : TokenCell) : TokenCell :=
  if c.pa = 0 ∧ c.ps ≤ 0 then
    let c1 := if c.ps < 0 then c.addErr 2 else c
    let lower := setBits (setBits c1.lower 19 0 c.reload) 63 40 0
    let upper := setBits c1.upper 35 32 (c.phase.toNat + 1)
    ⟨lower, setBits (setBits upper 5 3 c.rscope.toNat) 2 0 0⟩
  else c

/-- arrive n (R235). -/
def TokenCell.arrive (c : TokenCell) (n : Nat) : TokenCell :=
  if c.pa < n then (c.setPa 0).addErr 1 else c.setPa (c.pa - n)

/-- expect n (R235); an amount of 2^23 or more either way sets RANGE, whether or not the sum is clamped (R256; log 63). -/
def TokenCell.expect (c : TokenCell) (n : Int) : TokenCell :=
  let c1 := c.setPs (c.ps + n)
  if 8388608 ≤ n.natAbs then c1.addErr 3 else c1

/-- What one operation does to a cell that is not stale: the new cell and the outcome code of Table 8.6, 0 for success (R235, R256,
R258, R251, R288). `release` merges the scope. -/
def TokenCell.apply (c : TokenCell) (code : Nat) (operand : Word) (scope : BitVec 3) : TokenCell × Nat :=
  match c.kind.toNat, code with
  | 0, 1 => (((c.mergeScope scope).arrive operand.toNat).complete, 0)
  | 0, 2 => ((c.expect operand.toInt).complete, 0)
  | 0, 3 => (((c.mergeScope scope).arrive operand.toNat).complete, 0)
  | 0, 4 => (((c.mergeScope scope).setPs (c.ps - 1)).complete, 0)
  | 0, 7 => (((c.mergeScope scope).arrive operand.toNat).complete, 0)
  | 0, 9 => (((c.mergeScope scope).arrive operand.toNat).complete, 0)
  | 1, 3 => ((c.mergeScope scope).setCount (c.count + operand.toNat), 0)
  | 1, 7 => ((c.mergeScope scope).setCount (c.count + operand.toNat), 0)
  | 1, 8 => (c.setCount (c.count + operand.toNat), 0)
  | 1, 9 => ((c.mergeScope scope).setCount (c.count + operand.toNat), 0)
  | 2, 5 =>
    if c.phase.getLsbD 0 then (c.addErr 4, 0x21)
    else (⟨operand, setBits (setBits c.upper 32 32 1) 2 0 scope.toNat⟩, 0)
  | _, _ => (c, 0x20)

/-! ## Cells in the state -/

/-- The scratchpad address of a cell. -/
def cellAddr (core : BitVec 10) (index : BitVec 16) : Nat := scratchAddr core (16 * index.toNat)

/-- The cell a handle names on this device. -/
def State.cellOf (s : State) (core : BitVec 10) (index : BitVec 16) : TokenCell :=
  let v := s.physRead (cellAddr core index) 16
  ⟨BitVec.ofNat 64 v, BitVec.ofNat 64 (v / 2 ^ 64)⟩

/-- A cell written. -/
def State.putCell (s : State) (core : BitVec 10) (index : BitVec 16) (c : TokenCell) : State :=
  s.physWrite (cellAddr core index) 16 (c.lower.toNat + 2 ^ 64 * c.upper.toNat)

/-- Whether the crew exists and is bound to the core (R246). -/
def State.boundTo (s : State) (core : BitVec 10) (crew : BitVec 7) : Bool := (s.coreAt core).bound == crew

/-- Whether a core's movement is off: it refuses token operations and accesses to its scratchpads
(17_host_security_power.md Table 17.5). -/
def State.poweredOff (s : State) (core : BitVec 10) : Bool := (s.movAt (movOf core)).power == .m3

/-- Whether a handle to a cell of this device is stale for an operation of `crew` that needs the cell at once (R230). -/
def State.stale (s : State) (crew : BitVec 7) (h : Word) : Bool :=
  let i := (hIndex h).toNat
  let c := s.cellOf (hCore h) (hIndex h)
  decide (4096 ≤ i) || (decide (7 ≤ i) && decide (i < 16)) || s.poweredOff (hCore h) || c.gen != hGen h || c.kind != hKind h ||
    (decide (16 ≤ i) && hGen h == 0#26) ||
    (crew != 0#7 && decide (256 ≤ i) && !s.boundTo (hCore h) crew) ||
    (crew != 0#7 && decide (16 ≤ i) && decide (i < 256))

/-- Whether a request of a user crew is held at its home until replay ends (R246, R249). -/
def State.heldByReplay (s : State) (crew : BitVec 7) (h : Word) : Bool :=
  crew != 0#7 && (s.coreAt (hCore h)).replay && s.boundTo (hCore h) crew && decide (256 ≤ (hIndex h).toNat)

/-- The first slot word of a mailbox's ring position (R250). -/
def slotAddr (core : BitVec 10) (c : TokenCell) (pos : Nat) : Nat :=
  scratchAddr core (c.base * 4096 + 16 * (pos % 2 ^ c.lsize))

/-- The expected phase that a sender waiting for a buffer saves (R251). -/
def bufferPhase : Word := 0x8000000000000000#64

/-- The expected phase that a condition reads: it is for barriers alone (07_coroutines.md R222, 08_tokens.md R257). -/
def phaseFor (h phase : Word) : Word := if hKind h = 0#2 then phase else 0#64

/-- The condition of Table 7.2 on a cell that is not stale (07_coroutines.md R186, R251). -/
def State.cellCondition (s : State) (h phase : Word) : Bool :=
  let c := s.cellOf (hCore h) (hIndex h)
  match c.kind.toNat with
  | 0 => c.phase != phase.extractLsb' 0 4
  | 1 => decide (c.threshold ≤ c.count)
  | 2 => c.phase.getLsbD 0
  | _ =>
    if phase = bufferPhase then c.posted != 0#16
    else c.head != c.tail && (BitVec.ofNat 64 (s.physRead (slotAddr (hCore h) c c.head.toNat + 8) 8)).getLsbD 63

/-- The condition of a wait of `crew` on a cell of this device: always true on a stale handle, and not yet while replay holds
the request (07_coroutines.md Table 7.2, R246). -/
def State.condition (s : State) (crew : BitVec 7) (h phase : Word) : Bool :=
  if s.heldByReplay crew h then false else s.stale crew h || s.cellCondition h phase

/-- The condition on a fault token: full, or no longer the cell's generation (13_address_space.md R384, R385). -/
def State.faultCondition (s : State) (h : Word) : Bool :=
  let c := s.cellOf (hCore h) (hIndex h)
  c.gen != hGen h || c.phase.getLsbD 0

/-! ## Scopes (01_machine.md Table 1.3, 08_tokens.md R240) -/

/-- The smallest scope that contains two cores of one device. -/
def reachOf (a b : BitVec 10) : BitVec 3 :=
  if a = b then 0#3 else if movOf a = movOf b then 1#3 else if dieOf a = dieOf b then 2#3 else 3#3

/-- The smallest scope that contains a core of this device and a handle's home. -/
def State.reach (s : State) (core : BitVec 10) (h : Word) : BitVec 3 :=
  if hDev h = s.devNo then reachOf core (hCore h) else 4#3

/-- The larger of two scopes. -/
def maxScope (a b : BitVec 3) : BitVec 3 := if a < b then b else a

/-- The scope at which a wait, read or poll of a cell acquires (R241). For a mailbox it is that of the slot at its head, as R241 gives it for
recv; of an await, tkpoll or tkread of a mailbox the spec names none (log 73). -/
def State.acquireScope (s : State) (core : BitVec 10) (h : Word) : BitVec 3 :=
  let c := s.cellOf (hCore h) (hIndex h)
  match c.kind.toNat with
  | 0 => maxScope (s.reach core h) c.cscope
  | 3 => maxScope (s.reach core h)
      ((BitVec.ofNat 64 (s.physRead (slotAddr (hCore h) c c.head.toNat + 8) 8)).extractLsb' 60 3)
  | _ => maxScope (s.reach core h) c.rscope

end Sys2Proof.Machine
end

