-- ==== Sys2Proof/Machine/Ops.lean ====
section
/-!
DEFINITION. Switches, traps and records (07_coroutines.md R185 to R211): what a forced and a voluntary switch save, taking a trap,
closing a record, waiting, and readiness.
-/

namespace Sys2Proof.Machine

/-! ## What a switch saves -/

/-- The saved set of a context: live-mask layout (R196, Table 7.5). -/
def forcedSet (vdirty : Word) : Word := 0xFFFFFF0000000000#64 ||| (vdirty &&& 0xFFFFFFFFFF#64)

/-- Whether a forced switch of this context leaves out a register that is not zero (R198). -/
def Ctx.loses (c : Ctx) : Bool :=
  (List.range 32).any (fun i => !c.vdirty.getLsbD i && c.v.toList.getD i 0#16384 != 0#16384) ||
  (List.range 8).any (fun i => !c.vdirty.getLsbD (32 + i) && c.m.toList.getD i 0#2048 != 0#2048) ||
  (List.range 4).any (fun i => !c.vdirty.getLsbD (40 + i) && c.sh.toList.getD i 0#1024 != 0#1024)

/-- The registers after a forced switch and a resumption: a vector, mask or shadow register whose vdirty bit is clear is not saved
(R198); where it was not zero its value is open (log 10). -/
def Ctx.forced (c : Ctx) (fresh : Nat) : Ctx :=
  if c.loses then
    { c with
      v := Vector.ofFn fun i => if c.vdirty.getLsbD i.val || c.v[i] == 0#16384 then c.v[i] else Config.lostVector (fresh + i.val)
      m := Vector.ofFn fun i => if c.vdirty.getLsbD (32 + i.val) || c.m[i] == 0#2048 then c.m[i] else Config.lostMask (fresh + i.val)
      sh := Vector.ofFn fun i =>
        if c.vdirty.getLsbD (40 + i.val) || c.sh[i] == 0#1024 then c.sh[i] else Config.lostShadow (fresh + i.val) }
  else c

/-- The registers after a voluntary switch with saved set `live`: every v, m and x8 to x31 register outside it and every shadow
reads zero, and vdirty keeps the saved set's bits (R197). -/
def Ctx.voluntary (c : Ctx) (live : Word) : Ctx :=
  { c with
    x := Vector.ofFn fun i => if i.val < 8 || live.getLsbD (32 + i.val) then c.x[i] else 0#64
    v := Vector.ofFn fun i => if live.getLsbD i.val then c.v[i] else 0#16384
    m := Vector.ofFn fun i => if live.getLsbD (32 + i.val) then c.m[i] else 0#2048
    sh := Vector.replicate 4 0#1024
    vdirty := c.vdirty &&& live &&& 0xFFFFFFFFFF#64 }

/-- The completion mask register that a copy command names: bits [55] and [54:52] of its control word (10_scratchpad_copy.md
Table 10.7); a stream, a remote store and a send name none. -/
def CopyCmd.mask? (c : CopyCmd) : Option (BitVec 3) :=
  match c.kind with
  | .stream => none
  | .remote => none
  | .send => none
  | .tile => if c.control.getLsbD 55 then some (c.control.extractLsb' 52 3) else none
  | .gather => if c.control.getLsbD 55 then some (c.control.extractLsb' 52 3) else none
  | .grid => if c.control.getLsbD 55 then some (c.control.extractLsb' 52 3) else none
  | .kvs => if c.control.getLsbD 55 then some (c.control.extractLsb' 52 3) else none

/-- The masks that outstanding copy commands of the coroutine in slot `n` complete into, in live-mask layout (R197). -/
def Core.completionMasks (k : Core) (n : BitVec 8) : Word :=
  k.copies.foldl (fun acc c =>
    match c.mask? with
    | some m => if c.slot = n ∧ c.issuer = .present then acc ||| (1#64 <<< (32 + m.toNat)) else acc
    | none => acc) 0#64

/-! ## Leaving the core -/

/-- The running coroutine's context saved into its slot, epc holding the resume point, and the core left without one (R196). -/
def Core.leave (k : Core) (ctx : Ctx) (kind : FrameKind) (saved : Word) (f : Slot → Slot) : Core :=
  match k.run with
  | none => k
  | some n =>
    { k.updSlot n (fun t => f { t with ctx := { ctx with epc := ctx.pc }, kind := kind, saved := saved, spilled := false }) with run := none, passed := none }

/-- The uncommitted instructions of both queues put into a vector queue frame (R198, R199). -/
def Ctx.framed (c : Ctx) : Ctx :=
  { c with vq := c.vq.map fun e => { e with framed := true }, mq := c.mq.map fun e => { e with framed := true } }

/-- A forced switch of the running coroutine of a core (R198); `f` sets what becomes of its slot. -/
def Core.forceOut (k : Core) (fresh : Nat) (f : Slot → Slot) : Core :=
  k.leave (k.ctx.forced fresh).framed .forced (forcedSet k.ctx.vdirty) f

/-- A voluntary switch of the running coroutine with a live mask (R197). A live set beyond the claim takes its units by spills (R191, R194; log
55). -/
def Core.volunteer (k : Core) (live : Word) (f : Slot → Slot) : Core :=
  let saved := live ||| k.completionMasks (k.run.getD 0#8)
  (k.leave (k.ctx.voluntary saved) .voluntary saved f).fit 256

/-- Slot `n` enters ready with the next sequence number (R187). -/
def Core.stamp (k : Core) (n : BitVec 8) : Core :=
  { k.updSlot n (fun t => { t with state := .ready, seq := k.seqCount, recent := k.recentCount }) with
    seqCount := k.seqCount + 1#64, recentCount := k.recentCount + 1#64 }

/-- The cause register of a stop: code, vec and st (R208). -/
def causeWord (code : BitVec 8) (vec st : Bool) : Word :=
  code.zeroExtend 64 ||| (if vec then 0x100#64 else 0#64) ||| (if st then 0x200#64 else 0#64)

/-- Whether a stop saves a vector queue frame (R198). -/
def Ctx.hasFrame (c : Ctx) : Bool := !c.vq.isEmpty || !c.mq.isEmpty

/-- The stop's values in cause, eaddr and epc, and the resume point (R206, R208). -/
def Ctx.stopped (c : Ctx) (code : BitVec 8) (eaddr : Word) (st : Bool) (epc : Offset) : Ctx :=
  { c with cause := causeWord code c.hasFrame st, eaddr := eaddr, epc := epc, pc := epc }

/-- A trap of the running coroutine of core `k` (R206): it stops under R198, its cause, eaddr and epc take the trap's values, its
slot enters held, and, where `record` says so, a record naming it joins the core's queue; a crew 0 coroutine that holds an open
record halts the core (R211). -/
def Core.trapOut (k : Core) (fresh : Nat) (code : BitVec 8) (eaddr : Word) (st : Bool) (epc : Offset) (record : Bool) : Core :=
  match k.run with
  | none => k
  | some n =>
    let k1 := { k with ctx := k.ctx.stopped code eaddr st epc }
    let k2 := k1.forceOut fresh fun t => { t with state := .held, records := t.records + 1 }
    { k2 with
      records := if record then
          k2.records ++ [⟨code, st, k.ctx.hasFrame, coidOf k.id n, eaddr, epc, none, false, k.id⟩]
        else k2.records
      halted := k2.halted || (supSlot n && k.ctx.record.isSome) }

/-- An error record for ERROR_QUERY (17_host_security_power.md Table 17.3). -/
def State.logError (s : State) (kind value : Nat) : State :=
  { s with kerlo := { s.kerlo with errors := s.kerlo.errors ++ [BitVec.ofNat 64 (kind * 2 ^ 56 + value)] } }

/-- TAKING AN EXCEPTION: the trap of the running coroutine (00_scope.md Table 0.4 Trap, 07_coroutines.md R206, R211). -/
def State.trap (s : State) (code : BitVec 8) (eaddr : Word) (st : Bool) (epc : Offset) : State :=
  let s1 := { s with me := s.me.trapOut s.fresh code eaddr st epc true, fresh := s.fresh + 44 }
  if s1.me.halted ∧ ¬s.me.halted then s1.logError 1 s.me.id.toNat else s1

/-- A trap at the instruction that executes, whose resume point is its own offset (R204, R39). -/
def State.trapHere (s : State) (code : BitVec 8) (eaddr : Word) (st : Bool) : State := s.trap code eaddr st s.pc

/-- Trap(ILLEGAL) (Table 7.9). -/
def State.illegal (s : State) : State := s.trapHere 0x01#8 0#64 false
/-- Trap(PRIVILEGE) (Table 7.9). -/
def State.privilege (s : State) : State := s.trapHere 0x02#8 0#64 false
/-- Trap(VECTOR_OFF) (Table 7.9). -/
def State.vectorOff (s : State) : State := s.trapHere 0x04#8 0#64 false
/-- Trap(TOKEN_STALE) with the handle in eaddr (Table 7.9). -/
def State.tokenStale (s : State) (h : Word) : State := s.trapHere 0x09#8 h false

/-- Whether a queued vector instruction's access is a store (cause.st, 10_scratchpad_copy.md R302). -/
def VOp.isStore : VOp → Bool
  | .store _ _ _ => true
  | .atomicAdd _ => true
  | _ => false

/-- Whether a queued vector instruction accesses memory. -/
def VOp.isMemory : VOp → Bool
  | .load _ _ => true
  | .chase _ _ => true
  | .loadSeg _ _ => true
  | op => op.isStore

/-- Whether a queued matrix instruction is an msave, whose writes are stores of its coroutine (12_matrix.md R370). -/
def MOp.isSave : MOp → Bool
  | .save _ _ => true
  | _ => false

/-- The place in program order of the last queued vector access or msave; 0 where there is none (09_visibility.md R270, 12_matrix.md R370). -/
def Ctx.lastAccess (c : Ctx) : Nat :=
  ((c.vq.filter fun e => e.op.isMemory).map (·.ord) ++ (c.mq.filter fun e => e.op.isSave).map (·.ord)).foldl max 0

/-- vdirty's bits of registers that an instruction is to write, set at issue; a vrel still queued keeps them for its commit (05_lanes.md R134,
R153). -/
def Ctx.mark (c : Ctx) (dirty : Word) : Ctx :=
  { c with vdirty := c.vdirty ||| dirty, vq := c.vq.map fun e => if e.op = .release then { e with dirty := e.dirty ||| dirty } else e }

/-- A write of vdirty at level S, which a vrel still queued does not undo (05_lanes.md R134). -/
def Ctx.setDirty (c : Ctx) (w : Word) : Ctx :=
  { c with vdirty := w, vq := c.vq.map fun e => if e.op = .release then { e with dirty := w } else e }

/-! ## Waiting and readiness -/

/-- Whether a core's escapement sees a cell's state directly: a cell of its own (R186, 08_tokens.md R243). -/
def State.sees (s : State) (k : Core) (h : Word) : Bool := hDev h == s.devNo && hCore h == k.id

/-- Whether a wait of slot `t` of core `k` is satisfied, as its escapement knows it: its own cells and fault tokens directly, a cell of
another core or device by its wake (R186, 08_tokens.md R243). -/
def State.slotReady (s : State) (k : Core) (t : Slot) : Bool :=
  match t.waitFor with
  | .nothing => true
  | .fault => s.faultCondition t.handle
  | .token => if s.sees k t.handle then s.condition (k.crewOf t.num) t.handle t.asks else t.woken
  | .resource => if s.sees k t.handle then s.condition (k.crewOf t.num) t.handle t.asks else t.woken

/-- One slot made ready or waiting by its condition (R186); a slot that leaves ready loses its number (R187). -/
def State.settleSlot (s : State) (k : Core) (t : Slot) : Core :=
  match t.state with
  | .waiting => if s.slotReady k t then k.stamp t.num else k
  | .ready => if s.slotReady k t then k else k.updSlot t.num fun u => { u with state := .waiting }
  | .running => k
  | .held => k

/-- Every slot of a core made ready or waiting by its condition, in slot order (R186). -/
def State.settleCore (s : State) (k : Core) : Core := k.slots.foldl (fun k' t => s.settleSlot k' t) k

/-- The slots of a core that wait on a hardware resource cell made ready or waiting by its count, which changes without an operation on the
cell (R186, R195, 08_tokens.md R229, R234). -/
def State.settleResources (s : State) (k : Core) : Core :=
  (k.slots.filter fun t => (t.waitFor == .token || t.waitFor == .resource) && isResource t.handle).foldl (fun k' t => s.settleSlot k' t) k

/-- The slots of core `c` settled. -/
def State.settle (s : State) (c : BitVec 10) : State := s.setCore (s.settleCore (s.coreAt c))

/-- A slot that its last closed record leaves: waiting or ready by its condition; a faulted crew's slot stays held
(R186, R207, 08_tokens.md R248). -/
def Slot.unhold (t : Slot) : Slot :=
  let n := t.records - 1
  { t with records := n, state := if t.state = .held ∧ n = 0 ∧ !t.crewFault then .waiting else t.state }

/-- A record closed: its epc becomes the resume point of the coroutine it names, which then waits or is ready by its condition
(04_scalar.md R122, 07_coroutines.md R186, R207, R208). A CONTEXT_PRESSURE record, and one whose
coroutine no longer stands held in its slot, close alone. -/
def State.closeRecord (s : State) (r : Record) : State :=
  if r.code = 0x0E#8 ∨ r.detached then s
  else
    let c := coidCore r.rcoid
    let pc := r.epc &&& 0x7FFFE#19
    let s1 := s.updCore c fun k => k.updSlot (coidSlot r.rcoid) fun t =>
      if t.records = 0 then t else { t.unhold with ctx := { t.ctx with epc := pc, pc := pc } }
    s1.settle c

/-- RETURNING FROM AN EXCEPTION: the record that the running coroutine holds open closes, and the coroutine goes on
(04_scalar.md R122). -/
def State.trapReturn (s : State) (r : Record) : State :=
  (s.updCtx fun c => { c with record := none }).closeRecord r

/-- The running coroutine suspends on a token under a forced save, with the instruction to run again (01_machine.md R26,
07_coroutines.md R192). -/
def State.suspend (s : State) (h phase : Word) : State :=
  let k := s.me.forceOut s.fresh fun t =>
    { t with state := .waiting, waitFor := .resource, handle := h, phase := phase, woken := false }
  { s with me := k, fresh := s.fresh + 44 }.settle s.me.id

/-- A CONTEXT_PRESSURE record on core `c` naming the requester, unless one is queued (R207, R209). -/
def State.pressure (s : State) (c : BitVec 10) (who : BitVec 18) : State :=
  s.updCore c fun k =>
    if k.records.any fun r => r.code = 0x0E#8 then k
    else { k with records := k.records ++ [⟨0x0E#8, false, false, who, 0#64, 0#19, none, false, c⟩] }

/-- Room in the context cache for the claim that vdirty would raise (07_coroutines.md R192): made by spills, or the coroutine
suspends on the context token with a CONTEXT_PRESSURE record. -/
def State.claimDirty (s : State) (dirty : Word) : State × Bool :=
  let extra := claimUnits (s.me.ctx.vdirty ||| dirty) - claimUnits s.me.ctx.vdirty
  if extra = 0 then (s, true)
  else
    match Core.makeRoom 0 extra 256 s.me with
    | some k => ({ s with me := k }, true)
    | none => ((s.pressure s.me.id s.coid).suspend (resourceHandle s.devNo s.me.id 1#16) 0#64, false)

/-- A forced switch of core `c` by QUANTUM or PREEMPT without a record: ready at the tail of its class (R203, R205). -/
def State.preemptOut (s : State) (c : BitVec 10) (code : BitVec 8) : State :=
  let k := s.coreAt c
  match k.run with
  | none => s
  | some n =>
    let k1 := { k with ctx := k.ctx.stopped code 0#64 false k.ctx.pc }
    let k2 := (k1.forceOut s.fresh fun t => { t with waitFor := .nothing }).stamp n
    { s with fresh := s.fresh + 44 }.setCore k2

/-- A coroutine held by a record of `code` that is queued on its core: the running one is switched out (R227, R203, R316). -/
def State.holdBy (s : State) (i : BitVec 18) (code : BitVec 8) (eaddr : Word) (st : Bool) (entry : Option (BitVec 3)) : State :=
  let k := s.coreAt (coidCore i)
  let n := coidSlot i
  let s1 : State :=
    if k.run = some n then
      let k1 := { k with ctx := if entry.isNone then k.ctx.stopped code eaddr st k.ctx.pc else k.ctx }
      { s with fresh := s.fresh + 44 }.setCore (k1.forceOut s.fresh fun t => { t with state := .held, waitFor := .nothing, records := t.records + 1 })
    else s.setCore (k.updSlot n fun t => { t with state := .held, records := t.records + 1 })
  let t := (s1.coreAt (coidCore i)).slot? n
  s1.updCore (coidCore i) fun k' =>
    { k' with records := k'.records ++
        [⟨code, st, (t.map fun u => u.ctx.hasFrame).getD false, i, eaddr, (t.map fun u => u.ctx.pc).getD 0#19, entry, t.isNone, coidCore i⟩] }

end Sys2Proof.Machine
end

