-- ==== Sys2Proof/Machine/Tokens.lean ====
section
/-!
DEFINITION. The token units: applying an operation at its home, signal logs, watches and wakes, and the outcomes of posted
operations (08_tokens.md R237 to R249, 13_address_space.md R385).
-/

namespace Sys2Proof.Machine

/-! ## After a cell changes -/

/-- Whether a slot of core `k` waits on the cell and is told of its changes directly: a wait on its own core, or a fault token. -/
def waitsOn (k : Core) (dev core : BitVec 10) (index : BitVec 16) (t : Slot) : Bool :=
  t.waitFor ≠ .nothing && hDev t.handle = dev && hCore t.handle = core && hIndex t.handle = index &&
    (k.id = core || t.waitFor = .fault)

/-- Whether an overflow set of the core is not empty (08_tokens.md R243 step 3). -/
def Core.overflows (k : Core) : Bool := !(k.overflowCores.isEmpty && k.overflowDevs.isEmpty)

/-- wp brought up to date: set while a coroutine waits on the cell or a watch is held for it, and kept while a watch that found the table full
may wait on the cell (08_tokens.md R232, R243). -/
def State.syncWp (s : State) (core : BitVec 10) (index : BitVec 16) : State :=
  if index.toNat < 16 ∨ 4096 ≤ index.toNat then s
  else
    let present := (s.cores.any fun k => k.slots.any fun t => t.state ≠ .running && waitsOn k s.devNo core index t) ||
      ((s.coreAt core).watches.any fun w => hIndex w.handle = index) ||
      ((s.cellOf core index).wp && (s.coreAt core).overflows)
    let c := s.cellOf core index
    if c.wp = present then s else s.putCell core index { c with upper := setBits c.upper 23 23 (if present then 1 else 0) }

/-- The watches on a cell whose condition now holds are answered by wakes and removed (08_tokens.md R243 step 2); the overflow sets
are sent rechecks and emptied (step 4). -/
def State.answerWatches (s : State) (core : BitVec 10) (index : BitVec 16) : State :=
  let k := s.coreAt core
  let due := k.watches.filter fun w => hIndex w.handle = index && s.condition w.crew w.handle w.phase
  let kept := k.watches.filter fun w => !due.contains w
  let local_ := due.filter fun w => w.dev = s.devNo
  let away := due.filter fun w => w.dev ≠ s.devNo
  let rechecks := if k.overflows then [Instr.recheck s.devNo core] else []
  { s.setCore { k with watches := kept, overflowCores := [], overflowDevs := [], overflowCells := [] } with
    inbox := s.inbox ++ local_.map Instr.wake ++ rechecks
    podOut := s.podOut ++ (away.map fun w =>
      ⟨.watch, 0#7, w.dev, w.handle, 0#9, w.phase, 0#64, ⟨0#8, w.handle, w.phase, 0#3, 0#64, false, 0#7, false, s.devNo, core, w.slot⟩, 0#2048⟩)
      ++ k.overflowDevs.map fun d => ⟨.watch, 0#7, d, resourceHandle s.devNo core 0#16, 0#9, 0#64, 0#64,
        ⟨0#8, 0#64, 0#64, 0#3, 0#64, false, 0#7, false, s.devNo, core, 0#8⟩, 0#2048⟩ }

/-- The waiters of a cell brought up to date after an operation on it (07_coroutines.md R186, 08_tokens.md R243). -/
def State.cellChanged (s : State) (core : BitVec 10) (index : BitVec 16) : State :=
  let woken := s.mapCores fun k =>
    k.slots.foldl (fun k' t => if waitsOn k s.devNo core index t then s.settleSlot k' t else k') k
  (woken.answerWatches core index).syncWp core index

/-! ## Crew faults and logs -/

/-- Crew `c`'s row of the crews table. -/
def State.crew? (s : State) (c : BitVec 7) : Option Crew := s.crews.find? fun r => r.num = c

/-- Crew `c`'s row changed. -/
def State.updCrew (s : State) (c : BitVec 7) (f : Crew → Crew) : State :=
  { s with crews := s.crews.map fun r => if r.num = c then f r else r }

/-- A coroutine of a faulted crew enters held without a record (08_tokens.md R248). -/
def Slot.crewHold (t : Slot) : Slot := { t with state := .held, crewFault := true }

/-- Every coroutine of crew `c` held: a running one is switched out by force with cause PREEMPT (08_tokens.md R248). -/
def State.holdCrew (s : State) (c : BitVec 7) : State :=
  { s.mapCores fun k =>
      if k.bound = c then
        let k1 := if k.run.isSome && !supSlot (k.run.getD 0#8) then
            { k with ctx := k.ctx.stopped 0x0D#8 0#64 false k.ctx.pc }.forceOut s.fresh id
          else k
        { k1 with slots := k1.slots.map fun t => if supSlot t.num then t else t.crewHold }
      else k
    with fresh := s.fresh + 44 }

/-- Whether crew `c` has faulted (08_tokens.md R248). -/
def State.crewFaulted (s : State) (c : BitVec 7) : Bool := c != 0#7 && ((s.crew? c).map (·.faulted)).getD false

/-- The fault of a crew whose signal log is full (08_tokens.md R248). -/
def State.faultCrew (s : State) (c : BitVec 7) : State :=
  ((s.updCrew c fun r => { r with faulted := true }).holdCrew c).logError 2 c.toNat

/-- The address of entry `i` of a crew's signal log (08_tokens.md R247). -/
def Crew.entryAddr (r : Crew) (i : Nat) : Nat := r.logBase + 32 * (i % 2 ^ r.logSize.toNat)

/-- The operation field of a log entry: the signal of vfence.arrive is a tksig (08_tokens.md Table 8.7, 09_visibility.md R288). -/
def logCode (code : BitVec 8) : BitVec 8 := if code = 9#8 then 3#8 else code

/-- The doublewords of a log entry (08_tokens.md Table 8.7). -/
def logDws (op : TokenOp) : List Word :=
  [op.handle, 1#1 ++ op.scope ++ op.srcDev ++ op.srcCore ++ 0#32 ++ logCode op.code, op.operand, op.reply]

/-- An operation appended to its target crew's signal log, or the crew's fault when the log is full (08_tokens.md R246 to R248). -/
def State.logOp (s : State) (r : Crew) (op : TokenOp) : State :=
  if r.faulted then s
  else if 2 ^ r.logSize.toNat ≤ r.logTail - r.logHead then s.faultCrew r.num
  else ((s.physWriteDws (r.entryAddr r.logTail) (logDws op)).updCrew r.num fun q => { q with logTail := q.logTail + 1 }).updCore
    (hCore op.handle) fun k => { k with logappend := k.logappend + 1#64 }

/-- Whether an operation targets a crew that has faulted, which drops it (08_tokens.md R248). -/
def State.dropsOp (s : State) (op : TokenOp) : Bool := s.crewFaulted op.crew

/-- Whether a posted operation is logged: its target is a user crew that exists and is not bound to the home core, or the home is
replay-pending for it (08_tokens.md R246). -/
def State.logs (s : State) (op : TokenOp) : Option Crew :=
  if op.crew = 0#7 then none
  else if s.boundTo (hCore op.handle) op.crew && !(s.coreAt (hCore op.handle)).replay then none
  else s.crew? op.crew

/-! ## Applying an operation -/

/-- Fault entries that the fut.set of a token signals (13_address_space.md R385). -/
def State.signalToken (s : State) (h : Word) : State :=
  { s with faults := s.faults.map fun e => if e.token = h then { e with signalled := true } else e }

/-- What an operation does at its home: the new state and the outcome code, 0 for success (08_tokens.md R230, R234, R237). -/
def State.applyAtHome (s : State) (op : TokenOp) : State × Nat :=
  let core := hCore op.handle
  let index := hIndex op.handle
  if isResource op.handle then
    (s, if 7 ≤ index.toNat ∨ s.poweredOff core ∨ hGen op.handle ≠ 0#26 ∨ hKind op.handle ≠ 1#2 then 9
        else if op.code = 3#8 ∨ op.code = 7#8 ∨ op.code = 9#8 then 0 else 0x20)
  else if s.stale (if op.isUser then op.crew else 0#7) op.handle then (s, 9)
  else
    let r := (s.cellOf core index).apply op.code.toNat op.operand op.scope
    let s1 := s.putCell core index r.1
    let s2 := if op.code = 5#8 ∧ r.2 = 0 then s1.signalToken op.handle else s1
    (s2.cellChanged core index, r.2)

/-- Flags merged into the status of a coroutine, wherever its context lies (08_tokens.md R244). -/
def State.mergeStatus (s : State) (core : BitVec 10) (slot : BitVec 8) (f : Word) : State :=
  s.updCore core fun k =>
    if k.run = some slot then { k with ctx := { k.ctx with status := k.ctx.status ||| f } }
    else k.updSlot slot fun t => { t with ctx := { t.ctx with status := t.ctx.status ||| f } }

/-- The smallest scope that contains the homes of two handles (01_machine.md Table 1.3). -/
def reachBetween (a b : Word) : BitVec 3 := if hDev a = hDev b then reachOf (hCore a) (hCore b) else 4#3

/-- The operation that tells a reply future an outcome, at the reach of the home and the reply cell (08_tokens.md R244). -/
def replyOp (s : State) (op : TokenOp) (code : Nat) : TokenOp :=
  { code := 5#8, handle := op.reply, operand := if code = 0 then 0#64 else failWord code,
    scope := reachBetween op.handle op.reply, reply := 0#64, toStatus := false, crew := op.crew, isUser := op.isUser,
    srcDev := s.devNo, srcCore := if hDev op.handle = s.devNo then hCore op.handle else op.srcCore, srcSlot := op.srcSlot }

/-- Whether the route table has a route to a device other than this one (16_pod.md R433, R435). -/
def State.hasRoute (s : State) (d : BitVec 10) : Bool := s.routes.contains d.toNat

/-- winrefuse of a core grows by 1 (16_pod.md R442). -/
def State.countRefusal (s : State) (core : BitVec 10) : State :=
  s.updCore core fun k => { k with winrefuse := k.winrefuse + 1#64 }

/-- The outcome of a posted operation delivered (08_tokens.md R244): to its reply future, whose own outcome is dropped, or to the
issuer's status where the home is on the issuer's device; the outcome of exit's signal is ignored (07_coroutines.md R220). Handle 0
names no future, so an outcome for it is dropped, and so are those of a copy command's operations. A reply to a device without a route is
refused and counted on the core of the coroutine whose operation it answers, where that is a core of this device (16_pod.md R435, R442). -/
def State.postedOutcome (s : State) (op : TokenOp) (code : Nat) : State :=
  if op.code = 7#8 ∨ (!op.toStatus && op.reply == 0#64) then s
  else if op.toStatus then
    if op.srcDev ≠ s.devNo ∨ hDev op.handle ≠ s.devNo then s
    else if code = 9 ∨ code = 0x20 then s.mergeStatus op.srcCore op.srcSlot statusTkst
    else if code = 0x21 then s.mergeStatus op.srcCore op.srcSlot statusFutf
    else s
  else
    let r := replyOp s op code
    if hDev op.reply = s.devNo then
      if s.dropsOp r then s
      else
        match s.logs r with
        | some q => s.logOp q r
        | none => (s.applyAtHome r).1
    else if !s.hasRoute (hDev op.reply) then (if op.srcDev = s.devNo then s.countRefusal op.srcCore else s)
    else { s with podOut := s.podOut ++ [⟨.token, op.crew, hDev op.reply, op.reply, 8#9, r.operand, 0#64, r, 0#2048⟩] }

/-- The log token's signal ends replay (08_tokens.md R249); the replay itself is LOG_REPLAY. -/
def State.endReplay (s : State) (core : BitVec 10) : State :=
  s.updCore core fun k => { k with replayEnd := k.replayEnd || k.replay }

/-- The effects of a signal of crew 0 or the host on a hardware resource cell: tksig, exit's signal and vfence.arrive's on the log token end
replay, on cell 6 of core 0 ring the swap doorbell (08_tokens.md R234, R256, 09_visibility.md R288). -/
def State.resourceSignal (s : State) (op : TokenOp) : State :=
  if !(op.code == 3#8 || op.code == 7#8 || op.code == 9#8) ∨ hGen op.handle ≠ 0#26 ∨ hKind op.handle ≠ 1#2 then s
  else if hIndex op.handle = 3#16 then s.endReplay (hCore op.handle)
  else if hIndex op.handle = 6#16 ∧ hCore op.handle = 0#10 then { s with swapRung := s.swapRung + 1 }
  else s

/-- A posted operation at its home on this device: dropped where its crew has faulted, logged, or applied with its outcome delivered
(08_tokens.md R237, R244, R246, R248). -/
def State.deliverOp (s : State) (op : TokenOp) : State :=
  if s.dropsOp op then s
  else
    match s.logs op with
    | some r => s.logOp r op
    | none =>
      let r := s.applyAtHome op
      let s1 := if isResource op.handle ∧ r.2 = 0 then r.1.resourceSignal op else r.1
      s1.postedOutcome op r.2

/-! ## Issuing an operation -/

/-- Whether a handle's kind field fits an operation's form (R244, R254, Table 8.11). -/
def kindFits (code : BitVec 8) (h : Word) : Bool :=
  match code.toNat, (hKind h).toNat with
  | 1, 0 => true
  | 2, 0 => true
  | 3, 0 => true
  | 3, 1 => true
  | 5, 2 => true
  | 7, 0 => true
  | 7, 1 => true
  | 9, 0 => true
  | 9, 1 => true
  | _, _ => false

/-- An operation of the running coroutine as its form makes it, with reply field `d` (R240, R244, R246). -/
def State.opOf (s : State) (code : BitVec 8) (h operand : Word) (scope : BitVec 3) (reply : Word) (toStatus : Bool) : TokenOp :=
  { code := code, handle := h, operand := operand, scope := scope, reply := reply, toStatus := toStatus, crew := s.crew,
    isUser := !s.sup, srcDev := s.devNo, srcCore := s.me.id, srcSlot := s.slotNum }

/-- Whether the outgoing queue of 16 is full, so that a further operation stalls the front end (R240). -/
def State.outqFull (s : State) : Bool := decide (16 ≤ s.me.outq.length)

/-- What an exit leaves of the outgoing operations of its coroutine: they are sent, and their outcomes have no status to go to (R244). -/
def Core.disownOps (k : Core) (n : BitVec 8) : Core :=
  { k with outq := k.outq.map fun o => if o.op.srcSlot = n then { o with op := { o.op with toStatus := false } } else o }

/-- Whether an outcome of an outgoing operation is still to reach a slot's status: its home is on this device (R244, R245). -/
def State.statusPending (s : State) (n : BitVec 8) : Bool := s.me.outq.any fun o => o.op.srcSlot == n && hDev o.op.handle == s.devNo

/-- The wst commands of a slot to a device that have not ended: all of them, or those whose first sector has not passed (16_pod.md R443,
R449). -/
def Core.remoteSeqs (k : Core) (n : BitVec 8) (dev : BitVec 10) (whole : Bool) : List (BitVec 29) :=
  (k.copies.filter fun c => c.kind == .remote && c.slot == n && c.issuer == .present && hDev (c.desc.getD 0 0) == dev &&
    (whole || c.done == 0)).map (·.seq)

/-- An operation put into the outgoing queue behind what the device's order and its release ask of it (R240, 16_pod.md R443, R451,
09_visibility.md R270). -/
def Core.queueOp (k : Core) (op : TokenOp) (first whole : List (BitVec 29)) (vector : Nat) : Core :=
  { k with outq := k.outq ++ [⟨op, k.outCount, first, whole, vector, 0#64⟩], outCount := k.outCount + 1 }

/-- The queued vector access that an operation waits for: the last one before it, where it is a release; the signal of vfence.arrive has
its own marker (R240, 09_visibility.md R270, R288). -/
def State.releasesAfter (s : State) (op : TokenOp) : Nat :=
  if op.code = 1#8 ∨ op.code = 3#8 ∨ op.code = 5#8 ∨ op.code = 7#8 then s.me.ctx.lastAccess else 0

/-- Whether the vector accesses that an outgoing operation waits for are performed, wherever the context of its coroutine lies on the core
(08_tokens.md R240, 09_visibility.md R270). -/
def Core.accessesDone (k : Core) (o : OutOp) : Bool :=
  let c := if k.run = some o.op.srcSlot then k.ctx else ((k.slot? o.op.srcSlot).map fun t => t.ctx).getD Ctx.reset
  (c.vq.all fun e => !(e.op.isMemory && decide (e.ord ≤ o.vector))) && c.mq.all fun e => !(e.op.isSave && decide (e.ord ≤ o.vector))

/-- An operation sent: at once where nothing is queued before it, no vector access is to be performed before it and its home is on this
device; else through the outgoing queue, in order (R238, R240). -/
def State.sendOp (s : State) (op : TokenOp) : State :=
  if s.me.outq.isEmpty ∧ hDev op.handle = s.devNo ∧ s.releasesAfter op = 0 then s.deliverOp op
  else { s with me := s.me.queueOp op (s.me.remoteSeqs op.srcSlot (hDev op.handle) false) [] (s.releasesAfter op) }

/-- Whether an operation of the running coroutine to a home core of this device is still to be sent: a form that asks that core at once
waits behind it (R238). -/
def State.behindPosted (s : State) (h : Word) : Bool :=
  s.me.outq.any fun o => o.op.srcSlot == s.slotNum && hDev o.op.handle == hDev h && hCore o.op.handle == hCore h

/-- A posted form's operation: one whose kind does not fit sends nothing and has outcome KIND (R254). -/
def State.postOp (s : State) (op : TokenOp) : State :=
  if kindFits op.code op.handle then s.sendOp op else s.postedOutcome op 0x20

/-- The status of a coroutine, wherever its context lies. -/
def State.statusAt (s : State) (core : BitVec 10) (slot : BitVec 8) : Word :=
  if (s.coreAt core).run = some slot then (s.coreAt core).ctx.status
  else (((s.coreAt core).slot? slot).map fun t => t.ctx.status).getD 0#64

/-- A step whose outcomes merge no flag into a coroutine's status that a later write has settled already (04_scalar.md R100, R244). -/
def State.muted (s : State) (core : BitVec 10) (slot : BitVec 8) (mutes : Word) (f : State → State) : State :=
  let s1 := f s
  if mutes = 0#64 then s1
  else
    let raised := s1.statusAt core slot &&& ~~~(s.statusAt core slot) &&& mutes
    s1.updCore core fun k =>
      if k.run = some slot then { k with ctx := { k.ctx with status := k.ctx.status &&& ~~~raised } }
      else k.updSlot slot fun t => { t with ctx := { t.ctx with status := t.ctx.status &&& ~~~raised } }

/-- An operation of the running coroutine posted later than a write of status that has settled these flags (04_scalar.md R100). -/
def State.postMuted (s : State) (mutes : Word) (op : TokenOp) : State :=
  let s1 := s.muted s.me.id s.slotNum mutes fun t => t.postOp op
  { s1 with me := { s1.me with outq := s1.me.outq.map fun o => if s.me.outCount ≤ o.num then { o with mutes := mutes } else o } }

/-! ## Watches (08_tokens.md R243) -/

/-- A watch of a slot refused: it is counted on the slot's core, and the coroutine is told (16_pod.md R435, R439, R442). -/
def State.refuseWatch (s : State) (core : BitVec 10) (n : BitVec 8) : State :=
  ((s.countRefusal core).updCore core fun k => k.updSlot n fun t => { t with woken := true, refused := true }).settle core

/-- The watch of a waiting slot sent to the home of its cell, where that is another core; to another device it is refused without a route, and
may be refused at that device's ingress (16_pod.md R435, R439; log 15). -/
def State.sendWatch (s : State) (core : BitVec 10) (t : Slot) : State :=
  let w : Watch := ⟨t.handle, t.asks, s.devNo, core, t.num, (s.coreAt core).crewOf t.num⟩
  if hDev t.handle = s.devNo then
    if hCore t.handle = core ∨ t.waitFor = .fault then s else { s with inbox := s.inbox ++ [Instr.tokenWatch w] }
  else if !s.hasRoute (hDev t.handle) then s.refuseWatch core t.num
  else
    let s1 := { s with
      podOut := s.podOut ++
        [⟨.watch, (s.coreAt core).crewOf t.num, hDev t.handle, t.handle, 8#9, t.asks, 0#64,
          ⟨0#8, t.handle, t.asks, 0#3, 0#64, false, 0#7, false, s.devNo, core, t.num⟩, 0#2048⟩]
      fresh := s.fresh + 1 }
    if Config.remoteOutcome s.fresh = 1#8 then s1.refuseWatch core t.num else s1

/-- A slot that has begun to wait: its watch is sent, its cell's wp set, and it is ready at once where its condition holds
(07_coroutines.md R186, 08_tokens.md R243). -/
def State.beginWait (s : State) (core : BitVec 10) (n : BitVec 8) : State :=
  match (s.coreAt core).slot? n with
  | none => s
  | some t =>
    if t.waitFor = .nothing then s.settle core
    else
      let s1 := s.sendWatch core t
      let s2 := if hDev t.handle = s.devNo ∧ (hCore t.handle = core ∨ t.waitFor = .fault) then
          s1.syncWp (hCore t.handle) (hIndex t.handle) else s1
      s2.setCore (s2.settleSlot (s2.coreAt core) (((s2.coreAt core).slot? n).getD t))

/-! ## Signals of fault entries (13_address_space.md R385) -/

/-- fut.set of a fault token by the device. -/
def State.setFaultToken (s : State) (h value : Word) : State :=
  (s.applyAtHome ⟨5#8, h, value, 3#3, 0#64, false, 0#7, false, s.devNo, 0#10, 0#8⟩).1

/-- Every unsignalled fault entry that `covers` selects is signalled with a value (R385). -/
def State.signalEntries (s : State) (covers : FaultEntry → Bool) (value : Word) : State :=
  (s.faults.filter fun e => !e.signalled && covers e).foldl (fun acc e => acc.setFaultToken e.token value) s

end Sys2Proof.Machine
end

