-- ==== Sys2Proof/Machine/Paging.lean ====
section
/-!
DEFINITION. Address translation (13_address_space.md R371 to R389): page walks, the movement TLB, permissions, the scratchpad's
checks, watch ranges, and the service of page faults.
-/

namespace Sys2Proof.Machine

/-- The agent of an access: its space, whether it is at level U, its crew and its core. -/
structure Who where
  space : Word
  user : Bool
  crew : BitVec 7
  core : BitVec 10
  deriving DecidableEq, Repr

/-- The agent that the running coroutine is. -/
def State.who (s : State) : Who := ⟨s.spaceOf s.me.id s.slotNum, !s.sup, s.crew, s.me.id⟩

/-- Why an access does not take place. `wait` is no fault: the access waits for the host's translation (R379). -/
inductive MemFault where
  | misaligned
  | protect
  | absent (arena : Option (BitVec 4))
  | far
  | uncorrectable (addr : Word)
  | watch
  | wait
  deriving DecidableEq, Repr

/-- What a translation answers. -/
inductive Translated where
  | ok (pa : Nat) (policy : BitVec 2)
  | fault (f : MemFault)
  deriving DecidableEq, Repr

/-! ## Host addresses (R374) -/

/-- The physical address of a host address: device memory where it lies in the device's BAR2, else the host window (R374,
17_host_security_power.md R452). -/
def State.hostToPhys (s : State) (ha : Nat) : Nat :=
  if s.barBase ≤ ha ∧ ha < s.barBase + s.barSize then
    (if ha - s.barBase < s.romBase then ha - s.barBase else 2 ^ 50)
  else hostBase + ha

/-! ## Page-table entries (Table 13.3) -/

/-- The physical page number of an entry. -/
def ptePpn (e : Word) : Nat := bits e 53 10

/-- An entry with R = 0 and W = 0 that is a well-formed pointer (R376 step 3). -/
def ptePointerOk (e : Word) : Bool :=
  !e.getLsbD 7 && !e.getLsbD 6 && !e.getLsbD 4 && !e.getLsbD 63 && bits e 62 61 == 0 && !e.getLsbD 60

/-- The bytes of a leaf's page (R376). -/
def pageSize (level : Nat) (e : Word) : Nat :=
  match level with
  | 0 => if e.getLsbD 63 then 65536 else 4096
  | 1 => 2097152
  | _ => 1073741824

/-- A leaf that is well formed (R376 step 4). -/
def pteLeafOk (hostMode : Bool) (level : Nat) (e : Word) : Bool :=
  decide (level ≤ 2) && !(e.getLsbD 2 && !e.getLsbD 1) &&
  !(decide (1 ≤ level) && (e.getLsbD 63 || ptePpn e % (pageSize level e / 4096) != 0)) &&
  !(e.getLsbD 63 && ptePpn e % 16 != 8) && bits e 62 61 != 3 && bits e 59 54 == 0 && !(e.getLsbD 60 && hostMode)

/-- What a walk finds; of an entry that is not valid, its level and whether it is all zero. -/
inductive Walk where
  | leaf (addr : Nat) (pte : Word) (level : Nat)
  | absent (level : Nat) (zero : Bool)
  | malformed
  | uncorrectable (addr : Nat)
  deriving DecidableEq, Repr

/-- The part of an address that names a table's entry and those above it: the VPN fields from a level up (R375). -/
def vpnPath (va level : Nat) : Nat := va / 2 ^ (12 + 9 * level)

/-- The pointer entry of an address and level that a die's cache holds (R380). -/
def State.pointer? (s : State) (die : BitVec 2) (asid : BitVec 16) (va level : Nat) : Option PointerEntry :=
  s.pointers.find? fun e => e.die == die && e.asid == asid && e.level == level && e.path == vpnPath va level

/-- The walk from a table down the levels given, for a space and a die whose cache of pointer entries it uses (R375, R376, R380). In mode
0xA a table outside HBM is malformed (R374; log 19). -/
def State.walk (s : State) (die : BitVec 2) (space : Word) (va : Nat) : List Nat → Nat → Walk
  | [], _ => .malformed
  | level :: rest, ppn =>
    match s.pointer? die (space.extractLsb' 44 16) va level with
    | some e => s.walk die space va rest e.ppn
    | none =>
      let hostMode := bits space 63 60 == 0xB
      let a := ppn * 4096 + 8 * ((va >>> (12 + 9 * level)) % 512)
      let pa := if hostMode then s.hostToPhys a else a
      if !hostMode && decide (hbmSize ≤ pa) then .malformed
      else if s.isBad pa 8 then .uncorrectable pa
      else
        let e : Word := BitVec.ofNat 64 (s.physRead pa 8)
        if !e.getLsbD 0 then .absent level (e == 0#64)
        else if !e.getLsbD 1 && !e.getLsbD 2 then
          if ptePointerOk e then s.walk die space va rest (ptePpn e) else .malformed
        else if pteLeafOk hostMode level e then .leaf pa e level
        else .malformed

/-- The pointer entries that a walk meets on its way, from the root (R380). -/
def State.walkPointers (s : State) (die : BitVec 2) (space : Word) (va : Nat) : List Nat → Nat → List PointerEntry
  | [], _ => []
  | level :: rest, ppn =>
    match s.pointer? die (space.extractLsb' 44 16) va level with
    | some e => e :: s.walkPointers die space va rest e.ppn
    | none =>
      let hostMode := bits space 63 60 == 0xB
      let a := ppn * 4096 + 8 * ((va >>> (12 + 9 * level)) % 512)
      let pa := if hostMode then s.hostToPhys a else a
      let e : Word := BitVec.ofNat 64 (s.physRead pa 8)
      if (!hostMode && decide (hbmSize ≤ pa)) || s.isBad pa 8 || !e.getLsbD 0 || e.getLsbD 1 || e.getLsbD 2 || !ptePointerOk e then []
      else
        ⟨die, space.extractLsb' 44 16, level, vpnPath va level, ptePpn e⟩ :: s.walkPointers die space va rest (ptePpn e)

/-- The pointer entries that a walk met kept by its die's cache, which holds 512 (R380; log 20). -/
def State.keepPointers (s : State) (die : BitVec 2) (new : List PointerEntry) : State :=
  let others := s.pointers.filter fun e => e.die ≠ die
  let mine := s.pointers.filter fun e => e.die == die && !new.contains e
  { s with pointers := (new ++ mine).take 512 ++ others }

/-! ## Arenas (R387) -/

/-- An arena descriptor's doublewords at its home. -/
def State.arenaDws (s : State) (r : Crew) (i : Nat) : List Word := s.physReadDws (r.arenaTable + 64 * i) 5

/-- Whether a descriptor is valid by itself: its base and length are multiples of 2 MiB, its length from 2 MiB to 2^47 (R387, Table 13.6). One
whose pbmt is 3, which the table does not give, is ignored for every page (log 78). -/
def arenaShape (dws : List Word) : Bool :=
  (dws.getD 2 0).getLsbD 63 && (dws.getD 0 0).toNat % 2097152 == 0 && (dws.getD 1 0).toNat % 2097152 == 0 &&
    decide (2097152 ≤ (dws.getD 1 0).toNat) && decide ((dws.getD 1 0).toNat ≤ 2 ^ 47) && bits (dws.getD 2 0) 62 61 != 3

/-- Whether two descriptors overlap. -/
def arenaOverlap (a b : List Word) : Bool :=
  decide ((a.getD 0 0).toNat < (b.getD 0 0).toNat + (b.getD 1 0).toNat) &&
    decide ((b.getD 0 0).toNat < (a.getD 0 0).toNat + (a.getD 1 0).toNat)

/-- The valid arena of a crew that holds an address: its index and descriptor (R387). -/
def State.arenaAt (s : State) (r : Crew) (va : Nat) : Option (Nat × List Word) :=
  let all := (List.range 16).map fun i => (i, s.arenaDws r i)
  let ok := all.filter fun p => arenaShape p.2
  (ok.filter fun p => ok.all fun q => q.1 == p.1 || !arenaOverlap p.2 q.2).find? fun p =>
    decide ((p.2.getD 0 0).toNat ≤ va) && decide (va < (p.2.getD 0 0).toNat + (p.2.getD 1 0).toNat)

/-! ## Checks -/

/-- Whether an address is canonical (R372). -/
def canonical (va : Word) : Bool := bits va 63 56 == 0 || bits va 63 56 == 255

/-- Whether the physical address admits the access: not reserved, below the range that the Kerlo ROM holds, which no space maps, and passed
by the scratchpad's check (R371, R376 step 6, 08_tokens.md R229, 10_scratchpad_copy.md R298; log 58); a movement in M3 refuses accesses to
its arrays (17_host_security_power.md Table 17.5, R466). -/
def State.regionOk (s : State) (w : Who) (pa : Nat) : Bool :=
  match regionOf pa with
  | .hbm => decide (pa < s.romBase)
  | .istore m _ => (s.movAt m).power != .m3
  | .host _ => true
  | .reserved => false
  | .scratch c o => !s.poweredOff c && (!w.user || (decide (0x10000 ≤ o) && s.boundTo c w.crew))

/-- The policy that applies at a physical address: the scratchpad and instruction stores are uncached (R378). -/
def effectivePolicy (pa : Nat) (policy : BitVec 2) : BitVec 2 :=
  match regionOf pa with
  | .scratch _ _ => 2#2
  | .istore _ _ => 2#2
  | .hbm => policy
  | .host _ => policy
  | .reserved => policy

/-- The physical address that a translation gives a virtual address; a host address is placed byte by byte (R374). -/
def State.entryAddr (s : State) (e : TlbEntry) (va : Word) : Nat :=
  let a := e.phys + (va.toNat - e.base)
  if e.host then s.hostToPhys a else a

/-- Permission and region checks of a translated access (R376 steps 5, 6). -/
def State.permit (s : State) (w : Who) (store : Bool) (e : TlbEntry) (va : Word) : Translated :=
  let pa := s.entryAddr e va
  if !e.read || (store && !e.write) || (w.user && !e.user) then .fault .protect
  else if s.regionOk w pa then .ok pa (effectivePolicy pa e.policy)
  else .fault .protect

/-- The asid of a space. -/
def spaceAsid (space : Word) : BitVec 16 := space.extractLsb' 44 16

/-- Whether a held translation serves an access; a store needs one whose page is dirty already (R377, R380). -/
def TlbEntry.serves (e : TlbEntry) (w : Who) (store : Bool) (va : Word) : Bool :=
  e.asid == spaceAsid w.space && decide (e.base ≤ va.toNat) && decide (va.toNat < e.base + e.size) && (!store || e.dirty)

/-- The TLB entry of the movement that serves an access (R380). -/
def State.tlbFind (s : State) (w : Who) (store : Bool) (va : Word) : Option TlbEntry :=
  (s.movAt (movOf w.core)).tlb.find? fun e => e.serves w store va

/-- An entry added to the movement's TLB, which holds 2,048 (R380; log 20). -/
def State.tlbAdd (s : State) (core : BitVec 10) (e : TlbEntry) : State :=
  s.updMov (movOf core) fun v => { v with tlb := (e :: v.tlb).take 2048 }

/-- A and D set as an access asks, by the walker (R377). -/
def State.markPte (s : State) (addr : Nat) (e : Word) (store : Bool) : State × Word :=
  let e' := e ||| 0x40#64 ||| (if store then 0x80#64 else 0#64)
  (if e' = e then s else s.physWrite addr 8 e'.toNat, e')

/-- A page that the host translates (R379): the host's answer where the device holds one, a far fault with a PRI Page Request where
it denies, else a request and a wait. The address answered is the host's. -/
def State.atsPage (s : State) (w : Who) (store : Bool) (va : Word) : State × Translated :=
  let asid := spaceAsid w.space
  let page := va.toNat / 4096
  match s.ats.find? fun e => e.asid == asid && e.page == page with
  | some e =>
    if e.read && (!store || e.write) then (s, .ok (e.host * 4096) 0#2)
    else ({ s with ats := s.ats.filter fun f => !(f.asid == asid && f.page == page), priOut := s.priOut ++ [(asid, va)] }, .fault .far)
  | none =>
    (if s.atsOut.contains (asid, page) then s else { s with atsOut := s.atsOut ++ [(asid, page)] }, .fault .wait)

/-- The answer to a miss by walking the tables (R375 to R379). -/
def State.translateWalk (s : State) (w : Who) (store : Bool) (va : Word) : State × Translated :=
  let hostMode := bits w.space 63 60 == 0xB
  let v := va.toNat % 2 ^ 57
  let die := dieOf w.core
  let levels := [4, 3, 2, 1, 0]
  let root := bits w.space 43 0
  let s0 := s.keepPointers die (s.walkPointers die w.space v levels root)
  match s.walk die w.space v levels root with
  | .malformed => (s0, .fault .protect)
  | .uncorrectable _ => (s0, .fault (.uncorrectable va))
  | .absent level _ =>
    let arena := if level = 0 then (s.crew? w.crew).bind fun r => (s.arenaAt r va.toNat).map fun p => BitVec.ofNat 4 p.1 else none
    (s0, .fault (.absent arena))
  | .leaf addr e level =>
    let size := pageSize level e
    let base := va.toNat / size * size
    let entry : TlbEntry :=
      { asid := spaceAsid w.space, base := base, size := size, phys := ptePpn e / (size / 4096) * size,
        policy := BitVec.ofNat 2 (bits e 62 61), user := e.getLsbD 4, write := e.getLsbD 2, read := e.getLsbD 1,
        dirty := e.getLsbD 7 || store, ats := e.getLsbD 60, host := hostMode }
    if !entry.read || (store && !entry.write) || (w.user && !entry.user) then (s0, .fault .protect)
    else if e.getLsbD 60 then
      match s0.atsPage w store va with
      | (s1, .fault f) => (s1, .fault f)
      | (s1, .ok host _) =>
        let page := va.toNat / 4096
        let grants := s1.ats.any fun a => a.asid == entry.asid && a.page == page && a.write
        let e1 : TlbEntry := { entry with base := page * 4096, size := 4096, phys := host, host := true, dirty := entry.dirty && grants }
        (((s1.markPte addr e store).1).tlbAdd w.core e1, s1.permit w store e1 va)
    else
      match s0.permit w store entry va with
      | .fault f => (s0, .fault f)
      | .ok pa policy => (((s0.markPte addr e store).1).tlbAdd w.core entry, .ok pa policy)

/-- Whether an address lies on an uncommitted page of an arena: its level-0 entry is all zero (R387). -/
def State.uncommittedAt (s : State) (w : Who) (va : Word) : Bool :=
  match s.walk (dieOf w.core) w.space (va.toNat % 2 ^ 57) [4, 3, 2, 1, 0] (bits w.space 43 0) with
  | .absent level zero => level == 0 && zero && ((s.crew? w.crew).bind fun r => s.arenaAt r va.toNat).isSome
  | .leaf _ _ _ => false
  | .malformed => false
  | .uncorrectable _ => false

/-- A miss of the movement TLB counted, once for each walk: a walk that waits for the host is the same miss, and a store to a page whose
held translation is not dirty is none (R377, R379, R381). -/
def State.countMiss (s : State) (w : Who) (va : Word) : State :=
  let key := (spaceAsid w.space, va.toNat / 4096)
  if (s.tlbFind w false va).isSome then s
  else s.updCore w.core fun k =>
    if k.walks.contains key then k else { k with tlbmiss := k.tlbmiss + 1#64, walks := key :: k.walks }

/-- The walk of an access ended, unless it waits for the host (R379, R381). -/
def State.endWalk (s : State) (w : Who) (va : Word) (r : Translated) : State :=
  if r = .fault .wait then s
  else s.updCore w.core fun k => { k with walks := k.walks.filter fun p => p ≠ (spaceAsid w.space, va.toNat / 4096) }

/-- The translation of an access (R372 to R381): the movement TLB, else a walk, which tlbmiss counts. -/
def State.translate (s : State) (w : Who) (store : Bool) (va : Word) : State × Translated :=
  if !canonical va || bits w.space 63 60 == 0 then (s, .fault .protect)
  else
    match s.tlbFind w store va with
    | some e => (s, s.permit w store e va)
    | none =>
      let r := (s.countMiss w va).translateWalk w store va
      (r.1.endWalk w va r.2, r.2)

/-- The lane cluster that owns an address (R304, R380). -/
def clusterOf (va : Word) : Fin 4 := (va.extractLsb' 12 2).toFin

/-- A core's cache of translations before the movement TLB: its micro-TLB of 32 entries, or the slice of 64 of the lane cluster that owns
the address (R380; log 20). -/
def Core.firstLevel (k : Core) (lanes : Bool) (va : Word) : List TlbEntry := if lanes then k.slices[clusterOf va] else k.utlb

/-- A translation kept by that cache. -/
def Core.keepFirst (k : Core) (lanes : Bool) (va : Word) (e : TlbEntry) : Core :=
  if lanes then { k with slices := k.slices.set (clusterOf va) ((e :: k.slices[clusterOf va]).take 64) }
  else { k with utlb := (e :: k.utlb).take 32 }

/-- The translation of an access of the running coroutine: by its front end's micro-TLB or a lane cluster's slice, else by the movement
TLB or a walk, whose answer that cache keeps (R380). -/
def State.translateFirst (s : State) (lanes store : Bool) (va : Word) : State × Translated :=
  let w := s.who
  if !canonical va || bits w.space 63 60 == 0 then (s, .fault .protect)
  else
    match (s.me.firstLevel lanes va).find? fun e => e.serves w store va with
    | some e => (s, s.permit w store e va)
    | none =>
      match s.translate w store va with
      | (s1, .fault f) => (s1, .fault f)
      | (s1, .ok pa policy) =>
        (match s1.tlbFind w store va with
          | some e => { s1 with me := s1.me.keepFirst lanes va e }
          | none => s1, .ok pa policy)

/-- Whether an access overlaps an armed watch range of its crew (17_host_security_power.md R464). -/
def State.watched (s : State) (w : Who) (store : Bool) (va : Word) (n : Nat) : Bool :=
  s.watchRanges.any fun r => r.crew == w.crew && (if store then r.stores else r.loads) &&
    decide (va.toNat < r.base + r.length) && decide (r.base < va.toNat + n)

/-! ## Fault entries and tokens (R383, R384) -/

/-- The generation that tkinit gives next (08_tokens.md R231). -/
def nextGen (g : BitVec 26) : BitVec 26 := if g = 0x3FFFFFF#26 then 1#26 else g + 1#26

/-- The deferred spawn of a count cell that is renewed: its coroutine is discarded and its slot emptied (07_coroutines.md R219). -/
def State.discardDeferred (s : State) (core : BitVec 10) (c : TokenCell) : State :=
  if c.kind = 1#2 ∧ c.dval then
    s.updCore core fun k => { k with slots := k.slots.filter fun t => !(t.num == c.dslot && t.deferredSpawn) }
  else s

/-- A cell given a new generation, kind and lower doubleword; its deferred spawn is discarded and its old waiters are told
(08_tokens.md R255). -/
def State.initCell (s : State) (core : BitVec 10) (index : BitVec 16) (kind : BitVec 2) (lower upperLow : Word) : State × Word :=
  let c := s.cellOf core index
  let g := nextGen c.gen
  let upper : Word := (g.zeroExtend 64 <<< 38) ||| (kind.zeroExtend 64 <<< 36) ||| (c.upper &&& 0x800000#64) ||| upperLow
  (((s.discardDeferred core c).putCell core index ⟨lower, upper⟩).cellChanged core index, mkHandle s.devNo core kind g index)

/-- Whether a fault cell is free: no waiter and no unsignalled entry (R384). -/
def State.faultCellFree (s : State) (core : BitVec 10) (index : BitVec 16) : Bool :=
  !(s.cellOf core index).wp &&
    s.faults.all fun e => e.signalled || !(hCore e.token == core && hIndex e.token == index)

/-- The entries that are not yet freed: an entry frees once it is signalled and its cell has no waiter (R384). -/
def State.liveFaults (s : State) : List FaultEntry :=
  s.faults.filter fun e => !(e.signalled && !(s.cellOf (hCore e.token) (hIndex e.token)).wp)

/-- The home core and first index of the 64 cells that serve a fault (R384, R387). -/
def State.faultCells (s : State) (w : Who) (arena : Option (BitVec 4)) : BitVec 10 × Nat :=
  match arena, s.crew? w.crew with
  | some i, some r => (hCore ((s.arenaDws r i.toNat).getD 4 0), (hIndex ((s.arenaDws r i.toNat).getD 4 0)).toNat)
  | _, _ => (dieOf w.core ++ 0#8, 0x40)

/-- What a fault meets at the die's fault unit. -/
inductive Claim where
  | joined (token : Word)
  | claimed (token : Word)
  | full
  deriving DecidableEq, Repr

/-- A fault joins the unsignalled entry of its die and page, or claims an entry and a cell; with neither free it waits (R383, R384). -/
def State.claimFault (s : State) (w : Who) (arena : Option (BitVec 4)) (va : Word) (store : Bool) (coid : BitVec 18)
    (command : Option Word) : State × Claim :=
  let die := dieOf w.core
  let asid := spaceAsid w.space
  let size := if arena.isSome then 65536 else 4096
  let key := va.toNat / size
  match s.faults.find? fun e => e.die == die && e.asid == asid && e.size == size && e.key == key && !e.signalled with
  | some e => (s, .joined e.token)
  | none =>
    let live := s.liveFaults
    let cells := s.faultCells w arena
    if 64 ≤ (live.filter fun e => e.die = die).length then (s, .full)
    else
      match (List.range 64).find? fun i => s.faultCellFree cells.1 (BitVec.ofNat 16 (cells.2 + i)) with
      | none => (s, .full)
      | some i =>
        let r := s.initCell cells.1 (BitVec.ofNat 16 (cells.2 + i)) 2#2 0#64 0#64
        let entry : FaultEntry :=
          { die := die, asid := asid, key := key, size := size, token := r.2, signalled := false, addr := va, store := store,
            arena := arena, coid := coid, command := command, sent := arena.isNone }
        ({ r.1 with faults := live ++ [entry] }, .claimed r.2)

/-- The running coroutine stopped by a page fault, to wait on a fault token (R206, R382, R384): held as well while `held`, with a
record on the core's queue when `record`. -/
def State.faultStop (s : State) (code : BitVec 8) (va : Word) (store : Bool) (epc : Offset) (token : Word) (held record : Bool) : State :=
  let n := s.slotNum
  let s1 := { s with me := s.me.trapOut s.fresh code va store epc record, fresh := s.fresh + 44 }
  let s2 := { s1 with me := s1.me.updSlot n fun t =>
    { t with waitFor := .fault, handle := token, phase := 0#64, state := if held then .held else .waiting,
             records := if held then t.records else t.records - 1 } }
  let s3 := if s2.me.halted ∧ ¬s.me.halted then s2.logError 1 s.me.id.toNat else s2
  s3.syncWp (hCore token) (hIndex token)

/-- A PAGE_ABSENT or PAGE_FAR fault of the running coroutine (R382, R383). With no entry or cell free the instruction
waits in its walk, which is counted once (R381). -/
def State.pageFault (s : State) (code : BitVec 8) (arena : Option (BitVec 4)) (va : Word) (store : Bool) (epc : Offset) : State :=
  match s.claimFault s.who arena va store s.coid none with
  | (s1, .joined token) => s1.faultStop code va store epc token false false
  | (s1, .claimed token) => s1.faultStop code va store epc token true arena.isNone
  | (_, .full) => s.updCore s.me.id fun k => { k with walks := (spaceAsid s.who.space, va.toNat / 4096) :: k.walks }

/-! ## Uncorrectable units (04_scalar.md R103, 14_near_far_memory.md R406, R410) -/

/-- The mask of `n` bytes at offset `o` of a line. -/
def byteMask (o n : Nat) : BitVec 64 := BitVec.ofNat 64 ((2 ^ n - 1) * 2 ^ o)

/-- The bytes of the held units of a line (04_scalar.md R103). -/
def heldMask (h : BitVec 8) : BitVec 64 :=
  (List.range 8).foldl (fun acc i => if h.getLsbD i then acc ||| byteMask (8 * i) 8 else acc) 0#64

/-- A line of a core's L1. -/
def Core.line? (k : Core) (ln : Nat) : Option L1Line := k.l1.find? fun l => l.line = ln

/-- Whether `n` bytes of a line of the core's L1 meet a held unit. -/
def Core.heldAt (k : Core) (pa n : Nat) : Bool :=
  match k.line? (pa / 64) with
  | none => false
  | some l => heldMask l.held &&& byteMask (pa % 64) n != 0#64

/-- Where an uncorrectable unit at a physical address is counted: its stack, 2,048 plus the die of the L2 that holds it, or 1,024 plus the
core whose scratchpad, instruction store, L1 or tile unit holds it (14_near_far_memory.md Table 14.2; log 25). A held unit of the agent's L1
is met there where the home has the unit whole. -/
def State.placeOfError (s : State) (core : BitVec 10) (pa : Nat) : Nat :=
  match regionOf pa with
  | .hbm =>
    if (s.coreAt core).heldAt pa 1 ∧ !s.isBad pa 1 then 1024 + core.toNat
    else if (s.l2Line? (s.redirect pa / 256)).isSome then 2048 + s.l2Die (s.redirect pa / 256)
    else (stackLine s.stripe pa).1
  | .scratch c _ => 1024 + c.toNat
  | .istore _ _ => 1024 + core.toNat
  | .host _ => 1024 + core.toNat
  | .reserved => 1024 + core.toNat

/-- The physical address of the page-table entry that a walk could not read; an address of no memory where there is none. -/
def State.walkError (s : State) (w : Who) (va : Word) : Nat :=
  match s.walk (dieOf w.core) w.space (va.toNat % 2 ^ 57) [4, 3, 2, 1, 0] (bits w.space 43 0) with
  | .uncorrectable a => a
  | .leaf _ _ _ => 2 ^ 50
  | .absent _ _ => 2 ^ 50
  | .malformed => 2 ^ 50

/-- The physical address of the unit that an agent met at a virtual address: the byte's, or that of the page-table entry that its walk
read. -/
def State.errorAddr (s : State) (w : Who) (va : Word) : Nat :=
  match (s.translate w false va).2 with
  | .ok pa _ => pa
  | .fault _ => s.walkError w va

/-- The failed reads of the bursts that `n` bytes touch, forgotten once one of them has been consumed (14_near_far_memory.md R406). -/
def State.forgetFailing (s : State) (pa n : Nat) : State :=
  { s with failing := s.failing.filter fun u => !(decide (u < s.redirect pa + n) && decide (s.redirect pa < u + 32)) }

/-- An uncorrectable unit at a physical address consumed by an agent of a core: counted, the read that failed forgotten, and reported to
ERROR_QUERY with an address (14_near_far_memory.md R406, R410, 17_host_security_power.md Table 17.3). -/
def State.consumeAt (s : State) (core : BitVec 10) (pa value : Nat) : State :=
  ({ s with uecount := addCount s.uecount (s.placeOfError core pa) 1 }.forgetFailing pa 8).logError 3 (value % 2 ^ 56)

/-- An uncorrectable unit consumed that an agent met at a virtual address. -/
def State.consumeBad (s : State) (w : Who) (va : Word) : State := s.consumeAt w.core (s.errorAddr w va) va.toNat

/-- A fault of an access of the running coroutine taken: the trap of Table 7.9 that it names, or a wait (07_coroutines.md R206,
13_address_space.md R382). -/
def State.takeFault (s : State) (f : MemFault) (va : Word) (store : Bool) (epc : Offset) : State :=
  match f with
  | .misaligned => s.trap 0x03#8 va store epc
  | .protect => s.trap 0x06#8 va store epc
  | .absent arena => s.pageFault 0x05#8 arena va store epc
  | .far => s.pageFault 0x07#8 none va store epc
  | .uncorrectable a => (s.consumeBad s.who a).trap 0x08#8 a store epc
  | .watch => s.trap 0x10#8 va store epc
  | .wait => s

end Sys2Proof.Machine
end

