-- ==== Sys2Proof/Machine/Memory.lean ====
section
/-!
DEFINITION. Memory accesses (04_scalar.md R101 to R105, R113, 09_visibility.md): the scalar L1, scalar loads and stores, vector
and copy accesses at the home, atomics, and the effects of release and acquire.
-/

namespace Sys2Proof.Machine

/-! ## The scalar L1 -/

/-- A byte mask spread to bits. -/
def spreadMask (m : BitVec 64) : BitVec 512 :=
  (List.range 64).foldl (fun acc i => if m.getLsbD i then acc ||| (0xFF#512 <<< (8 * i)) else acc) 0#512

/-- A line put into a core's L1 in place of its old self; a line with no valid byte is dropped. -/
def Core.putLine (k : Core) (l : L1Line) : Core :=
  { k with l1 := (if l.valid = 0#64 then [] else [l]) ++ k.l1.filter fun m => m.line ≠ l.line }

/-- The bytes of the 8-byte units that a byte mask covers whole. -/
def wholeUnits (m : BitVec 64) : BitVec 64 :=
  (List.range 8).foldl (fun acc i => if m &&& byteMask (8 * i) 8 = byteMask (8 * i) 8 then acc ||| byteMask (8 * i) 8 else acc) 0#64

/-! ## The write queue (09_visibility.md R275) -/

/-- Whether a queued write meets `n` bytes from an address. -/
def QueuedWrite.meets (q : QueuedWrite) (pa n : Nat) : Bool := decide (q.pa < pa + n) && decide (pa < q.pa + q.n)

/-- A queued write performed at its home. -/
def State.perform (s : State) (q : QueuedWrite) : State := (s.byPolicy q.pa (if q.uc then 2#2 else 1#2)).physWrite q.pa q.n q.v

/-- Every queued write of a core performed, the oldest first. -/
def State.drainCore (s : State) (c : BitVec 10) : State :=
  (s.coreAt c).wq.foldl State.perform (if (s.coreAt c).wq.isEmpty then s else s.updCore c fun k => { k with wq := [] })

/-- Every queued write of the core whose turn it is performed. -/
def State.drained (s : State) : State := s.me.wq.foldl State.perform { s with me := { s.me with wq := [] } }

/-- The queue drained where a write in it meets `n` bytes from an address. -/
def State.settleWrites (s : State) (pa n : Nat) : State := if s.me.wq.any fun q => q.meets pa n then s.drained else s

/-- The oldest queued write performed, where a free bit says so: it is at its home some time after it was issued (R275; log 7). -/
def State.drainOne (s : State) : State :=
  match s.me.wq with
  | [] => s
  | q :: r => if (Config.freeWord s.fresh).getLsbD 0 then { s with me := { s.me with wq := r } }.perform q else s

/-! ## Lines written back -/

/-- The dirty bytes of a line written to its home, held units apart; a unit or burst that they cover whole is renewed (04_scalar.md R101, R103,
14_near_far_memory.md R410). -/
def State.writeBack (s : State) (l : L1Line) : State :=
  let m := l.dirty &&& ~~~heldMask l.held
  let byte (acc : State) (i : Nat) : State :=
    if m.getLsbD i then acc.physWrite (64 * l.line + i) 1 ((l.data.extractLsb' (8 * i) 8).toNat) else acc
  let s1 := (List.range 8).foldl (fun acc u =>
    if m &&& byteMask (8 * u) 8 = byteMask (8 * u) 8 then acc.physWrite (64 * l.line + 8 * u) 8 (l.data.extractLsb' (64 * u) 64).toNat
    else ((List.range 8).map fun i => 8 * u + i).foldl byte acc) (s.touchL2 (64 * l.line))
  (List.range 2).foldl (fun acc b =>
    if m &&& byteMask (32 * b) 32 = byteMask (32 * b) 32 then { acc with bad := acc.badAfter (64 * l.line + 32 * b) 32 } else acc) s1

/-- A line after its write-back: clean, but for held units. A unit of 8 bytes of which some byte is not valid keeps no clean byte, so that
no read joins its bytes to newer ones (09_visibility.md R282, R283). -/
def L1Line.cleaned (l : L1Line) : L1Line :=
  let d := l.dirty &&& heldMask l.held
  { l with dirty := d, valid := wholeUnits l.valid ||| d }

/-- A line of core `c` written back and left clean (L1_WRITEBACK), behind the core's queued writes of its bytes. -/
def State.cleanLine (s : State) (c : BitVec 10) (ln : Nat) : State :=
  match (s.coreAt c).line? ln with
  | none => s
  | some l =>
    if l.dirty = 0#64 then s
    else ((if (s.coreAt c).wq.any fun q => q.meets (64 * ln) 64 then s.drainCore c else s).writeBack l).updCore c fun k => k.putLine l.cleaned

/-- A line of core `c` written back and left valid and clean: every byte that the write-back leaves invalid is fetched (09_visibility.md R293).
One of which a byte is uncorrectable at the home is fetched no byte of (14_near_far_memory.md R410). -/
def State.refreshLine (s : State) (c : BitVec 10) (ln : Nat) : State :=
  match (s.coreAt c).line? ln with
  | none => s
  | some l =>
    let s1 := (s.cleanLine c ln).touchL2 (64 * ln)
    let k := ((s1.coreAt c).line? ln).getD { l with valid := 0#64, dirty := 0#64 }
    if s1.isBad (64 * ln) 64 then s1
    else
      let m := spreadMask k.valid
      s1.updCore c fun o => o.putLine { k with
        data := (k.data &&& m) ||| (BitVec.ofNat 512 (s1.physRead (64 * ln) 64) &&& ~~~m)
        valid := 0xFFFFFFFFFFFFFFFF#64 }

/-- Every dirty byte of core `c`'s L1 written back (09_visibility.md R270 step 2). -/
def State.cleanL1 (s : State) (c : BitVec 10) : State :=
  (s.coreAt c).l1.foldl (fun acc l => if l.dirty = 0#64 then acc else acc.cleanLine c l.line) s

/-- Clean bytes of a core's L1 invalidated; dirty bytes stay (09_visibility.md R271). -/
def Core.dropClean (k : Core) : Core :=
  { k with l1 := (k.l1.map fun l => { l with valid := l.valid &&& l.dirty }).filter fun l => l.valid ≠ 0#64 }

/-- A line written back and removed. -/
def State.flushLine (s : State) (c : BitVec 10) (ln : Nat) : State :=
  (s.cleanLine c ln).updCore c fun k => match k.line? ln with
    | none => k
    | some l => k.putLine { l with valid := l.valid &&& l.dirty }

/-- What every core holds of a physical range performed at its home: its queued writes and its L1 lines, which it keeps no longer
(13_address_space.md R395, R398, 14_near_far_memory.md R413). -/
def State.flushRange (s : State) (lo hi : Nat) : State :=
  s.cores.foldl (fun acc k =>
    (k.l1.filter fun l => decide (64 * l.line < hi) && decide (lo < 64 * l.line + 64)).foldl (fun a l => a.flushLine k.id l.line)
      (if k.wq.any fun q => q.meets lo (hi - lo) then acc.drainCore k.id else acc)) s

/-- The L2 lines of a physical range written back to HBM and removed (14_near_far_memory.md R413). -/
def State.flushL2 (s : State) (lo hi : Nat) : State :=
  ((s.l2.filter fun l => decide (256 * l.line < hi) && decide (lo < 256 * l.line + 256)).map (·.line)).foldl State.dropL2 s

/-- The units of a core's L1 that a write at the home covers whole forgotten, held ones among them (04_scalar.md R103; log 59). -/
def Core.forgetUnits (k : Core) (pa n : Nat) : Core :=
  match k.line? (pa / 64) with
  | none => k
  | some l =>
    let m := wholeUnits (byteMask (pa % 64) (min n (64 - pa % 64)))
    if heldMask l.held &&& m = 0#64 then k
    else k.putLine { l with
      valid := l.valid &&& ~~~m
      dirty := l.dirty &&& ~~~m
      held := (List.range 8).foldl (fun acc i => if m.getLsbD (8 * i) then acc &&& ~~~(1#8 <<< i) else acc) l.held }

/-- Room in a line's place before an access of the home that does not go through the L1: the core's queued writes of its bytes are
performed and the line is written back and removed (09_visibility.md R274, R275, R290, R292). -/
def State.leaveL1 (s : State) (pa n : Nat) : State := (s.settleWrites pa n).flushLine s.me.id (pa / 64)

/-- The lines of a line's set in the L1 (04_scalar.md R101). -/
def Core.setOf (k : Core) (ln : Nat) : List L1Line := k.l1.filter fun l => l.line % 128 = ln % 128

/-- Whether the L1 holds a line or can take it: its set has a free way among its 8, or a way without a held unit, which alone can leave
(04_scalar.md R101, R103; log 7). -/
def Core.hasWay (k : Core) (ln : Nat) : Bool :=
  (k.line? ln).isSome || decide ((k.setOf ln).length < 8) || (k.setOf ln).any fun l => l.held == 0#8

/-- Room made in a line's set of 8 ways: a full set gives up the way the device chooses among those without a held unit (04_scalar.md R101,
R103; log 7). -/
def State.makeWay (s : State) (ln : Nat) : State :=
  let set := (s.me.setOf ln).filter fun l => l.held = 0#8
  if (s.me.line? ln).isSome ∨ (s.me.setOf ln).length < 8 then s
  else
    match set[(Config.l1Victim s.fresh).toNat % set.length]? with
    | none => s
    | some v => (s.bump 1).flushLine s.me.id v.line

/-- The release effects at a scope: at movement scope or wider the write queue is empty and the scalar L1 clean (09_visibility.md R270,
R275). -/
def State.release (s : State) (scope : BitVec 3) : State := if scope = 0#3 then s else s.drained.cleanL1 s.me.id

/-- The acquire effects at a scope: at movement scope or wider the clean bytes of the scalar L1 are invalidated
(09_visibility.md R271). -/
def State.acquire (s : State) (scope : BitVec 3) : State :=
  if scope = 0#3 then s else { s with me := s.me.dropClean }

/-! ## Scalar accesses -/

/-- What a read answers. -/
inductive Loaded where
  | ok (v : Nat)
  | fault (f : MemFault)
  deriving DecidableEq, Repr

/-- The bytes of the unit that an uncorrectable access meets at the home: 8 in a line of L2, in a scratchpad or in an instruction store, else a
burst of HBM (14_near_far_memory.md R410, 10_scratchpad_copy.md R296). -/
def State.unitAt (s : State) (pa : Nat) : Nat := if (s.l2Line? (s.redirect pa / 256)).isSome then 8 else unitSize pa

/-- MEM_UNCORRECTABLE with the virtual address of the unit of some bytes that a physical address lies in (07_coroutines.md Table 7.9). -/
def badAt (va : Word) (pa unit : Nat) : MemFault := .uncorrectable (va - BitVec.ofNat 64 (pa % unit))

/-- A read at the home: L2 and UC pages, scratchpads and instruction stores (04_scalar.md R102, 14_near_far_memory.md R410). -/
def State.homeRead (s : State) (va : Word) (pa n : Nat) : Loaded :=
  if s.isBad pa n then .fault (badAt va pa (s.unitAt pa)) else .ok (s.physRead pa n)

/-- A read of the core at the home, past its write queue: served from a queued write that holds all its bytes, else behind those that it
meets (09_visibility.md R275). -/
def State.queuedRead (s : State) (va : Word) (pa n : Nat) (policy : BitVec 2) : State × Loaded :=
  match s.me.wq.reverse.find? fun q => q.meets pa n with
  | some q =>
    if q.pa ≤ pa ∧ pa + n ≤ q.pa + q.n then (s, .ok ((q.v >>> (8 * (pa - q.pa))) % 256 ^ n))
    else
      let s1 := s.drained.byPolicy pa policy
      (s1, s1.homeRead va pa n)
  | none =>
    let s1 := s.byPolicy pa policy
    (s1, s1.homeRead va pa n)

/-- A read of a WB page: from the scalar L1, which allocates the line and fetches every byte of it that is not dirty
(04_scalar.md R101 to R103, 09_visibility.md R271, R282, R283). A line of which a missing byte is uncorrectable is not allocated
(14_near_far_memory.md R410), nor one whose set holds units in all its ways (log 7). -/
def State.cachedRead (s : State) (va : Word) (pa n : Nat) : State × Loaded :=
  let ln := pa / 64
  let o := pa % 64
  let need := byteMask o n
  let l0 := (s.me.line? ln).getD ⟨ln, 0#512, 0#64, 0#64, 0#8⟩
  if heldMask l0.held &&& need ≠ 0#64 then (s, .fault (.uncorrectable (va - BitVec.ofNat 64 (o % 8))))
  else if need &&& ~~~l0.valid = 0#64 then (s, .ok ((l0.data.toNat >>> (8 * o)) % 256 ^ n))
  else
    let s1 := (s.settleWrites (64 * ln) 64).touchL2 pa
    let l := { l0 with valid := l0.dirty }
    if s1.isBad pa n then (s1, .fault (badAt va pa (s1.unitAt pa)))
    else
      let m := spreadMask l.valid
      let data := (l.data &&& m) ||| (BitVec.ofNat 512 (s1.physRead (64 * ln) 64) &&& ~~~m)
      let v := (data.toNat >>> (8 * o)) % 256 ^ n
      if s1.isBad (64 * ln) 64 then ({ s1 with me := s1.me.putLine l }, .ok v)
      else if !s1.me.hasWay ln then (s1, .ok v)
      else
        let s2 := s1.makeWay ln
        ({ s2 with me := s2.me.putLine { l with data := data, valid := 0xFFFFFFFFFFFFFFFF#64 } }, .ok v)

/-- A write of a WB page: into the scalar L1, which marks the bytes valid and dirty (04_scalar.md R101, R102). A store of all 8 bytes of a
held unit ends its condition, and a narrower one leaves it held (R103; log 59). A line whose set holds units in all its ways is written at its
home (log 7). -/
def State.cachedWrite (s : State) (pa n v : Nat) : State :=
  let ln := pa / 64
  let o := pa % 64
  if !s.me.hasWay ln then ((s.settleWrites pa n).touchL2 pa).physWrite pa n v
  else
  let s1 := s.makeWay ln
  let l := (s1.me.line? ln).getD ⟨ln, 0#512, 0#64, 0#64, 0#8⟩
  let mask := byteMask o n
  let m := spreadMask mask
  let data := (l.data &&& ~~~m) ||| (BitVec.ofNat 512 ((v % 256 ^ n) <<< (8 * o)) &&& m)
  let held := if n = 8 then l.held &&& ~~~(BitVec.ofNat 8 (2 ^ (o / 8))) else l.held
  { s1 with me := s1.me.putLine { l with data := data, valid := l.valid ||| mask, dirty := l.dirty ||| mask, held := held } }

/-- A scalar store that does not pass through the L1: into the write queue for device and host memory, and at once for a scratchpad or an
instruction store (04_scalar.md R102, 09_visibility.md R275; log 7). -/
def State.queueWrite (s : State) (pa n v : Nat) (policy : BitVec 2) : State :=
  if pa < hbmSize ∨ hostBase ≤ pa then { s with me := { s.me with wq := s.me.wq ++ [⟨pa, n, v, policy == 2#2⟩] } }
  else s.physWrite pa n v

/-- MemRead of the running coroutine for an aligned access of `n` bytes: alignment, watch ranges, translation, then the page's
policy (04_scalar.md R113). -/
def State.loadScalar (s : State) (va : Word) (n : Nat) : State × Loaded :=
  if va.toNat % n ≠ 0 then (s, .fault .misaligned)
  else if s.watched s.who false va n then (s, .fault .watch)
  else
    match s.translateFirst false false va with
    | (s1, .fault f) => (s1, .fault f)
    | (s1, .ok pa policy) => if policy = 0#2 then s1.cachedRead va pa n else s1.queuedRead va pa n policy

/-- What a write answers. -/
inductive Stored where
  | ok
  | fault (f : MemFault)
  deriving DecidableEq, Repr

/-- MemWrite of the running coroutine for an aligned access of `n` bytes (04_scalar.md R113). -/
def State.storeScalar (s : State) (va : Word) (n v : Nat) : State × Stored :=
  if va.toNat % n ≠ 0 then (s, .fault .misaligned)
  else if s.watched s.who true va n then (s, .fault .watch)
  else
    match s.translateFirst false true va with
    | (s1, .fault f) => (s1, .fault f)
    | (s1, .ok pa policy) => (if policy = 0#2 then s1.cachedWrite pa n v else s1.queueWrite pa n v policy, .ok)

/-- Doublewords of a block that a command reads at issue as scalar loads, from the lowest; the first fault stops it. -/
def State.loadDws (s : State) (va : Word) : Nat → State × Except (MemFault × Word) (List Word)
  | 0 => (s, .ok [])
  | n + 1 =>
    match s.loadScalar va 8 with
    | (s1, .fault f) => (s1, .error (f, va))
    | (s1, .ok v) =>
      match s1.loadDws (va + 8#64) n with
      | (s2, .error e) => (s2, .error e)
      | (s2, .ok r) => (s2, .ok (BitVec.ofNat 64 v :: r))

/-! ## Vector, atomic and copy accesses -/

/-- A vector read of `n` bytes, behind the dirty-line filter: the L1 line's dirty bytes are written back first, and bytes that the line then
holds are read as a scalar load would read them, so that no later one reads older bytes; the L1 is otherwise left as it is
(09_visibility.md R263, R274, R275). -/
def State.vecReadAt (s : State) (va : Word) (pa n : Nat) (policy : BitVec 2) : State × Loaded :=
  let s1 := s.cleanLine s.me.id (pa / 64)
  let l := (s1.me.line? (pa / 64)).getD ⟨pa / 64, 0#512, 0#64, 0#64, 0#8⟩
  if s1.me.heldAt pa n then (s1, .fault (badAt va pa 8))
  else if policy = 0#2 ∧ byteMask (pa % 64) n &&& ~~~l.valid = 0#64 then (s1, .ok ((l.data.toNat >>> (8 * (pa % 64))) % 256 ^ n))
  else s1.queuedRead va pa n policy

/-- The checks of a vector access: alignment, watch ranges and translation (04_scalar.md R113, 10_scratchpad_copy.md R302). -/
def State.vecCheck (s : State) (store : Bool) (va : Word) (n : Nat) : State × Translated :=
  if va.toNat % n ≠ 0 then (s, .fault .misaligned)
  else if s.watched s.who store va n then (s, .fault .watch)
  else s.translateFirst true store va

/-- A vector write at the home: the core's L1 keeps nothing of the line (09_visibility.md R274, R275). -/
def State.vecWriteAt (s : State) (pa n v : Nat) (policy : BitVec 2) : State :=
  let s1 := (s.leaveL1 pa n).byPolicy pa policy
  { s1 with me := s1.me.forgetUnits pa n }.physWrite pa n v

/-- Whether a physical address is host memory. -/
def isHost (pa : Nat) : Bool := decide (hostBase ≤ pa)

/-- An atomic step of `n` bytes at the home of an address (09_visibility.md R289, R290, R294): `f` gives the new value from the old
one, and `onHost` whether host memory admits it. It loads and then stores, for a watch range too (17_host_security_power.md R464). The old
value is answered. -/
def State.atomic (s : State) (lanes : Bool) (va : Word) (n : Nat) (onHost : Bool) (f : Nat → Option Nat) : State × Loaded :=
  if s.watched s.who false va n || s.watched s.who true va n then (s, .fault .watch)
  else
    match s.translateFirst lanes true va with
    | (s1, .fault f) => (s1, .fault f)
    | (s1, .ok pa policy) =>
      if isHost pa ∧ ¬onHost then (s1, .fault .far)
      else
        let s2 := (s1.leaveL1 pa n).byPolicy pa policy
        if s2.me.heldAt pa n || s2.isBad pa n then (s2, .fault (badAt va pa (if s2.me.heldAt pa n then 8 else s2.unitAt pa)))
        else
          let old := s2.physRead pa n
          (match f old with
            | none => s2
            | some v => s2.physWrite pa n v, .ok old)

/-- A read by a copy engine or complication for a captured agent: at the home through the page's policy, with no L1 and no watch
(09_visibility.md R280, R281, 17_host_security_power.md R464). -/
def State.copyRead (s : State) (w : Who) (va : Word) (n : Nat) : State × Loaded :=
  match s.translate w false va with
  | (s1, .fault f) => (s1, .fault f)
  | (s1, .ok pa policy) => (s1.byPolicy pa policy, (s1.byPolicy pa policy).homeRead va pa n)

/-- A write at the home, through a page's policy, by an engine acting for core `c`, whose L1 keeps no clean byte of it (09_visibility.md R280,
R281). -/
def State.engineWrite (s : State) (c : BitVec 10) (pa n v : Nat) (policy : BitVec 2) : State :=
  ((s.updCore c fun k => match k.line? (pa / 64) with
    | none => k
    | some l => k.putLine { l with valid := l.valid &&& l.dirty }).byPolicy pa policy).physWrite pa n v

/-- A write by a copy engine or complication for a captured agent. -/
def State.copyWrite (s : State) (w : Who) (va : Word) (n v : Nat) : State × Stored :=
  match s.translate w true va with
  | (s1, .fault f) => (s1, .fault f)
  | (s1, .ok pa policy) => (s1.engineWrite w.core pa n v policy, .ok)

/-- Bytes written by an engine one by one from an address, the lowest first, up to a page's end inside which it stays; the first
fault stops it with its address. -/
def State.copyWriteBytes (s : State) (w : Who) (va : Word) : List Nat → State × Except (MemFault × Word) Unit
  | [] => (s, .ok ())
  | b :: r =>
    match s.copyWrite w va 1 b with
    | (s1, .fault f) => (s1, .error (f, va))
    | (s1, .ok) => s1.copyWriteBytes w (va + 1#64) r

/-- Bytes read by an engine one by one from an address. -/
def State.copyReadBytes (s : State) (w : Who) (va : Word) : Nat → State × Except (MemFault × Word) (List Nat)
  | 0 => (s, .ok [])
  | n + 1 =>
    match s.copyRead w va 1 with
    | (s1, .fault f) => (s1, .error (f, va))
    | (s1, .ok b) =>
      match s1.copyReadBytes w (va + 1#64) n with
      | (s2, .error e) => (s2, .error e)
      | (s2, .ok r) => (s2, .ok (b :: r))

end Sys2Proof.Machine
end

