-- ==== Sys2Proof/Machine/Scalar.lean ====
section
/-!
DEFINITION. The scalar integer instructions, loads and stores, branches and jumps (04_scalar.md R108 to R115, Tables 4.6 to 4.11).
-/

namespace Sys2Proof.Machine

/-! ## Shared operations -/

/-- The effect of an instruction that writes one scalar register and moves on. -/
def State.write (s : State) (d : BitVec 5) (v : Word) : State := (s.putX d v).adv 4

/-- 1 where a condition holds, else 0. -/
def oneIf (c : Bool) : Word := if c then 1#64 else 0#64

/-- Quotient and remainder of an integer division (R109). -/
def divide (signed : Bool) (a b : Word) : Word × Word :=
  if b = 0#64 then (0xFFFFFFFFFFFFFFFF#64, a)
  else if signed then (a.sdiv b, a.srem b)
  else (a / b, a % b)

/-- status.idz where a divisor is zero (R109). -/
def State.noteDivisor (s : State) (b : Word) : State :=
  if b = 0#64 then s.updCtx fun c => { c with status := c.status ||| statusIdz } else s

/-- The number of zero bits below the lowest one bit, up to `n`. -/
def ctzNat : Nat → Nat → Nat
  | 0, _ => 0
  | n + 1, v => if v % 2 = 1 then 0 else 1 + ctzNat n (v / 2)

/-- Leading zero bits (Table 4.6). -/
def clz64 (a : Word) : Word := if a = 0#64 then 64#64 else BitVec.ofNat 64 (63 - Nat.log2 a.toNat)
/-- Trailing zero bits (Table 4.6). -/
def ctz64 (a : Word) : Word := BitVec.ofNat 64 (ctzNat 64 a.toNat)
/-- One bits (Table 4.6). -/
def popc64 (a : Word) : Word := BitVec.ofNat 64 (popNat 64 a.toNat)

/-- Arithmetic shift right by an amount below 64. -/
def sra64 (a : Word) (n : Nat) : Word := a.sshiftRight n

/-- The upper half of a product (Table 4.6). -/
def mulHigh (signed : Bool) (a b : Word) : Word :=
  if signed then (a.signExtend 128 * b.signExtend 128).extractLsb' 64 64
  else (a.zeroExtend 128 * b.zeroExtend 128).extractLsb' 64 64

/-- The smaller or the larger of two values by an order. -/
def pick (first : Bool) (a b : Word) : Word := if first then a else b

/-! ## Integer register operations (R108 to R110) -/

/-- add (R108). -/
def execAdd (d a b : BitVec 5) (s : State) : Result := .next (s.write d (s.x a + s.x b))
/-- sub (R108). -/
def execSub (d a b : BitVec 5) (s : State) : Result := .next (s.write d (s.x a - s.x b))
/-- and (R108). -/
def execAnd (d a b : BitVec 5) (s : State) : Result := .next (s.write d (s.x a &&& s.x b))
/-- or (R108). -/
def execOr (d a b : BitVec 5) (s : State) : Result := .next (s.write d (s.x a ||| s.x b))
/-- xor (R108). -/
def execXor (d a b : BitVec 5) (s : State) : Result := .next (s.write d (s.x a ^^^ s.x b))
/-- sll (R108). -/
def execSll (d a b : BitVec 5) (s : State) : Result := .next (s.write d (s.x a <<< ((s.x b).toNat % 64)))
/-- srl (R108). -/
def execSrl (d a b : BitVec 5) (s : State) : Result := .next (s.write d (s.x a >>> ((s.x b).toNat % 64)))
/-- sra (R108). -/
def execSra (d a b : BitVec 5) (s : State) : Result := .next (s.write d (sra64 (s.x a) ((s.x b).toNat % 64)))
/-- slt (R108). -/
def execSlt (d a b : BitVec 5) (s : State) : Result := .next (s.write d (oneIf ((s.x a).slt (s.x b))))
/-- sltn (R108). -/
def execSltn (d a b : BitVec 5) (s : State) : Result := .next (s.write d (oneIf ((s.x a).ult (s.x b))))
/-- mul (R108). -/
def execMul (d a b : BitVec 5) (s : State) : Result := .next (s.write d (s.x a * s.x b))
/-- mulh (R108). -/
def execMulh (d a b : BitVec 5) (s : State) : Result := .next (s.write d (mulHigh true (s.x a) (s.x b)))
/-- mulhn (R108). -/
def execMulhn (d a b : BitVec 5) (s : State) : Result := .next (s.write d (mulHigh false (s.x a) (s.x b)))
/-- div (R109). -/
def execDiv (d a b : BitVec 5) (s : State) : Result :=
  .next ((s.noteDivisor (s.x b)).write d (divide true (s.x a) (s.x b)).1)
/-- divn (R109). -/
def execDivn (d a b : BitVec 5) (s : State) : Result :=
  .next ((s.noteDivisor (s.x b)).write d (divide false (s.x a) (s.x b)).1)
/-- rem (R109). -/
def execRem (d a b : BitVec 5) (s : State) : Result :=
  .next ((s.noteDivisor (s.x b)).write d (divide true (s.x a) (s.x b)).2)
/-- remn (R109). -/
def execRemn (d a b : BitVec 5) (s : State) : Result :=
  .next ((s.noteDivisor (s.x b)).write d (divide false (s.x a) (s.x b)).2)
/-- min (R108). -/
def execMin (d a b : BitVec 5) (s : State) : Result :=
  .next (s.write d (pick ((s.x a).slt (s.x b)) (s.x a) (s.x b)))
/-- max (R108). -/
def execMax (d a b : BitVec 5) (s : State) : Result :=
  .next (s.write d (pick ((s.x b).slt (s.x a)) (s.x a) (s.x b)))
/-- minn (R108). -/
def execMinn (d a b : BitVec 5) (s : State) : Result :=
  .next (s.write d (pick ((s.x a).ult (s.x b)) (s.x a) (s.x b)))
/-- maxn (R108). -/
def execMaxn (d a b : BitVec 5) (s : State) : Result :=
  .next (s.write d (pick ((s.x b).ult (s.x a)) (s.x a) (s.x b)))
/-- clz (R108). -/
def execClz (d a : BitVec 5) (s : State) : Result := .next (s.write d (clz64 (s.x a)))
/-- ctz (R108). -/
def execCtz (d a : BitVec 5) (s : State) : Result := .next (s.write d (ctz64 (s.x a)))
/-- popc (R108). -/
def execPopc (d a : BitVec 5) (s : State) : Result := .next (s.write d (popc64 (s.x a)))

/-! ## Integer immediate operations (R111, R112) -/

/-- addi (R111). -/
def execAddi (d a : BitVec 5) (i : BitVec 15) (s : State) : Result := .next (s.write d (s.x a + i.signExtend 64))
/-- andi (R111). -/
def execAndi (d a : BitVec 5) (i : BitVec 15) (s : State) : Result := .next (s.write d (s.x a &&& i.zeroExtend 64))
/-- ori (R111). -/
def execOri (d a : BitVec 5) (i : BitVec 15) (s : State) : Result := .next (s.write d (s.x a ||| i.zeroExtend 64))
/-- xori (R111). -/
def execXori (d a : BitVec 5) (i : BitVec 15) (s : State) : Result := .next (s.write d (s.x a ^^^ i.zeroExtend 64))
/-- slli (R111). -/
def execSlli (d a : BitVec 5) (n : BitVec 6) (s : State) : Result := .next (s.write d (s.x a <<< n.toNat))
/-- srli (R111). -/
def execSrli (d a : BitVec 5) (n : BitVec 6) (s : State) : Result := .next (s.write d (s.x a >>> n.toNat))
/-- srai (R111). -/
def execSrai (d a : BitVec 5) (n : BitVec 6) (s : State) : Result := .next (s.write d (sra64 (s.x a) n.toNat))
/-- slti (R111). -/
def execSlti (d a : BitVec 5) (i : BitVec 15) (s : State) : Result :=
  .next (s.write d (oneIf ((s.x a).slt (i.signExtend 64))))
/-- sltni (R111). -/
def execSltni (d a : BitVec 5) (i : BitVec 15) (s : State) : Result :=
  .next (s.write d (oneIf ((s.x a).ult (i.signExtend 64))))
/-- lim (R112). -/
def execLim (d : BitVec 5) (i : BitVec 20) (s : State) : Result := .next (s.write d (i.signExtend 64 <<< 15))
/-- ipc (R112). -/
def execIpc (d : BitVec 5) (i : BitVec 20) (s : State) : Result :=
  .next (s.write d (s.pc.zeroExtend 64 + (i.signExtend 64 <<< 15)))

/-! ## Loads and stores (R113) -/

/-- The address of a scalar access: (x[a] + SignExtend(imm, 15)) mod 2^64 (R113). -/
def State.ea (s : State) (a : BitVec 5) (i : BitVec 15) : Word := s.x a + i.signExtend 64

/-- A load of `n` bytes whose value `f` extends; a fault writes no register (R113). -/
def State.load (s : State) (d : BitVec 5) (va : Word) (n len : Nat) (f : Nat → Word) : State :=
  match s.loadScalar va n with
  | (s1, .ok v) => (s1.putX d (f v)).adv len
  | (s1, .fault e) => s1.takeFault e va false s.pc

/-- A store of the low `n` bytes of a value; a fault writes no byte (R113). -/
def State.store (s : State) (va : Word) (n len : Nat) (v : Word) : State :=
  match s.storeScalar va n (v.toNat % 256 ^ n) with
  | (s1, .ok) => s1.adv len
  | (s1, .fault e) => s1.takeFault e va true s.pc

/-- SignExtend of an `n`-byte value. -/
def extSigned (n : Nat) (v : Nat) : Word := (BitVec.ofNat (8 * n) v).signExtend 64
/-- ZeroExtend of a value. -/
def extZero (v : Nat) : Word := BitVec.ofNat 64 v

/-- ld.i8 (R113). -/
def execLdI8 (d a : BitVec 5) (i : BitVec 15) (s : State) : Result := .next (s.load d (s.ea a i) 1 4 (extSigned 1))
/-- ld.n8 (R113). -/
def execLdN8 (d a : BitVec 5) (i : BitVec 15) (s : State) : Result := .next (s.load d (s.ea a i) 1 4 extZero)
/-- ld.i16 (R113). -/
def execLdI16 (d a : BitVec 5) (i : BitVec 15) (s : State) : Result := .next (s.load d (s.ea a i) 2 4 (extSigned 2))
/-- ld.n16 (R113). -/
def execLdN16 (d a : BitVec 5) (i : BitVec 15) (s : State) : Result := .next (s.load d (s.ea a i) 2 4 extZero)
/-- ld.i32 (R113). -/
def execLdI32 (d a : BitVec 5) (i : BitVec 15) (s : State) : Result := .next (s.load d (s.ea a i) 4 4 (extSigned 4))
/-- ld.n32 (R113). -/
def execLdN32 (d a : BitVec 5) (i : BitVec 15) (s : State) : Result := .next (s.load d (s.ea a i) 4 4 extZero)
/-- ld.64 (R113). -/
def execLd64 (d a : BitVec 5) (i : BitVec 15) (s : State) : Result := .next (s.load d (s.ea a i) 8 4 extZero)
/-- st.8 (R113). -/
def execSt8 (d a : BitVec 5) (i : BitVec 15) (s : State) : Result := .next (s.store (s.ea a i) 1 4 (s.x d))
/-- st.16 (R113). -/
def execSt16 (d a : BitVec 5) (i : BitVec 15) (s : State) : Result := .next (s.store (s.ea a i) 2 4 (s.x d))
/-- st.32 (R113). -/
def execSt32 (d a : BitVec 5) (i : BitVec 15) (s : State) : Result := .next (s.store (s.ea a i) 4 4 (s.x d))
/-- st.64 (R113). -/
def execSt64 (d a : BitVec 5) (i : BitVec 15) (s : State) : Result := .next (s.store (s.ea a i) 8 4 (s.x d))

/-! ## Branches and jumps (R114, R115) -/

/-- A branch: to its own offset plus twice the signed halfword offset when taken (R114). -/
def State.branch (s : State) (taken : Bool) (o : BitVec 15) : State :=
  if taken then s.setPc (s.pc + (o.signExtend 19 <<< 1)) else s.adv 4

/-- beq (R114). -/
def execBeq (a b : BitVec 5) (o : BitVec 15) (s : State) : Result := .next (s.branch (s.x a == s.x b) o)
/-- bne (R114). -/
def execBne (a b : BitVec 5) (o : BitVec 15) (s : State) : Result := .next (s.branch (s.x a != s.x b) o)
/-- blt (R114). -/
def execBlt (a b : BitVec 5) (o : BitVec 15) (s : State) : Result := .next (s.branch ((s.x a).slt (s.x b)) o)
/-- bge (R114). -/
def execBge (a b : BitVec 5) (o : BitVec 15) (s : State) : Result := .next (s.branch (!(s.x a).slt (s.x b)) o)
/-- bltn (R114). -/
def execBltn (a b : BitVec 5) (o : BitVec 15) (s : State) : Result := .next (s.branch ((s.x a).ult (s.x b)) o)
/-- bgen (R114). -/
def execBgen (a b : BitVec 5) (o : BitVec 15) (s : State) : Result := .next (s.branch (!(s.x a).ult (s.x b)) o)

/-- The link of a jump: the offset after it, modulo 2^19 (R115). -/
def State.link (s : State) : Word := (s.pc + 4#19).zeroExtend 64

/-- jal (R115). -/
def execJal (o : BitVec 25) (s : State) : Result :=
  .next ((s.putX 1#5 s.link).setPc (s.pc + (o.signExtend 26 <<< 1).truncate 19))
/-- jalr (R115). -/
def execJalr (d a : BitVec 5) (i : BitVec 15) (s : State) : Result :=
  .next ((s.putX d s.link).setPc ((s.x a + i.signExtend 64).truncate 19 &&& 0x7FFFE#19))

end Sys2Proof.Machine
end

