-- ==== Sys2Proof/Machine/Atomic.lean ====
section
/-!
DEFINITION. The scalar atomics, ld.aq and st.rl, the memory fences, and cclean and cinval (09_visibility.md R286, R289 to R293).
-/

namespace Sys2Proof.Machine

/-! ## Atomics (R289 to R291) -/

/-- An amo: `f` gives the new value, where one is defined, from old, B and E (R289). -/
def State.amo (s : State) (d a b : BitVec 5) (q l : BitVec 1) (sc : BitVec 3) (onHost : Bool) (f : Word → Word → Word → Option Word) :
    State :=
  let ea := s.x a
  if ea.toNat % 8 ≠ 0 then s.takeFault .misaligned ea true s.pc
  else
    match (if l = 1#1 then s.release sc else s).atomic false ea 8 onHost
        (fun old => (f (BitVec.ofNat 64 old) (s.x b) (s.x d)).map BitVec.toNat) with
    | (s1, .fault e) => s1.takeFault e ea true s.pc
    | (s1, .ok old) =>
      let s2 := (s1.putX d (BitVec.ofNat 64 old)).adv 4
      if q = 1#1 then s2.acquire sc else s2

/-- amo.add (Table 9.10). -/
def execAmoAdd (d a b : BitVec 5) (q l : BitVec 1) (sc : BitVec 3) (s : State) : Result :=
  .next (s.amo d a b q l sc true fun old x _ => some (old + x))
/-- amo.and (Table 9.10). -/
def execAmoAnd (d a b : BitVec 5) (q l : BitVec 1) (sc : BitVec 3) (s : State) : Result :=
  .next (s.amo d a b q l sc false fun old x _ => some (old &&& x))
/-- amo.or (Table 9.10). -/
def execAmoOr (d a b : BitVec 5) (q l : BitVec 1) (sc : BitVec 3) (s : State) : Result :=
  .next (s.amo d a b q l sc false fun old x _ => some (old ||| x))
/-- amo.xor (Table 9.10). -/
def execAmoXor (d a b : BitVec 5) (q l : BitVec 1) (sc : BitVec 3) (s : State) : Result :=
  .next (s.amo d a b q l sc false fun old x _ => some (old ^^^ x))
/-- amo.min (Table 9.10). -/
def execAmoMin (d a b : BitVec 5) (q l : BitVec 1) (sc : BitVec 3) (s : State) : Result :=
  .next (s.amo d a b q l sc false fun old x _ => some (if x.slt old then x else old))
/-- amo.max (Table 9.10). -/
def execAmoMax (d a b : BitVec 5) (q l : BitVec 1) (sc : BitVec 3) (s : State) : Result :=
  .next (s.amo d a b q l sc false fun old x _ => some (if old.slt x then x else old))
/-- amo.minn (Table 9.10). -/
def execAmoMinn (d a b : BitVec 5) (q l : BitVec 1) (sc : BitVec 3) (s : State) : Result :=
  .next (s.amo d a b q l sc false fun old x _ => some (if x.ult old then x else old))
/-- amo.maxn (Table 9.10). -/
def execAmoMaxn (d a b : BitVec 5) (q l : BitVec 1) (sc : BitVec 3) (s : State) : Result :=
  .next (s.amo d a b q l sc false fun old x _ => some (if old.ult x then x else old))
/-- amo.swap (Table 9.10). -/
def execAmoSwap (d a b : BitVec 5) (q l : BitVec 1) (sc : BitVec 3) (s : State) : Result :=
  .next (s.amo d a b q l sc true fun _ x _ => some x)
/-- amo.cas (Table 9.10). -/
def execAmoCas (d a b : BitVec 5) (q l : BitVec 1) (sc : BitVec 3) (s : State) : Result :=
  .next (s.amo d a b q l sc true fun old x e => if old = e then some x else none)

/-! ## Acquiring loads and releasing stores (R292) -/

/-- A load performed at the location's home, a line that the scalar L1 holds being written back first (R292); a unit of it that is held
stops the load as it stops a scalar one (04_scalar.md R103, R113). -/
def State.loadHome (s : State) (va : Word) : State × Loaded :=
  if s.watched s.who false va 8 then (s, .fault .watch)
  else
    match s.translateFirst false false va with
    | (s1, .fault f) => (s1, .fault f)
    | (s1, .ok pa policy) =>
      if s1.me.heldAt pa 8 then (s1, .fault (badAt va pa 8))
      else
        let s2 := ((s1.cleanLine s1.me.id (pa / 64)).settleWrites pa 8).byPolicy pa policy
        (s2, s2.homeRead va pa 8)

/-- st.rl past its checks: the release, then the store, through the page's policy at core scope, else at the location's home, a line that
the scalar L1 holds being written back first (R292). -/
def State.storeRelease (s : State) (sc : BitVec 3) (pa : Nat) (policy : BitVec 2) (v : Nat) : State :=
  if sc = 0#3 then (if policy = 0#2 then s.cachedWrite pa 8 v else s.queueWrite pa 8 v policy)
  else (s.release sc).vecWriteAt pa 8 v policy

/-- ld.aq (R292). -/
def execLdAq (d a : BitVec 5) (sc : BitVec 3) (s : State) : Result :=
  .next (
    let ea := s.x a
    if ea.toNat % 8 ≠ 0 then s.takeFault .misaligned ea false s.pc
    else
      match if sc = 0#3 then s.loadScalar ea 8 else s.loadHome ea with
      | (s1, .fault e) => s1.takeFault e ea false s.pc
      | (s1, .ok v) => ((s1.acquire sc).putX d (BitVec.ofNat 64 v)).adv 4)

/-- st.rl (R292): a form that traps releases nothing. -/
def execStRl (d a : BitVec 5) (sc : BitVec 3) (s : State) : Result :=
  .next (
    let ea := s.x a
    if ea.toNat % 8 ≠ 0 then s.takeFault .misaligned ea true s.pc
    else if s.watched s.who true ea 8 then s.takeFault .watch ea true s.pc
    else
      match s.translateFirst false true ea with
      | (s1, .fault e) => s1.takeFault e ea true s.pc
      | (s1, .ok pa policy) => (s1.storeRelease sc pa policy (s.x d).toNat).adv 4)

/-! ## Fences (R286) -/

/-- fence.acq (R286). -/
def execFenceAcq (sc : BitVec 3) (s : State) : Result := .next ((s.acquire sc).adv 4)
/-- fence.rel (R286). -/
def execFenceRel (sc : BitVec 3) (s : State) : Result := .next ((s.release sc).adv 4)
/-- fence (R286). -/
def execFence (sc : BitVec 3) (s : State) : Result := .next (((s.release sc).acquire sc).adv 4)

/-! ## Cache cleaning (R293) -/

/-- A piece of a range inside one 4 KiB page: its virtual and physical addresses and its bytes. -/
structure Piece where
  va : Word
  pa : Nat
  n : Nat
  deriving DecidableEq, Repr

/-- The pieces of `n` bytes from `va`, page by page: pages that do not translate are skipped. `count` bounds the pages. A page that
waits for the host's answer makes the whole instruction wait. -/
def State.pieces (s : State) : Nat → Word → Nat → State × Bool × List Piece
  | 0, _, _ => (s, true, [])
  | count + 1, va, n =>
    if n = 0 then (s, true, [])
    else
      let k := min n (4096 - va.toNat % 4096)
      match s.translateFirst false false va with
      | (s1, .fault .wait) => (s1, false, [])
      | (s1, .fault _) => s1.pieces count (va + BitVec.ofNat 64 k) (n - k)
      | (s1, .ok pa _) =>
        match s1.pieces count (va + BitVec.ofNat 64 k) (n - k) with
        | (s2, ok, r) => (s2, ok, ⟨va, pa, k⟩ :: r)

/-- Whether a piece covers part of a line. -/
def Piece.covers (p : Piece) (ln : Nat) : Bool := decide (64 * ln < p.pa + p.n) && decide (p.pa < 64 * ln + 64)

/-- The lowest held unit of a line. -/
def L1Line.heldUnit (l : L1Line) : Option Nat := (List.range 8).find? fun i => l.held.getLsbD i

/-- The virtual address of the first held unit that a piece's lines hold. -/
def Core.heldIn (k : Core) (p : Piece) : Option Word :=
  (k.l1.filter fun l => p.covers l.line).findSome? fun l =>
    l.heldUnit.map fun i => p.va + BitVec.ofNat 64 (64 * l.line + 8 * i) - BitVec.ofNat 64 p.pa

/-- The lines of the core's L1 that the pieces cover. -/
def Core.linesIn (k : Core) (ps : List Piece) : List Nat := (k.l1.filter fun l => ps.any fun p => p.covers l.line).map fun l => l.line

/-- The L2 lines that a piece covers, at their places (14_near_far_memory.md R413). -/
def Piece.l2Lines (s : State) (p : Piece) : List Nat :=
  ((List.range 17).filter fun i => decide (256 * (p.pa / 256 + i) < p.pa + p.n)).map fun i => s.redirect (256 * (p.pa / 256 + i)) / 256

/-- The L2 lines of a range written back to HBM; where `inval` also invalidated (R293). -/
def State.cleanL2Lines (s : State) (inval : Bool) (ps : List Piece) : State :=
  (ps.flatMap (Piece.l2Lines s)).foldl (fun acc ln => if inval then acc.dropL2 ln else acc.cleanL2 ln) s

/-- The lines given, written back and left valid and clean; where `inval` written back and invalidated. -/
def State.cleanLines (s : State) (inval : Bool) (lines : List Nat) : State :=
  lines.foldl (fun acc ln => if inval then acc.flushLine acc.me.id ln else acc.refreshLine acc.me.id ln) s

/-- cclean and cinval (R293). In the whole form a held unit's address is the physical one (log 46). -/
def State.cacheOp (s : State) (inval : Bool) (a b : BitVec 5) : State :=
  if a = 0#5 then
    match s.me.l1.findSome? fun l => l.heldUnit.map fun i => BitVec.ofNat 64 (64 * l.line + 8 * i) with
    | some u => s.takeFault (.uncorrectable u) u false s.pc
    | none => (s.cleanLines inval (s.me.l1.map fun l => l.line)).adv 4
  else
    let n := min (s.x b).toNat (2 ^ 32)
    match s.pieces (n / 4096 + 2) (s.x a) n with
    | (s1, false, _) => s1
    | (s1, true, ps) =>
      match ps.findSome? s1.me.heldIn with
      | some u => s1.takeFault (.uncorrectable u) u false s.pc
      | none => ((s1.cleanLines inval (s1.me.linesIn ps)).cleanL2Lines inval ps).adv 4

/-- cclean (R293). -/
def execCclean (a b : BitVec 5) (s : State) : Result := .next (s.cacheOp false a b)
/-- cinval (R293). -/
def execCinval (a b : BitVec 5) (s : State) : Result := .next (s.cacheOp true a b)

end Sys2Proof.Machine
end

