-- ==== Sys2Proof/Machine/Compact.lean ====
section
/-!
DEFINITION. The scalar compact instructions: each is the 32-bit instruction of Table 2.8 on the register that ldst names, two bytes
long (02_encoding.md R48 to R50).
-/

namespace Sys2Proof.Machine

/-- A compact form on the x register L that ldst names; ILLEGAL where ldst names a v register (R48). -/
def State.compactX (s : State) (f : BitVec 5 → State) : State :=
  if s.me.ctx.ldst.getLsbD 5 then s.illegal else f (s.me.ctx.ldst.setWidth 5)

/-- A compact form that writes x[L]. -/
def State.compactWrite (s : State) (f : Word → Word) : State := s.compactX fun l => (s.putX l (f (s.x l))).adv 2

/-- c.add (R48). -/
def execCAdd (a : BitVec 5) (s : State) : Result := .next (s.compactWrite fun v => v + s.x a)
/-- c.sub (R48). -/
def execCSub (a : BitVec 5) (s : State) : Result := .next (s.compactWrite fun v => v - s.x a)
/-- c.and (R48). -/
def execCAnd (a : BitVec 5) (s : State) : Result := .next (s.compactWrite fun v => v &&& s.x a)
/-- c.or (R48). -/
def execCOr (a : BitVec 5) (s : State) : Result := .next (s.compactWrite fun v => v ||| s.x a)
/-- c.xor (R48). -/
def execCXor (a : BitVec 5) (s : State) : Result := .next (s.compactWrite fun v => v ^^^ s.x a)
/-- c.mul (R48). -/
def execCMul (a : BitVec 5) (s : State) : Result := .next (s.compactWrite fun v => v * s.x a)
/-- c.addi (R48). -/
def execCAddi (i : BitVec 10) (s : State) : Result := .next (s.compactWrite fun v => v + i.signExtend 64)
/-- c.slli (R48): the amount is 32 × b[0] + a. -/
def execCSlli (a : BitVec 5) (h : BitVec 1) (s : State) : Result := .next (s.compactWrite fun v => v <<< (h ++ a).toNat)
/-- c.srli (R48). -/
def execCSrli (a : BitVec 5) (h : BitVec 1) (s : State) : Result := .next (s.compactWrite fun v => v >>> (h ++ a).toNat)
/-- c.srai (R48). -/
def execCSrai (a : BitVec 5) (h : BitVec 1) (s : State) : Result := .next (s.compactWrite fun v => sra64 v (h ++ a).toNat)

/-- The address of a compact access: x[a] + 8 × b (R48). -/
def State.compactEa (s : State) (a b : BitVec 5) : Word := s.x a + (b.zeroExtend 64 <<< 3)

/-- c.ld (R48). -/
def execCLd (a b : BitVec 5) (s : State) : Result :=
  .next (s.compactX fun l => s.load l (s.compactEa a b) 8 2 extZero)
/-- c.st (R48). -/
def execCSt (a b : BitVec 5) (s : State) : Result :=
  .next (s.compactX fun l => s.store (s.compactEa a b) 8 2 (s.x l))

end Sys2Proof.Machine
end

