-- ==== Sys2Proof/Machine/CopyState.lean ====
section
/-!
DEFINITION. Copy commands in their queue entries: finding them, the steps of strip streams, and the marker of cp.gather
(10_scratchpad_copy.md R311, R312, R322, R323).
-/

namespace Sys2Proof.Machine

/-- A command id (R311). -/
def CopyCmd.id (c : CopyCmd) (k : BitVec 10) : Word := 0#22 ++ k ++ c.entry ++ c.seq

/-- The command in a queue entry of a core. -/
def Core.copy? (k : Core) (entry : BitVec 3) : Option CopyCmd := k.copies.find? fun c => c.entry = entry

/-- The command in a queue entry changed. -/
def Core.updCopy (k : Core) (entry : BitVec 3) (f : CopyCmd → CopyCmd) : Core :=
  { k with copies := k.copies.map fun c => if c.entry = entry then f c else c }

/-- A queue entry freed. -/
def Core.dropCopy (k : Core) (entry : BitVec 3) : Core := { k with copies := k.copies.filter fun c => c.entry ≠ entry }

/-- A command of the coroutine in slot `n`, which still holds that slot. -/
def CopyCmd.ofSlot (c : CopyCmd) (n : BitVec 8) : Bool := c.slot == n && c.issuer == .present

/-- The lowest free queue entry (R312). -/
def Core.freeEntry (k : Core) : Option (BitVec 3) :=
  ((List.range 8).map fun i => BitVec.ofNat 3 i).find? fun i => (k.copy? i).isNone

/-- The chase slot that a copy command claimed (R299, Table 10.7). -/
def CopyCmd.chase? (c : CopyCmd) : Option (BitVec 2) :=
  if c.kind = .tile ∧ c.control.getLsbD 58 then some (c.control.extractLsb' 56 2) else none

/-- Every pointer of a chase slot set to limit − base (R299). -/
def Chase.opened (h : Chase) : Chase := { h with rows := Vector.replicate 32 (h.limit - h.base) }

/-- A chase slot of a core changed. -/
def Core.updChase (k : Core) (n : BitVec 2) (f : Chase → Chase) : Core :=
  { k with chases := k.chases.set n.toNat (f (k.chases[n.toNat]'(n.isLt))) n.isLt }

/-- The chase slots of the commands of the coroutine in slot `n` opened (R299). -/
def Core.openChases (k : Core) (n : BitVec 8) : Core :=
  k.copies.foldl (fun acc c => match c.chase? with
    | some h => if c.ofSlot n then acc.updChase h Chase.opened else acc
    | none => acc) k

/-! ## Strip streams (R322) -/

/-- The number of output streams of a stream command. -/
def CopyCmd.outputs (c : CopyCmd) : Nat := bits c.control 56 55
/-- The number of input streams of a stream command. -/
def CopyCmd.inputs (c : CopyCmd) : Nat := bits c.control 59 57

/-- Whether the marker of the stream's next step has to wait: step k + 2 retires only after output strip k − 1 has been read out of
its slot. -/
def CopyCmd.stepBlocked (c : CopyCmd) : Bool :=
  c.kind == .stream && decide (0 < c.outputs) && decide (3 ≤ c.steps) && decide (c.stripsOut < c.steps - 2)

/-- Whether a vset marker of slot `n` waits for a stream of its coroutine. -/
def Core.stepWaits (k : Core) (n : BitVec 8) : Bool := k.copies.any fun c => c.ofSlot n && c.stepBlocked

/-- A vset marker of slot `n` retired: a step of its stream. -/
def Core.retireStep (k : Core) (n : BitVec 8) : Core :=
  { k with copies := k.copies.map fun c => if c.ofSlot n && c.kind == .stream then { c with steps := c.steps + 1 } else c }

/-! ## The marker of cp.gather (R323) -/

/-- The conflict mask: bit i is 1 when an earlier element of the list is equal. -/
def conflictMask : List Nat → List Nat → Nat
  | _, [] => 0
  | seen, x :: r => (if seen.contains x then 1 else 0) + 2 * conflictMask (x :: seen) r

/-- The command of a gather marker made startable with the indices that it read; one that took its entry since is another command (R311,
R325). -/
def Core.startGather (k : Core) (entry : BitVec 3) (seq : BitVec 29) (indices : List Nat) : Core :=
  k.updCopy entry fun c => if c.state = .marker ∧ c.seq = seq then { c with state := .queued, index := indices } else c

end Sys2Proof.Machine
end

