-- ==== Sys2Proof/Machine/Fabric.lean ====
section
/-!
DEFINITION. The pod fabric as the device sees it from inside: routes, refusals, and what another device answers (16_pod.md R433, R435,
R439, R440, R442; log 15).
-/

namespace Sys2Proof.Machine

/-- What a remote operation is answered: its value, a refusal at ingress, or a failure at the target with its cause code
(16_pod.md R439, R440). -/
inductive Answer where
  | done (v : Word)
  | refused
  | failed (code : BitVec 8)
  deriving DecidableEq, Repr

/-- The cause code of a failure at a target: PAGE_ABSENT, PAGE_PROTECT or MEM_UNCORRECTABLE (16_pod.md R440). -/
def remoteCause (n : Nat) : BitVec 8 := [0x05#8, 0x06#8, 0x08#8].getD (n % 3) 0x06#8

/-- A token operation record that carries nothing but its source, for requests that are no token operation. -/
def State.noOp (s : State) (h : Word) : TokenOp :=
  ⟨0#8, h, 0#64, 0#3, 0#64, false, s.crew, !s.sup, s.devNo, s.me.id, s.slotNum⟩

/-- A request of the running coroutine about a cell of another device. -/
def State.tokenReq (s : State) (kind : RemoteKind) (h operand : Word) : RemoteReq :=
  ⟨kind, s.crew, s.devNo, h, 8#9, operand, 0#64, s.noOp h, 0#2048⟩

/-- What a request asks of a cell of another device, beside the posted forms: fnext, a watch's end, tkread, tkpoll, fut.get and farm
(log 15). -/
inductive CellForm where
  | fnext | unwatch | read | poll | value | farm
  deriving DecidableEq, Repr

/-- The operation code that stands for such a form in a request (log 15). -/
def CellForm.code : CellForm → BitVec 8
  | .fnext => 16#8
  | .unwatch => 17#8
  | .read => 18#8
  | .poll => 19#8
  | .value => 20#8
  | .farm => 21#8

/-- A request for such a form. -/
def State.formReq (s : State) (f : CellForm) (h operand : Word) : RemoteReq :=
  { s.tokenReq .token h operand with op := { s.noOp h with code := f.code } }

/-- A request of the core whose turn it is sent to the device that its address names, and that device's answer: refused here where
there is no route (16_pod.md R435), else what the other device answers (log 15). -/
def State.askRemote (s : State) (r : RemoteReq) : State × Answer :=
  if !s.hasRoute (hDev r.addr) then (s.countRefusal s.me.id, .refused)
  else
    let s1 := { s with podOut := s.podOut ++ [r], fresh := s.fresh + 2 }
    match (Config.remoteOutcome s.fresh).toNat with
    | 0 => (s1, .done (Config.freeWord (s.fresh + 1)))
    | 1 => (s1.countRefusal s.me.id, .refused)
    | n => (s1, .failed (remoteCause n))

/-- Whether an operation to another device must wait for earlier ones of its coroutine to the same device (16_pod.md R443). -/
def State.remoteWaits (s : State) (dev : BitVec 10) : Bool :=
  (s.me.outq.any fun o => o.op.srcSlot == s.slotNum && hDev o.op.handle == dev) || !(s.me.remoteSeqs s.slotNum dev false).isEmpty

/-- A form that asks the home of a cell of another device at once (16_pod.md R435, R439, R443): it waits for its coroutine's earlier
operations to the device, then has the answer: a value, WINDOW_CLOSED or TOKEN_STALE. -/
def State.askCell (s : State) (f : CellForm) (h operand : Word) (done : State → Word → State) (refused stale : State → State) : State :=
  if s.remoteWaits (hDev h) then s
  else
    match s.askRemote (s.formReq f h operand) with
    | (s1, .done v) => done s1 v
    | (s1, .refused) => refused s1
    | (s1, .failed _) => stale s1

/-! ## Sending an operation (08_tokens.md R238, 16_pod.md R435) -/

/-- A token operation on its way to its home: applied on this device; refused where its device has no route, or at the target's ingress,
which the target decides (log 15); else sent to the pod, whose outcome a home on another device reports itself (08_tokens.md R244, 16_pod.md
R432, R435, R442, R451). -/
def State.launchOp (s : State) (op : TokenOp) : State :=
  if hDev op.handle = s.devNo then s.deliverOp op
  else if !s.hasRoute (hDev op.handle) then (s.countRefusal op.srcCore).postedOutcome op 0x0A
  else
    let s1 := { s with podOut := s.podOut ++ [⟨.token, op.crew, s.devNo, op.handle, 8#9, op.operand, 0#64, op, 0#2048⟩], fresh := s.fresh + 1 }
    if Config.remoteOutcome s.fresh = 1#8 then (s1.countRefusal op.srcCore).postedOutcome op 0x0A else s1

end Sys2Proof.Machine
end

