-- ==== Sys2Proof/Machine/Ingress.lean ====
section
/-!
DEFINITION. The ingress of the device: windows, the check of an arriving operation, and what the endpoint then performs (16_pod.md R435
to R441).
-/

namespace Sys2Proof.Machine

/-! ## Windows (R435 to R437) -/

/-- The window index of a remote pointer (R435). -/
def ptrWindow (p : Word) : BitVec 12 := p.extractLsb' 42 12
/-- The offset of a remote pointer (R435). -/
def ptrOffset (p : Word) : Nat := bits p 41 0

/-- A window of the table; a free one is not listed. -/
def State.window? (s : State) (i : BitVec 12) : Option Window := s.windows.find? fun w => w.index = i

/-- A window changed. -/
def State.updWindow (s : State) (i : BitVec 12) (f : Window → Window) : State :=
  { s with windows := s.windows.map fun w => if w.index = i then f w else w }

/-- A sector's admission to a window counted, and its end (R439). -/
def State.countInflight (s : State) (p : Word) (up : Bool) : State :=
  s.updWindow (ptrWindow p) fun w => { w with inflight := if up then w.inflight + 1 else w.inflight - 1 }

/-- The operations in flight through a window: those counted in its entry, and those of running coroutines that have passed its check and wait
at their target (R439, R440). -/
def State.inFlight (s : State) (w : Window) : Nat :=
  w.inflight + (s.cores.filter fun k => (k.passed.map fun p => ptrWindow p == w.index).getD false).length

/-- A window freed. -/
def State.dropWindow (s : State) (i : BitVec 12) : State := { s with windows := s.windows.filter fun w => w.index ≠ i }

/-- Whether a valid peer of a window admits a crew of a device (R436). -/
def Window.admits (w : Window) (crew : BitVec 7) (dev : BitVec 10) : Bool :=
  w.peers.any fun p => p.valid && p.crew == crew && p.first ≤ dev && dev ≤ p.last

/-- The open window that admits `n` bytes of an operation with permission `perm` (R439). -/
def State.admitted (s : State) (perm : Window → Bool) (p : Word) (n : Nat) (crew : BitVec 7) (dev : BitVec 10) : Option Window :=
  match s.window? (ptrWindow p) with
  | none => none
  | some w =>
    if w.state = .opened ∧ perm w ∧ w.admits crew dev ∧ ptrOffset p + n ≤ w.length then some w else none

/-- The window that a token operation, watch or reservation for home core `h` comes through: the open one of lowest index that
opens the core to its issuer (R441). -/
def State.tokenWindow (s : State) (h : BitVec 10) (crew : BitVec 7) (dev : BitVec 10) : Option Window :=
  leastBy (fun a b => a.index < b.index) (s.windows.filter fun w =>
    decide (w.state = .opened) && w.t && decide (w.first.toNat ≤ h.toNat) && decide (h.toNat < w.first.toNat + w.count) &&
      w.admits crew dev)

/-! ## Performing an operation at its target (R440) -/

/-- The space of a crew. -/
def State.crewSpace (s : State) (crew : BitVec 7) : Word :=
  if crew = 0#7 then s.supSpace else ((s.crew? crew).map (·.space)).getD 0#64

/-- The agent that the endpoint is for a window: its owner's space, with a user access's permissions (R440). -/
def State.windowWho (s : State) (w : Window) : Who := ⟨s.crewSpace w.owner, true, w.owner, 0#10⟩

/-- A translation by the endpoint, which holds no core's TLB (R440). -/
def State.translateDirect (s : State) (w : Who) (store : Bool) (va : Word) : State × Translated :=
  if !canonical va || bits w.space 63 60 == 0 then (s, .fault .protect)
  else
    let r := s.translateWalk w store va
    ({ r.1 with movements := s.movements }, r.2)

/-- The cause code of a failure at the target (R440). -/
def MemFault.failCode : MemFault → BitVec 8
  | .misaligned => 0x06#8
  | .protect => 0x06#8
  | .absent _ => 0x05#8
  | .far => 0x06#8
  | .uncorrectable _ => 0x08#8
  | .watch => 0x06#8
  | .wait => 0x06#8

/-- A translation for the endpoint, to which a page in the host window is a failure with cause PAGE_PROTECT (R440); one that the host has
still to answer is asked for and waits (13_address_space.md R379). The access is then made through the page's policy (09_visibility.md R281,
R290); an entry of the walk that is uncorrectable is consumed (14_near_far_memory.md R410). -/
def State.endpointAt (s : State) (a : Who) (store : Bool) (va : Word) : State × Except MemFault Nat :=
  match s.translateDirect a store va with
  | (s1, .fault .far) => ({ s1 with priOut := s.priOut }, .error .protect)
  | (s1, .fault (.uncorrectable u)) => (s1.consumeAt a.core (s1.walkError a va) va.toNat, .error (.uncorrectable u))
  | (s1, .fault f) => (s1, .error f)
  | (s1, .ok pa policy) => if isHost pa then (s1, .error .protect) else (s1.byPolicy pa policy, .ok pa)

/-- Whether a translation waits for the host. -/
def hostWaits (r : Except MemFault Nat) : Bool :=
  match r with
  | .error .wait => true
  | _ => false

/-- A translation for the endpoint in the space of a window's owner. -/
def State.endpointPage (s : State) (w : Window) (store : Bool) (va : Word) : State × Except MemFault Nat :=
  s.endpointAt (s.windowWho w) store va

/-- The virtual address that an operation reaches through a window. -/
def Window.target (w : Window) (p : Word) : Word := w.base + BitVec.ofNat 64 (ptrOffset p)

/-- An uncorrectable unit that the endpoint consumed for a window at its virtual address and place (R440, 14_near_far_memory.md R410). -/
def State.endpointBad (s : State) (va : Word) (pa : Nat) : State × MemFault :=
  (s.consumeAt 0#10 pa va.toNat, badAt va pa (s.unitAt pa))

/-- A remote load performed. -/
def State.endpointLoad (s : State) (w : Window) (p : Word) (n : Nat) : State × Except MemFault Word :=
  match s.endpointPage w false (w.target p) with
  | (s1, .error f) => (s1, .error f)
  | (s1, .ok pa) =>
    if s1.isBad pa n then ((s1.endpointBad (w.target p) pa).1, .error (s1.endpointBad (w.target p) pa).2)
    else (s1, .ok (BitVec.ofNat 64 (s1.physRead pa n)))

/-- The bytes of a sector written in pieces that no 32-byte burst divides. -/
def State.physWriteCuts (s : State) (pa v : Nat) : List (Nat × Nat) → State
  | [] => s
  | (o, n) :: r => (s.physWrite (pa + o) n (v / 256 ^ o % 256 ^ n)).physWriteCuts pa v r

/-- The pieces of `n` bytes from an address that no multiple of `u` divides, as offsets and lengths. -/
def cuts (u a n : Nat) : List (Nat × Nat) :=
  (List.range ((a % u + n + u - 1) / u)).map fun k => (u * k - a % u, min n (u * (k + 1) - a % u) - (u * k - a % u))

/-- A remote store of `n` bytes inside one sector performed. -/
def State.endpointStore (s : State) (w : Window) (p : Word) (n v : Nat) : State × Except MemFault Unit :=
  match s.endpointPage w true (w.target p) with
  | (s1, .error f) => (s1, .error f)
  | (s1, .ok pa) => (s1.physWriteCuts pa v (cuts 32 pa n), .ok ())

/-- The new value of an atomic operation, where one is defined (09_visibility.md Table 9.10). -/
def amoResult (function : BitVec 4) (old x e : Word) : Option Word :=
  match function.toNat with
  | 0 => some (old + x)
  | 1 => some (old &&& x)
  | 2 => some (old ||| x)
  | 3 => some (old ^^^ x)
  | 4 => some (if x.slt old then x else old)
  | 5 => some (if old.slt x then x else old)
  | 6 => some (if x.ult old then x else old)
  | 7 => some (if old.ult x then x else old)
  | 8 => some x
  | _ => if old = e then some x else none

/-- A remote atomic performed. -/
def State.endpointAtomic (s : State) (w : Window) (p : Word) (function : BitVec 4) (x e : Word) : State × Except MemFault Word :=
  match s.endpointPage w true (w.target p) with
  | (s1, .error f) => (s1, .error f)
  | (s1, .ok pa) =>
    if s1.isBad pa 8 then ((s1.endpointBad (w.target p) pa).1, .error (s1.endpointBad (w.target p) pa).2)
    else
      let old : Word := BitVec.ofNat 64 (s1.physRead pa 8)
      (match amoResult function old x e with
        | none => s1
        | some v => s1.physWrite pa 8 v.toNat, .ok old)

end Sys2Proof.Machine
end

