-- ==== Sys2Proof/Machine/CopyPlan.lean ====
section
/-!
DEFINITION. What a copy command moves (10_scratchpad_copy.md R314, R320, R323, 11_multigrid.md R334, 15_complications.md R425,
16_pod.md R449): its destination bytes in enumeration order, its sectors, chunks and units.
-/

namespace Sys2Proof.Machine

/-! ## Runs of bytes -/

/-- A run of bytes: where it is read, where it is written, and its place in the command's enumeration order. -/
structure Run where
  src : Int
  dst : Int
  len : Nat
  pos : Nat
  deriving DecidableEq, Repr

/-- A run cut at sector boundaries of its destination (R314). -/
def Run.split (r : Run) : List Run :=
  (cuts 256 (r.dst % 256).toNat r.len).map fun p => ⟨r.src + p.1, r.dst + p.1, p.2, r.pos + p.1⟩

/-- A run cut at multiples of `u` in what it reads. -/
def Run.cutSrc (u : Nat) (r : Run) : List Run :=
  (cuts u (r.src % u).toNat r.len).map fun p => ⟨r.src + p.1, r.dst + p.1, p.2, r.pos + p.1⟩

/-- A run cut at the accumulators that it writes (12_matrix.md R361). -/
def Run.cutAccs (r : Run) : List Run :=
  (cuts 4 (r.dst % 4).toNat r.len).map fun p => ⟨r.src + p.1, r.dst + p.1, p.2, r.pos + p.1⟩

/-- The sector of a run that lies in one (R314). -/
def Run.sector (r : Run) : Int := r.dst / 256

/-- The bytes of a run from place `lo` up to but not including `hi` of the enumeration order. -/
def Run.clip (lo hi : Nat) (r : Run) : Option Run :=
  let a := max lo r.pos
  let b := min hi (r.pos + r.len)
  if a < b then some ⟨r.src + (a - r.pos), r.dst + (a - r.pos), b - a, a⟩ else none

/-- The sectors that runs touch, in enumeration order. -/
def sectorOrder (rs : List Run) : List Int := (rs.map Run.sector).eraseDups

/-- The place of a sector's last enumerated byte (R315). -/
def lastPlace (rs : List Run) (sector : Int) : Nat :=
  rs.foldl (fun acc r => if r.sector = sector then max acc (r.pos + r.len - 1) else acc) 0

/-! ## Control words (Table 10.7) -/

/-- A doubleword of a command's descriptor. -/
def CopyCmd.dw (c : CopyCmd) (i : Nat) : Word := c.desc.getD i 0#64
/-- The release scope of a command's completions. -/
def CopyCmd.scope (c : CopyCmd) : BitVec 3 := c.control.extractLsb' 61 3
/-- The seq bit. -/
def CopyCmd.seqBit (c : CopyCmd) : Bool := c.control.getLsbD 60
/-- The barrier that a command's sectors are reported to, or 0; a stream's are reported to obar (R322). -/
def CopyCmd.barrier (c : CopyCmd) : Word :=
  match c.kind with
  | .stream => c.dw 3
  | .remote => 0#64
  | .send => 0#64
  | .tile => c.dw 1
  | .gather => c.dw 1
  | .grid => c.dw 1
  | .kvs => c.dw 1
/-- The bytes of a chunk: 256 × 2^sz (R314). -/
def CopyCmd.chunk (c : CopyCmd) : Nat := 256 * 2 ^ bits c.control 51 48

/-! ## Rows -/

/-- The length of a box's dimension `k` (Table 10.8). -/
def boxLen (d : List Word) (k : Nat) : Nat :=
  match k with
  | 0 => bits (d.getD 4 0#64) 31 0
  | 1 => bits (d.getD 4 0#64) 47 32
  | _ => bits (d.getD 4 0#64) 63 48

/-- The stride of dimension 1 or 2 in a strides doubleword (Table 10.8). -/
def strideOf (w : Word) (k : Nat) : Int := (w.extractLsb' (32 * (k - 1)) 32).toInt

/-- The rows of a box, in enumeration order (R320). -/
def boxRows (d : List Word) : List Run :=
  (List.range (boxLen d 2)).flatMap fun (i2 : Nat) => (List.range (boxLen d 1)).map fun (i1 : Nat) =>
    ⟨((d.getD 2 0#64).toNat : Int) + i1 * strideOf (d.getD 5 0#64) 1 + i2 * strideOf (d.getD 5 0#64) 2,
     ((d.getD 3 0#64).toNat : Int) + i1 * strideOf (d.getD 6 0#64) 1 + i2 * strideOf (d.getD 6 0#64) 2,
     boxLen d 0, (i2 * boxLen d 1 + i1) * boxLen d 0⟩

/-- The size of a gather's elements (R323). -/
def CopyCmd.gatherSize (c : CopyCmd) : Nat := 2 ^ bits c.control 25 24

/-- The elements of a gather (R323). -/
def CopyCmd.gatherRows (c : CopyCmd) : List Run :=
  (List.range c.index.length).map fun i =>
    ⟨((c.dw 2).toNat + c.index.getD i 0 * c.gatherSize : Nat), ((c.dw 3).toNat + i * c.gatherSize : Nat), c.gatherSize, i * c.gatherSize⟩

/-! ## Grids (11_multigrid.md Table 11.1) -/

/-- A grid descriptor. -/
structure Grid where
  base : Word
  nx : Nat
  ny : Nat
  nz : Nat
  type : Nat
  space : Nat
  sparse : Bool
  ystride : Int
  zstride : Int
  reserved : Bool
  deriving DecidableEq, Repr

/-- A grid descriptor of four doublewords, from doubleword `i` of a descriptor. -/
def gridAt (d : List Word) (i : Nat) : Grid :=
  let shape := d.getD (i + 1) 0#64
  let strides := d.getD (i + 2) 0#64
  { base := d.getD i 0#64, nx := bits shape 15 0, ny := bits shape 31 16, nz := bits shape 47 32, type := bits shape 52 48,
    space := bits shape 54 53, sparse := shape.getLsbD 55, ystride := (strides.extractLsb' 0 32).toInt,
    zstride := (strides.extractLsb' 32 32).toInt, reserved := bits shape 63 56 != 0 || d.getD (i + 3) 0#64 != 0#64 }

/-- The size of a grid's elements (R327). -/
def Grid.size (g : Grid) : Nat :=
  match g.type with
  | 8 => 8
  | 9 => 4
  | 10 => 2
  | 11 => 2
  | _ => 1

/-- The byte position of a point (R327). -/
def Grid.point (g : Grid) (i j k : Nat) : Int := (g.base.toNat : Int) + (i * g.size : Nat) + j * g.ystride + k * g.zstride

/-- The destination grid of a multigrid command: the coarse level of a restriction, the fine level of a prolongation (R330). -/
def CopyCmd.gridTo (c : CopyCmd) : Grid := gridAt c.desc (if c.control.getLsbD 31 then 4 else 8)
/-- The source grid of a multigrid command. -/
def CopyCmd.gridFrom (c : CopyCmd) : Grid := gridAt c.desc (if c.control.getLsbD 31 then 8 else 4)

/-- The rows of a destination grid, point by point in linear order (R334). -/
def gridRows (g : Grid) : List Run :=
  (List.range g.nz).flatMap fun k => (List.range g.ny).map fun j =>
    ⟨0, g.point 0 j k, g.nx * g.size, (k * g.ny + j) * g.nx * g.size⟩

/-! ## Key and value streams (15_complications.md Table 15.3) -/

/-- The bytes of a head. -/
def CopyCmd.headBytes (c : CopyCmd) : Nat := 256 * bits (c.dw 6) 8 0
/-- The heads of an entry. -/
def CopyCmd.heads (c : CopyCmd) : Nat := bits (c.dw 6) 22 16
/-- The first head. -/
def CopyCmd.firstHead (c : CopyCmd) : Nat := bits (c.dw 6) 47 32
/-- The bytes of an entry (R425). -/
def CopyCmd.entryBytes (c : CopyCmd) : Nat := c.heads * c.headBytes
/-- The first entry to fetch. -/
def CopyCmd.firstEntry (c : CopyCmd) : Nat := bits (c.dw 5) 9 0
/-- The number of entries from the first (R425). -/
def CopyCmd.entries (c : CopyCmd) : Nat := bits (c.dw 4) 41 32 - c.firstEntry

/-- The heads of entry `j` from the page at `page`, cut into sectors (R425). -/
def CopyCmd.entryRuns (c : CopyCmd) (j : Nat) (page : Nat) : List Run :=
  (List.range c.heads).flatMap fun i => Run.split
    ⟨(page + (c.dw 8).toNat + (c.firstHead + i) * bits (c.dw 7) 31 0 : Nat),
     ((c.dw 9).toNat + j * c.entryBytes + i * c.headBytes : Nat), c.headBytes, j * c.entryBytes + i * c.headBytes⟩

/-! ## Units (R314) -/

/-- The destination bytes of a command whose places are fixed at acceptance, cut into sectors; a run that reads the tile store stays inside one
physical unit (12_matrix.md R344). -/
def CopyCmd.runs (c : CopyCmd) : List Run :=
  match c.kind with
  | .tile =>
    let rs := (boxRows c.desc).flatMap Run.split
    if bits c.control 31 30 = 2 then rs.flatMap (Run.cutSrc 32768) else rs
  | .gather => c.gatherRows.flatMap Run.split
  | .grid => (gridRows c.gridTo).flatMap Run.split
  | .remote => Run.split ⟨(c.dw 1).toNat, bits (c.dw 0) 41 0, (c.dw 2).toNat, 0⟩
  | .send => Run.split ⟨(c.dw 0).toNat, (c.dw 6).toNat, bits (c.dw 1) 23 0, 0⟩
  | .kvs => []
  | .stream => []

/-- The destination bytes of a command. -/
def runsTotal (rs : List Run) : Nat := rs.foldl (fun acc r => acc + r.len) 0

/-- The number of units of a command: its chunks where a completion mask is named, its entries for cp.kvs, else its sectors (R314,
15_complications.md R425). -/
def CopyCmd.unitCount (c : CopyCmd) : Nat :=
  if c.kind = .kvs then c.entries
  else if c.mask?.isSome then (runsTotal c.runs + c.chunk - 1) / c.chunk
  else (sectorOrder c.runs).length

/-- The runs of unit `j`. -/
def CopyCmd.unitRuns (c : CopyCmd) (j : Nat) : List Run :=
  if c.mask?.isSome then c.runs.filterMap (Run.clip (j * c.chunk) ((j + 1) * c.chunk))
  else match (sectorOrder c.runs)[j]? with
    | none => []
    | some k => c.runs.filter fun r => r.sector = k

/-- Whether no unit of a cp.tile command divides an accumulator that it reads or writes (12_matrix.md R361). -/
def CopyCmd.wholeAccs (c : CopyCmd) : Bool :=
  c.runs.all fun r => (bits c.control 31 30 != 2 || r.src % 4 == 0) && (bits c.control 29 28 != 2 || r.dst % 4 == 0) && r.len % 4 == 0

/-- The first unit that writes bytes of an accumulator. -/
def CopyCmd.firstWriter (c : CopyCmd) (acc : Int) : Nat :=
  ((List.range c.unitCount).find? fun j => (c.unitRuns j).any fun r => decide (r.dst < 4 * acc + 4) && decide (4 * acc < r.dst + r.len)).getD 0

/-- What unit `j` of a cp.tile command writes so that no accumulator is written in parts: those of which it is the first to write bytes
(12_matrix.md R361). -/
def CopyCmd.accRuns (c : CopyCmd) (j : Nat) : List Run :=
  if bits c.control 29 28 ≠ 2 then c.unitRuns j
  else
    ((List.range c.unitCount).filter fun k => j ≤ k).flatMap fun k =>
      ((c.unitRuns k).flatMap Run.cutAccs).filter fun r => c.firstWriter (r.dst / 4) = j

/-- The number of sector operations of unit `j`: the sectors whose last enumerated byte lies in it (R315). -/
def CopyCmd.unitReports (c : CopyCmd) (j : Nat) : Nat :=
  if c.kind = .kvs then c.entryBytes / 256
  else if c.mask?.isSome then ((sectorOrder c.runs).filter fun k => lastPlace c.runs k / c.chunk = j).length
  else 1

/-! ## Strips (R322) -/

/-- The application vector length of a stream. -/
def CopyCmd.avl (c : CopyCmd) : Nat := (c.dw 1).toNat
/-- The strip length. -/
def CopyCmd.slen (c : CopyCmd) : Nat := bits c.control 35 20
/-- The number of strips. -/
def CopyCmd.strips (c : CopyCmd) : Nat := (c.avl + c.slen - 1) / c.slen
/-- The element size of stream `i`: in0 to in3 are 0 to 3, out0 and out1 are 4 and 5 (Table 10.10). -/
def CopyCmd.elemSize (c : CopyCmd) (i : Nat) : Nat := 2 ^ bits c.control (37 + 2 * i) (36 + 2 * i)
/-- The streams that are present, in the order of their ring slots. -/
def CopyCmd.streams (c : CopyCmd) : List Nat := List.range c.inputs ++ (List.range c.outputs).map (4 + ·)
/-- The bytes of one ring slot of stream `i`. -/
def CopyCmd.slotBytes (c : CopyCmd) (i : Nat) : Nat := 256 * ((c.slen * c.elemSize i + 255) / 256)
/-- The bytes of the ring. -/
def CopyCmd.ringBytes (c : CopyCmd) : Nat := c.streams.foldl (fun acc i => acc + 3 * c.slotBytes i) 0
/-- The scratchpad offset of the slot of stream `i` that strip `k` uses. -/
def CopyCmd.slotOf (c : CopyCmd) (i k : Nat) : Nat :=
  (c.dw 4).toNat + (c.streams.takeWhile (· ≠ i)).foldl (fun acc j => acc + 3 * c.slotBytes j) 0 + k % 3 * c.slotBytes i
/-- The number of elements of strip `k`. -/
def CopyCmd.stripLen (c : CopyCmd) (k : Nat) : Nat := min c.avl ((k + 1) * c.slen) - k * c.slen
/-- The base address of stream `i`. -/
def CopyCmd.streamBase (c : CopyCmd) (i : Nat) : Nat := (c.dw (5 + i)).toNat

/-- The input pieces of strip `k`, cut at the sectors of the scratchpad. -/
def CopyCmd.inputRuns (c : CopyCmd) (k : Nat) : List Run :=
  (List.range c.inputs).flatMap fun i => Run.split
    ⟨(c.streamBase i + k * c.slen * c.elemSize i : Nat), (c.slotOf i k : Nat), c.stripLen k * c.elemSize i, 0⟩

/-- The output pieces of strip `k` with their streams, cut at the sectors of memory. -/
def CopyCmd.outputRuns (c : CopyCmd) (k : Nat) : List (Nat × Run) :=
  (List.range c.outputs).flatMap fun j =>
    (Run.split ⟨(c.slotOf (4 + j) k : Nat), (c.streamBase (4 + j) + k * c.slen * c.elemSize (4 + j) : Nat),
      c.stripLen k * c.elemSize (4 + j), 0⟩).map fun r => (4 + j, r)

/-- Whether bytes of output stream `i` from element `e` on touch a sector. -/
def CopyCmd.touchesFrom (c : CopyCmd) (i e : Nat) (sector : Int) : Bool :=
  decide (e < c.avl) && decide (((c.streamBase i + e * c.elemSize i : Nat) : Int) < (sector + 1) * 256) &&
    decide (sector * 256 < ((c.streamBase i + c.avl * c.elemSize i : Nat) : Int))

/-- Whether a piece of stream `i` in strip `k` is the last that its sector receives (R315). -/
def CopyCmd.lastOfSector (c : CopyCmd) (i k : Nat) (sector : Int) : Bool :=
  (List.range c.outputs).all fun j =>
    !c.touchesFrom (4 + j) ((if 4 + j ≤ i then k + 1 else k) * c.slen) sector

/-- The sectors of an output stream, as the first and the number. -/
def CopyCmd.outputSpan (c : CopyCmd) (i : Nat) : Nat × Nat :=
  let lo := c.streamBase i / 256
  (lo, (c.streamBase i + c.avl * c.elemSize i + 255) / 256 - lo)

/-- The number of sectors that the output streams touch. -/
def CopyCmd.outputSectors (c : CopyCmd) : Nat :=
  let a := if 1 ≤ c.outputs then c.outputSpan 4 else (0, 0)
  let b := if 2 ≤ c.outputs then c.outputSpan 5 else (0, 0)
  a.2 + b.2 - (min (a.1 + a.2) (b.1 + b.2) - max a.1 b.1)

/-- The sector count S of a command (R314, R322, 15_complications.md R425). -/
def CopyCmd.sectorCount (c : CopyCmd) : Nat :=
  match c.kind with
  | .stream => c.outputSectors
  | .kvs => c.entries * (c.entryBytes / 256)
  | .tile => (sectorOrder c.runs).length
  | .gather => (sectorOrder c.runs).length
  | .grid => (sectorOrder c.runs).length
  | .remote => (sectorOrder c.runs).length
  | .send => (sectorOrder c.runs).length

/-! ## Tile units (12_matrix.md R344, R364) -/

/-- The tile numbers that a box reaches in one of its spaces. -/
def boxTiles (toDst : Bool) (d : List Word) : List Nat :=
  ((boxRows d).flatMap fun r =>
    let a := (if toDst then r.dst else r.src).toNat
    (List.range ((a % 32768 + r.len + 32767) / 32768)).map fun k => a / 32768 + k).eraseDups

/-- The tile numbers that a cp.tile command's tile-store ranges reach (R320). -/
def tilesReached (control : Word) (d : List Word) : List Nat :=
  (if bits control 31 30 = 2 then boxTiles false d else []) ++ (if bits control 29 28 = 2 then boxTiles true d else [])

/-- The physical units that an accepted command's tile-store ranges touch (R344, R364). -/
def CopyCmd.unitsTouched (c : CopyCmd) : List (BitVec 3) :=
  if c.kind = .tile then (tilesReached c.control c.desc).filterMap fun k => c.units[k]? else []

end Sys2Proof.Machine
end

