-- ==== Sys2Proof/Machine/Grant.lean ====
section
/-!
DEFINITION. The tile store's units: release, and the free pool (12_matrix.md R341 to R346).
-/

namespace Sys2Proof.Machine

/-- The issue count: the units of the grant that no mdetach issued so far on the core will release, those held in the vector queue frames of
its slots among them (R343, R358). -/
def State.issueCount (s : State) : Nat :=
  ((s.me.slots.filter fun t => t.state != .running).foldl (fun acc t => acc ++ t.ctx.mq) s.me.ctx.mq).foldl (fun acc e => match e.op with
    | .detach n => acc - min n.toNat acc
    | _ => acc) s.me.grant.length

/-- A core's grant after its units from the `keep`-th on are released; they are zeroed before they are free (R346). -/
def State.releaseUnits (s : State) (core : BitVec 10) (keep : Nat) : State :=
  let k := s.coreAt core
  let gone := k.grant.drop keep
  (s.setCore { k with grant := k.grant.take keep }).updMov (movOf core) fun v =>
    { v with
      owner := Vector.ofFn fun i => if gone.contains (BitVec.ofNat 3 i.val) then none else v.owner[i]
      freeing := v.freeing ++ gone }

/-- The matrix state of a core cleared: its grant released, its latches zero and mshape at its reset value (07_coroutines.md R228,
R348, R351). -/
def State.clearMatrix (s : State) (core : BitVec 10) : State :=
  (s.releaseUnits core 0).updCore core fun k =>
    { k with latches := Vector.replicate 2 ⟨0#131072, 0#8192, false⟩, mshape := 0x8000000000000000#64 }

end Sys2Proof.Machine
end

