-- ==== Sys2Proof/Machine/TileStore.lean ====
section
/-!
DEFINITION. The bytes of the tile store (12_matrix.md R341, R344, R360).
-/

namespace Sys2Proof.Machine

/-- `n` bytes of a unit from offset `o`. -/
def Movement.readTile (v : Movement) (unit : BitVec 3) (o n : Nat) : Nat :=
  ((v.rows[unit.toNat]'(unit.isLt)).extractLsb' (8 * o) (8 * n)).toNat

/-- Whether an uncorrectable accumulator entry lies among `n` bytes of a unit; entry a of unit u is 8,192 × u + a (R360). -/
def tileHit (unit : BitVec 3) (o n bad : Nat) : Bool :=
  decide (bad / 8192 = unit.toNat) && decide (4 * (bad % 8192) < o + n) && decide (o < 4 * (bad % 8192) + 4)

/-- Whether `n` bytes of a unit touch an uncorrectable accumulator (R360). -/
def Movement.tileBad (v : Movement) (unit : BitVec 3) (o n : Nat) : Bool := v.bad.any (tileHit unit o n)

/-- `n` bytes of a unit written, which clears the uncorrectable condition of the accumulators written (R360). -/
def Movement.writeTile (v : Movement) (unit : BitVec 3) (o n value : Nat) : Movement :=
  let m : BitVec 262144 := BitVec.ofNat 262144 ((256 ^ n - 1) * 2 ^ (8 * o))
  let data := ((v.rows[unit.toNat]'(unit.isLt)) &&& ~~~m) ||| (BitVec.ofNat 262144 (value % 256 ^ n * 2 ^ (8 * o)))
  { v with rows := v.rows.set unit.toNat data unit.isLt, bad := v.bad.filter fun b => !tileHit unit o n b }

/-- The name of an accumulator in eaddr: 2^63 and its grant offset (R360). -/
def tileEaddr (offset : Nat) : Word := 0x8000000000000000#64 + BitVec.ofNat 64 offset

end Sys2Proof.Machine
end

