-- ==== Sys2Proof/Machine/Channel.lean ====
section
/-!
DEFINITION. A copy channel's accesses (10_scratchpad_copy.md R298, R315 to R317, 09_visibility.md R280): reading and writing a run of
bytes in memory, the issuing core's scratchpad or the tile store, and what stops it.
-/

namespace Sys2Proof.Machine

/-! ## Stops -/

/-- What halts a channel: a translation that the host has still to answer, or a fault with its cause, the arena of an arena fault,
its address and direction (R316). -/
inductive Halt where
  | wait
  | fault (cause : BitVec 8) (arena : Option (BitVec 4)) (addr : Word) (store : Bool)
  deriving DecidableEq, Repr

/-- A memory fault of a channel's access at an address (R316, 07_coroutines.md Table 7.9). -/
def MemFault.halt (f : MemFault) (va : Word) (store : Bool) : Halt :=
  match f with
  | .misaligned => .fault 0x03#8 none va store
  | .protect => .fault 0x06#8 none va store
  | .absent a => .fault 0x05#8 a va store
  | .far => .fault 0x07#8 none va store
  | .uncorrectable a => .fault 0x08#8 none a store
  | .watch => .fault 0x10#8 none va store
  | .wait => .wait

/-! ## Places -/

/-- A byte's place: a virtual address, an offset of the issuing core's scratchpad, or a physical tile unit, the offset in it and the
grant offset. -/
inductive Place where
  | mem (va : Word)
  | pad (offset : Nat)
  | tile (unit : BitVec 3) (offset grant : Nat)
  deriving DecidableEq, Repr

/-- The place that an address of a space names (Table 10.7; 12_matrix.md R344). -/
def placeOf (units : List (BitVec 3)) (space : Nat) (a : Int) : Place :=
  match space with
  | 0 => .mem (BitVec.ofInt 64 a)
  | 1 => .pad a.toNat
  | _ => .tile (units.getD (a.toNat / 32768) 0#3) (a.toNat % 32768) a.toNat

/-- The window address of a scratchpad offset of a core (R298). -/
def padEaddr (core : BitVec 10) (o : Nat) : Word := BitVec.ofNat 64 (scratchAddr core o)

/-- Whether the scratchpad refuses an agent's access at an offset of its core (R298, 08_tokens.md R229). -/
def State.padRefused (s : State) (w : Who) (o : Nat) : Bool := w.user && (decide (o < 0x10000) || !s.boundTo w.core w.crew)

/-- One byte read by a channel. -/
def State.placeByte (s : State) (w : Who) (p : Place) (i : Nat) : State × Except Halt Nat :=
  match p with
  | .mem va =>
    match s.copyRead w (va + BitVec.ofNat 64 i) 1 with
    | (s1, .fault f) => (s1, .error (f.halt (va + BitVec.ofNat 64 i) false))
    | (s1, .ok v) => (s1, .ok v)
  | .pad o =>
    if s.padRefused w (o + i) then (s, .error (.fault 0x06#8 none (padEaddr w.core (o + i)) false))
    else
      match s.homeRead (padEaddr w.core (o + i)) (scratchAddr w.core (o + i)) 1 with
      | .fault f => (s, .error (f.halt (padEaddr w.core (o + i)) false))
      | .ok v => (s, .ok v)
  | .tile u o g =>
    let v := s.movAt (movOf w.core)
    if v.tileBad u (o + i) 1 then (s, .error (.fault 0x08#8 none (tileEaddr ((g + i) / 4 * 4)) false))
    else (s, .ok (v.readTile u (o + i) 1))

/-- Bytes `i` to `i + n − 1` of a place as a little-endian number. -/
def State.placeRead (s : State) (w : Who) (p : Place) : Nat → Nat → State × Except Halt Nat
  | _, 0 => (s, .ok 0)
  | i, n + 1 =>
    match s.placeByte w p i with
    | (s1, .error h) => (s1, .error h)
    | (s1, .ok b) =>
      match s1.placeRead w p (i + 1) n with
      | (s2, .error h) => (s2, .error h)
      | (s2, .ok r) => (s2, .ok (b + 256 * r))

/-- Pieces of a run written to memory, each inside a 32-byte burst: offset and length of each. -/
def State.burstWrites (s : State) (w : Who) (va : Word) (v : Nat) : List (Nat × Nat) → State × Option Halt
  | [] => (s, none)
  | (o, n) :: r =>
    match s.copyWrite w (va + BitVec.ofNat 64 o) n (v / 256 ^ o % 256 ^ n) with
    | (s1, .fault f) => (s1, some (f.halt (va + BitVec.ofNat 64 o) true))
    | (s1, .ok) => s1.burstWrites w va v r

/-- Pieces of a run written to the issuing core's scratchpad. -/
def State.padWrites (s : State) (w : Who) (o v : Nat) : List (Nat × Nat) → State × Option Halt
  | [] => (s, none)
  | (i, n) :: r =>
    if s.padRefused w (o + i) then (s, some (.fault 0x06#8 none (padEaddr w.core (o + i)) true))
    else (s.engineWrite w.core (scratchAddr w.core (o + i)) n (v / 256 ^ i % 256 ^ n) 2#2).padWrites w o v r

/-- `n` bytes written at a place. -/
def State.placeWrite (s : State) (w : Who) (p : Place) (n v : Nat) : State × Option Halt :=
  match p with
  | .mem va => s.burstWrites w va v (cuts 32 va.toNat n)
  | .pad o => s.padWrites w o v (cuts 32 o n)
  | .tile u o _ => (s.updMov (movOf w.core) fun m => m.writeTile u o n v, none)

/-- A run's bytes moved. -/
def State.moveRun (s : State) (w : Who) (src dst : Place) (n : Nat) : State × Option Halt :=
  match s.placeRead w src 0 n with
  | (s1, .error h) => (s1, some h)
  | (s1, .ok v) => s1.placeWrite w dst n v

/-- Runs moved in order between two spaces; the first halt ends it (R316). -/
def State.moveRuns (s : State) (w : Who) (units : List (BitVec 3)) (from_ dest : Nat) : List Run → State × Option Halt
  | [] => (s, none)
  | r :: rest =>
    match s.moveRun w (placeOf units from_ r.src) (placeOf units dest r.dst) r.len with
    | (s1, some h) => (s1, some h)
    | (s1, none) => s1.moveRuns w units from_ dest rest

/-- The agent that a channel is for a command of core `k` (R298, 13_address_space.md R376). -/
def CopyCmd.who (c : CopyCmd) (k : BitVec 10) : Who := ⟨c.space, !supSlot c.slot, c.crew, k⟩

end Sys2Proof.Machine
end

