-- ==== Sys2Proof/Machine/Numbers.lean ====
section
/-!
DEFINITION. Number formats and arithmetic rules (03_numbers.md): formats, decoding, rounding, overflow and saturation,
conversions, exact operations and exact sums.
-/

namespace Sys2Proof.Machine

/-! ## Element types and formats -/

/-- The floating formats of Table 3.1. -/
inductive FloatFmt where
  | f64 | f32 | bf16 | f16 | e5m2 | e4m3 | e3m2 | e2m3 | e2m1
  deriving DecidableEq, Repr

/-- What an element type code names (02_encoding.md Table 2.7). -/
inductive Elem where
  | int (signed : Bool) (width : Nat)
  | float (f : FloatFmt)
  | lns6
  | e8m0
  deriving DecidableEq, Repr

/-- The element type of a code; a reserved code names none (02_encoding.md Table 2.7). -/
def elemOf (code : Nat) : Option Elem :=
  match code with
  | 0 => some (.int true 8) | 1 => some (.int true 16) | 2 => some (.int true 32) | 3 => some (.int true 64)
  | 4 => some (.int false 8) | 5 => some (.int false 16) | 6 => some (.int false 32) | 7 => some (.int false 64)
  | 8 => some (.float .f64) | 9 => some (.float .f32) | 10 => some (.float .bf16) | 11 => some (.float .f16)
  | 12 => some (.float .e5m2) | 13 => some (.float .e4m3) | 14 => some (.float .e3m2) | 15 => some (.float .e2m3)
  | 16 => some (.float .e2m1) | 17 => some .lns6 | 18 => some .e8m0
  | _ => none

/-- The exponent width (Table 3.1). -/
def FloatFmt.expBits : FloatFmt → Nat
  | .f64 => 11 | .f32 => 8 | .bf16 => 8 | .f16 => 5 | .e5m2 => 5 | .e4m3 => 4 | .e3m2 => 3 | .e2m3 => 2 | .e2m1 => 2

/-- The mantissa width (Table 3.1). -/
def FloatFmt.manBits : FloatFmt → Nat
  | .f64 => 52 | .f32 => 23 | .bf16 => 7 | .f16 => 10 | .e5m2 => 2 | .e4m3 => 3 | .e3m2 => 2 | .e2m3 => 3 | .e2m1 => 1

/-- The exponent bias (Table 3.1). -/
def FloatFmt.bias : FloatFmt → Nat
  | .f64 => 1023 | .f32 => 127 | .bf16 => 127 | .f16 => 15 | .e5m2 => 15 | .e4m3 => 7 | .e3m2 => 3 | .e2m3 => 1 | .e2m1 => 1

/-- The encoding of the largest finite magnitude (Table 3.1). -/
def FloatFmt.largest : FloatFmt → Nat
  | .f64 => 0x7FEFFFFFFFFFFFFF | .f32 => 0x7F7FFFFF | .bf16 => 0x7F7F | .f16 => 0x7BFF | .e5m2 => 0x7B | .e4m3 => 0x7E
  | .e3m2 => 0x1F | .e2m3 => 0x1F | .e2m1 => 0x7

/-- The canonical NaN of a format that has one (R70); e3m2, e2m3 and e2m1 give +0 (Table 3.8). -/
def FloatFmt.nan : FloatFmt → Nat
  | .f64 => 0x7FF8000000000000 | .f32 => 0x7FC00000 | .bf16 => 0x7FC0 | .f16 => 0x7E00 | .e5m2 => 0x7E | .e4m3 => 0x7F
  | .e3m2 => 0 | .e2m3 => 0 | .e2m1 => 0

/-- Whether the format has infinities (Table 3.1). -/
def FloatFmt.hasInf : FloatFmt → Bool
  | .f64 => true | .f32 => true | .bf16 => true | .f16 => true | .e5m2 => true
  | .e4m3 => false | .e3m2 => false | .e2m3 => false | .e2m1 => false

/-- Whether the format has no infinity and no NaN, and so always saturates (Table 3.8). -/
def FloatFmt.saturates : FloatFmt → Bool
  | .e3m2 => true | .e2m3 => true | .e2m1 => true
  | .f64 => false | .f32 => false | .bf16 => false | .f16 => false | .e5m2 => false | .e4m3 => false

/-- The class of a format in fcr's ftz and daz fields: 0 f32 and f64, 1 f16 and bf16, 2 narrow (Table 3.5). -/
def FloatFmt.cls : FloatFmt → Nat
  | .f64 => 0 | .f32 => 0 | .bf16 => 1 | .f16 => 1 | .e5m2 => 2 | .e4m3 => 2 | .e3m2 => 2 | .e2m3 => 2 | .e2m1 => 2

/-- The sign bit of an encoding of negative sign. -/
def FloatFmt.sign (f : FloatFmt) (neg : Bool) : Nat := if neg then 2 ^ (f.expBits + f.manBits) else 0

/-- The encoding of an infinity, in a format that has one. -/
def FloatFmt.inf (f : FloatFmt) (neg : Bool) : Nat := f.sign neg + (2 ^ f.expBits - 1) * 2 ^ f.manBits

/-- The exponent of the smallest normal number. -/
def FloatFmt.emin (f : FloatFmt) : Int := 1 - (f.bias : Int)

/-- fcr's ftz bit of a format's class. -/
def fcrFtz (fcr : Word) (f : FloatFmt) : Bool := fcr.getLsbD (5 + f.cls)

/-- fcr's daz bit of a format's class. -/
def fcrDaz (fcr : Word) (f : FloatFmt) : Bool := fcr.getLsbD (8 + f.cls)

/-- The container width of an element in bits (R68, Table 5.1). -/
def Elem.width : Elem → Nat
  | .int _ w => w
  | .float .f64 => 64 | .float .f32 => 32 | .float .bf16 => 16 | .float .f16 => 16
  | .float .e5m2 => 8 | .float .e4m3 => 8 | .float .e3m2 => 8 | .float .e2m3 => 8 | .float .e2m1 => 4
  | .lns6 => 8
  | .e8m0 => 8

/-- The pad value of an element type (R66, R67, R69, Table 3.1). -/
def Elem.pad : Elem → Nat
  | .e8m0 => 0x7F
  | .int _ _ => 0
  | .float _ => 0
  | .lns6 => 0

/-! ## Values -/

/-- The value of an encoding: a NaN, an infinity, or (−1)^neg × man × 2^exp (R65). -/
inductive Num where
  | nan (signalling : Bool)
  | inf (neg : Bool)
  | fin (neg : Bool) (man : Nat) (exp : Int)
  deriving DecidableEq, Repr

/-- The value a format gives an encoding; with `daz` a subnormal reads as zero of its sign (R65, R79). -/
def FloatFmt.read (f : FloatFmt) (daz : Bool) (bits : Nat) : Num :=
  let m := bits % 2 ^ f.manBits
  let e := (bits >>> f.manBits) % 2 ^ f.expBits
  let neg := bits.testBit (f.expBits + f.manBits)
  if f.hasInf ∧ e = 2 ^ f.expBits - 1 then
    if m = 0 then .inf neg else .nan (!m.testBit (f.manBits - 1))
  else if f = .e4m3 ∧ e = 15 ∧ m = 7 then .nan false
  else if e = 0 then .fin neg (if daz then 0 else m) (f.emin - f.manBits)
  else .fin neg (2 ^ f.manBits + m) ((e : Int) - f.bias - f.manBits)

/-- An encoding with its subnormals read as zero when `daz` is set. -/
def FloatFmt.dazBits (f : FloatFmt) (daz : Bool) (bits : Nat) : Nat :=
  if daz ∧ (bits >>> f.manBits) % 2 ^ f.expBits = 0 then
    f.sign (bits.testBit (f.expBits + f.manBits))
  else bits % 2 ^ (f.expBits + f.manBits + 1)

/-- T[f] of the linearisation table (R67, Table 3.4). -/
def lnsTable (f : Nat) : Nat :=
  match f with
  | 0 => 8388608
  | 1 => 9975792
  | 2 => 11863283
  | _ => 14107901

/-- The magnitude T[f] × 2^(e − 23) of 2^(s/4) with s = 4e + f (R67, R90). -/
def lnsMagnitude (s : Int) : Nat × Int := (lnsTable (s % 4).toNat, s / 4 - 23)

/-- The value of an lns6 code (R67). -/
def lnsRead (code : Nat) : Num :=
  let l := code % 32
  if l = 0 then .fin false 0 0
  else .fin (code.testBit 5) (lnsMagnitude ((l : Int) - 16)).1 (lnsMagnitude ((l : Int) - 16)).2

/-- The value of an e8m0 code (R66). -/
def e8Read (code : Nat) : Num :=
  if code % 256 = 255 then .nan false else .fin false 1 ((code % 256 : Nat) - 127)

/-- The exact value of a signed integer. -/
def intNum (x : Int) : Num := .fin (x < 0) x.natAbs 0

/-- The integer that the low `w` bits encode. -/
def intRead (signed : Bool) (w : Nat) (bits : Nat) : Int :=
  let b := bits % 2 ^ w
  if signed ∧ 2 ^ (w - 1) ≤ b then (b : Int) - 2 ^ w else b

/-- The low `w` bits of an integer. -/
def intBits (w : Nat) (x : Int) : Nat := (x % (2 ^ w : Nat)).toNat

/-- The bounds of an integer type. -/
def intLo (signed : Bool) (w : Nat) : Int := if signed then -(2 ^ (w - 1) : Nat) else 0
/-- The upper bound of an integer type. -/
def intHi (signed : Bool) (w : Nat) : Int := if signed then (2 ^ (w - 1) : Nat) - 1 else (2 ^ w : Nat) - 1

/-- The value of an element; `fcr` supplies the daz bits (R65 to R68, R79). -/
def Elem.read (t : Elem) (fcr : Word) (bits : Nat) : Num :=
  match t with
  | .int s w => intNum (intRead s w bits)
  | .float f => f.read (fcrDaz fcr f) bits
  | .lns6 => lnsRead bits
  | .e8m0 => e8Read bits

/-! ## Rounding -/

/-- A magnitude man × 2^exp, or above it by less than 2^exp when `sticky` is set. -/
structure Mag where
  man : Nat
  exp : Int
  sticky : Bool
  deriving DecidableEq, Repr

/-- How a rounding is done: the mode code of Table 3.7, sat, ftz, and the 24 bits of a stochastic draw. -/
structure Rounding where
  rm : Nat
  sat : Bool
  ftz : Bool
  draw : Nat
  deriving DecidableEq, Repr

/-- Whether a mode rounds magnitudes up for the sign: "away" of R80. -/
def roundsAway (rm : Nat) (neg : Bool) : Bool :=
  match rm with
  | 1 => false
  | 2 => neg
  | 3 => !neg
  | _ => true

/-- A magnitude as a multiple of 2^q, and whether it differs from the magnitude (R76, R77, Table 3.7). -/
def roundAt (r : Rounding) (neg : Bool) (x : Mag) (q : Int) : Nat × Bool :=
  let sh := q - x.exp
  if sh ≤ 0 then (x.man <<< (-sh).toNat, x.sticky)
  else
    let n := x.man >>> sh.toNat
    let rem := x.man % 2 ^ sh.toNat
    let inexact := rem ≠ 0 || x.sticky
    let up : Bool :=
      match r.rm with
      | 0 => 2 ^ sh.toNat < 2 * rem || (2 * rem = 2 ^ sh.toNat && (x.sticky || n % 2 = 1))
      | 1 => false
      | 2 => inexact && neg
      | 3 => inexact && !neg
      | 4 => 2 ^ sh.toNat ≤ 2 * rem
      | _ => inexact && 2 ^ 24 ≤ (rem * 2 ^ 24) >>> sh.toNat + r.draw
    (if up then n + 1 else n, inexact)

/-- floor(log2) of a non-zero magnitude. -/
def Mag.log (x : Mag) : Int := x.exp + Nat.log2 x.man

/-- The result of an overflow, or of an infinite input when `away` (R80, Table 3.8). -/
def overflowBits (f : FloatFmt) (away sat neg : Bool) : Nat × FFlags :=
  if !away then (f.sign neg + f.largest, noFlags)
  else if f.saturates then (f.sign neg + f.largest, fsat)
  else if f = .e4m3 then (if sat then (f.sign neg + f.largest, fsat) else (f.nan, noFlags))
  else if f = .e5m2 ∧ sat then (f.sign neg + f.largest, fsat)
  else (f.inf neg, noFlags)

/-- RoundTo for a float format: the encoding and the flags (R76 to R80). -/
def FloatFmt.round (f : FloatFmt) (r : Rounding) (neg : Bool) (x : Mag) : Nat × FFlags :=
  if x.man = 0 then (f.sign neg, noFlags)
  else
    let tiny : Bool := x.log < f.emin
    if tiny && r.ftz then (f.sign neg, fuf ||| fnx)
    else
      let q := max (x.log - f.manBits) (f.emin - f.manBits)
      let n := roundAt r neg x q
      let bits := (q - (f.emin - f.manBits)).toNat * 2 ^ f.manBits + n.1
      if f.largest < bits then
        let o := overflowBits f (roundsAway r.rm neg) r.sat neg
        (o.1, fof ||| fnx ||| o.2)
      else (f.sign neg + bits, flagIf n.2 fnx ||| flagIf (tiny && n.2) fuf)

/-- RoundTo for an integer type (R82): out of range gives the nearest bound, with fnv and without fnx (log 67). -/
def roundInt (signed : Bool) (w : Nat) (r : Rounding) (neg : Bool) (x : Mag) : Nat × FFlags :=
  let n := roundAt r neg x 0
  let v : Int := if neg then -(n.1 : Int) else n.1
  if v < intLo signed w then (intBits w (intLo signed w), fnv)
  else if intHi signed w < v then (intBits w (intHi signed w), fnv)
  else (intBits w v, flagIf n.2 fnx)

/-- Whether two magnitudes without sticky bits are equal. -/
def sameMagnitude (m₁ : Nat) (e₁ : Int) (m₂ : Nat) (e₂ : Int) : Bool :=
  if e₁ ≤ e₂ then m₁ = m₂ <<< (e₂ - e₁).toNat else m₁ <<< (e₁ - e₂).toNat = m₂

/-- The L that R81 chooses for a non-zero finite magnitude, before its bounds: the nearest, the floor or the ceiling of the
exact 16 + 4 × log2 (log 67). -/
def lnsChoose (rm : Nat) (neg : Bool) (x : Mag) : Int :=
  let lo : Int := 16 + 4 * x.exp + Nat.log2 (x.man ^ 4)
  let hi : Int := if x.man = 2 ^ Nat.log2 x.man then lo else lo + 1
  let nearest : Int := 16 + 4 * x.exp + (Nat.log2 (2 * x.man ^ 8) / 2 : Nat)
  match rm with
  | 1 => lo
  | 2 => if neg then hi else lo
  | 3 => if neg then lo else hi
  | _ => nearest

/-- RoundTo lns6 for a non-zero finite magnitude (R81, R80). -/
def lnsRound (r : Rounding) (neg : Bool) (x : Mag) : Nat × FFlags :=
  let l := lnsChoose r.rm neg x
  let s := if neg then 32 else 0
  if l < 1 then
    if (r.rm = 2 ∧ neg) ∨ (r.rm = 3 ∧ ¬neg) then (s + 1, fnx) else (0, fuf ||| fnx)
  else if 31 < l then (s + 31, fof ||| fnx ||| flagIf (roundsAway r.rm neg) fsat)
  else (s + l.toNat, flagIf (!sameMagnitude (lnsMagnitude (l - 16)).1 (lnsMagnitude (l - 16)).2 x.man x.exp) fnx)

/-- The conversion of a finite magnitude to e8m0 (R175): past its largest value fsat and fnx, and from 2^128, where the power chosen overflows,
fof as well (R80, Table 3.8; log 67). -/
def e8Round (x : Mag) : Nat × FFlags :=
  if x.man = 0 then (0, fuf ||| fnx)
  else
    let exact : Bool := x.man = 2 ^ Nat.log2 x.man && !x.sticky
    if 127 ≤ x.log then (0xFE, flagIf (!(x.log = 127 && exact)) (fsat ||| fnx) ||| flagIf (128 ≤ x.log) fof)
    else if x.log < -127 then (0, fuf ||| fnx)
    else ((x.log + 127).toNat, flagIf (!exact) fnx)

/-- The conversion of a value to an element type, with its flags: R80, R82, R81, R175 and Table 3.8. -/
def Elem.convert (t : Elem) (r : Rounding) (x : Num) : Nat × FFlags :=
  match t, x with
  | .int _ _, .nan _ => (0, fnv)
  | .int s w, .inf neg => (intBits w (if neg then intLo s w else intHi s w), fnv)
  | .int s w, .fin neg m e => roundInt s w r neg ⟨m, e, false⟩
  | .float f, .nan sig => (f.nan, flagIf (sig || f.saturates) fnv)
  | .float f, .inf neg => overflowBits f true r.sat neg
  | .float f, .fin neg m e => f.round r neg ⟨m, e, false⟩
  | .lns6, .nan _ => (0, fnv)
  | .lns6, .inf neg => ((if neg then 32 else 0) + 31, fsat)
  | .lns6, .fin neg m e => if m = 0 then (0, noFlags) else lnsRound r neg ⟨m, e, false⟩
  | .e8m0, .nan _ => (0xFF, fnv)
  | .e8m0, .inf _ => (0xFF, fnv)
  | .e8m0, .fin _ m e => e8Round ⟨m, e, false⟩

/-! ## Exact operations -/

/-- An exact result before its rounding: NaN (raising invalid when `invalid`), infinity, or a signed magnitude. -/
inductive Exact where
  | nan (invalid : Bool)
  | inf (neg : Bool) (byZero : Bool)
  | val (neg : Bool) (x : Mag)
  deriving DecidableEq, Repr

/-- Whether a value is a signalling NaN. -/
def Num.isSignalling : Num → Bool
  | .nan s => s
  | .inf _ => false
  | .fin _ _ _ => false

/-- Whether a value is a NaN. -/
def Num.isNan : Num → Bool
  | .nan _ => true
  | .inf _ => false
  | .fin _ _ _ => false

/-- Negation; a NaN stays as it is. -/
def Num.negate : Num → Num
  | .nan s => .nan s
  | .inf n => .inf (!n)
  | .fin n m e => .fin (!n) m e

/-- A value's signed mantissa at exponent `e`, which is at most its own. -/
def scaled (neg : Bool) (m : Nat) (e₀ e : Int) : Int :=
  let a : Int := (m <<< (e₀ - e).toNat : Nat)
  if neg then -a else a

/-- The exact sum of two finite values. The sign of a zero sum is that of both terms where they agree, and otherwise + but in
rounding mode RDN (IEEE 754-2019, which R65 and R88 name; log 18). -/
def addFin (rm : Nat) (n₁ : Bool) (m₁ : Nat) (e₁ : Int) (n₂ : Bool) (m₂ : Nat) (e₂ : Int) : Exact :=
  let e := min e₁ e₂
  let s := scaled n₁ m₁ e₁ e + scaled n₂ m₂ e₂ e
  let zneg : Bool := if m₁ = 0 ∧ m₂ = 0 ∧ n₁ = n₂ then n₁ else rm = 2
  if s = 0 then .val zneg ⟨0, e, false⟩ else .val (s < 0) ⟨s.natAbs, e, false⟩

/-- A + B (R83). -/
def addNum (rm : Nat) (a b : Num) : Exact :=
  match a, b with
  | .nan s, y => .nan (s || y.isSignalling)
  | x, .nan s => .nan (s || x.isSignalling)
  | .inf m, .inf n => if m = n then .inf m false else .nan true
  | .inf m, .fin _ _ _ => .inf m false
  | .fin _ _ _, .inf n => .inf n false
  | .fin n₁ m₁ e₁, .fin n₂ m₂ e₂ => addFin rm n₁ m₁ e₁ n₂ m₂ e₂

/-- A × B as a value, and whether it is invalid (R83). -/
def mulNum (a b : Num) : Num × Bool :=
  match a, b with
  | .nan s, y => (.nan false, s || y.isSignalling)
  | x, .nan s => (.nan false, s || x.isSignalling)
  | .inf m, .inf n => (.inf (m != n), false)
  | .inf m, .fin n k _ => if k = 0 then (.nan false, true) else (.inf (m != n), false)
  | .fin m k _, .inf n => if k = 0 then (.nan false, true) else (.inf (m != n), false)
  | .fin n₁ m₁ e₁, .fin n₂ m₂ e₂ => (.fin (n₁ != n₂) (m₁ * m₂) (e₁ + e₂), false)

/-- A value as an exact result; `invalid` carries what made it. -/
def Num.exact (x : Num) (invalid : Bool) : Exact :=
  match x with
  | .nan s => .nan (s || invalid)
  | .inf n => .inf n false
  | .fin n m e => .val n ⟨m, e, false⟩

/-- A × B + C with an invalid product reported even where C is a quiet NaN (R116, R166). -/
def fmaNum (rm : Nat) (a b c : Num) : Exact :=
  match addNum rm (mulNum a b).1 c with
  | .nan i => .nan (i || (mulNum a b).2)
  | .inf n z => .inf n z
  | .val n x => .val n x

/-- The quotient of two magnitudes, with at least 128 bits and a sticky bit. -/
def quotient (m₁ : Nat) (e₁ : Int) (m₂ : Nat) (e₂ : Int) : Mag :=
  let k := 192 + Nat.log2 m₂
  ⟨(m₁ <<< k) / m₂, e₁ - e₂ - k, (m₁ <<< k) % m₂ ≠ 0⟩

/-- A / B (R83). -/
def divNum (a b : Num) : Exact :=
  match a, b with
  | .nan s, y => .nan (s || y.isSignalling)
  | x, .nan s => .nan (s || x.isSignalling)
  | .inf _, .inf _ => .nan true
  | .inf m, .fin n _ _ => .inf (m != n) false
  | .fin m _ _, .inf n => .val (m != n) ⟨0, 0, false⟩
  | .fin n₁ m₁ e₁, .fin n₂ m₂ e₂ =>
    if m₂ = 0 then (if m₁ = 0 then .nan true else .inf (n₁ != n₂) true)
    else .val (n₁ != n₂) (quotient m₁ e₁ m₂ e₂)

/-- The integer square root by bits from bit `k` down. -/
def isqrtFrom : Nat → Nat → Nat → Nat
  | 0, _, r => r
  | k + 1, n, r => isqrtFrom k n (if (r + 2 ^ k) * (r + 2 ^ k) ≤ n then r + 2 ^ k else r)

/-- The integer square root. -/
def isqrt (n : Nat) : Nat := isqrtFrom (Nat.log2 n / 2 + 1) n 0

/-- The square root of a magnitude, with at least 128 bits and a sticky bit. -/
def sqrtMag (m : Nat) (e : Int) : Mag :=
  let odd : Bool := e % 2 = 1
  let n := (if odd then 2 * m else m) <<< 256
  let e' := (if odd then e - 1 else e) / 2 - 128
  ⟨isqrt n, e', isqrt n * isqrt n ≠ n⟩

/-- sqrt(A) (R83, R116). -/
def sqrtNum (a : Num) : Exact :=
  match a with
  | .nan s => .nan s
  | .inf n => if n then .nan true else .inf false false
  | .fin n m e => if m = 0 then .val n ⟨0, e, false⟩ else if n then .nan true else .val false (sqrtMag m e)

/-- The rounded encoding of an exact result (R76 to R80, R83). -/
def FloatFmt.finish (f : FloatFmt) (r : Rounding) (x : Exact) : Nat × FFlags :=
  match x with
  | .nan i => (f.nan, flagIf i fnv)
  | .inf n z => (f.inf n, flagIf z fdz)
  | .val n m => f.round r n m

/-- Whether A < B for values that are not NaN. -/
def ltNum (a b : Num) : Bool :=
  match a, b with
  | .nan _, _ => false
  | .inf _, .nan _ => false
  | .fin _ _ _, .nan _ => false
  | .inf m, .inf n => m && !n
  | .inf m, .fin _ _ _ => m
  | .fin _ _ _, .inf n => !n
  | .fin n₁ m₁ e₁, .fin n₂ m₂ e₂ => scaled n₁ m₁ e₁ (min e₁ e₂) < scaled n₂ m₂ e₂ (min e₁ e₂)

/-- Whether A = B; −0 equals +0 and a NaN equals nothing. -/
def eqNum (a b : Num) : Bool := !a.isNan && !b.isNan && !ltNum a b && !ltNum b a

/-- Whether a value is negative, zeros by their sign. -/
def Num.isNeg : Num → Bool
  | .nan _ => false
  | .inf n => n
  | .fin n _ _ => n

/-- fmin and fmax of two encodings: −0 is below +0, a NaN gives way to a number (R117). -/
def FloatFmt.minmax (f : FloatFmt) (daz wantMax : Bool) (a b : Nat) : Nat × FFlags :=
  let x := f.read daz a
  let y := f.read daz b
  let flags := flagIf (x.isSignalling || y.isSignalling) fnv
  if x.isNan && y.isNan then (f.nan, flags)
  else if x.isNan then (f.dazBits daz b, flags)
  else if y.isNan then (f.dazBits daz a, flags)
  else
    let aBelow := ltNum x y || (eqNum x y && x.isNeg && !y.isNeg)
    (if aBelow != wantMax then f.dazBits daz a else f.dazBits daz b, flags)

/-- The float condition `c` of Table 6.8 and R117: eq, ne, lt, le, gt, ge, unord, ord. -/
def floatCond (c : Nat) (x y : Num) : Bool × FFlags :=
  let anyNan := x.isNan || y.isNan
  let quietFlags := flagIf (x.isSignalling || y.isSignalling) fnv
  match c with
  | 0 => (eqNum x y, quietFlags)
  | 1 => (!eqNum x y, quietFlags)
  | 2 => (!anyNan && ltNum x y, flagIf anyNan fnv)
  | 3 => (!anyNan && !ltNum y x, flagIf anyNan fnv)
  | 4 => (!anyNan && ltNum y x, flagIf anyNan fnv)
  | 5 => (!anyNan && !ltNum x y, flagIf anyNan fnv)
  | 6 => (anyNan, quietFlags)
  | _ => (!anyNan, quietFlags)

/-! ## Exact sums -/

/-- An exact term of a sum. -/
def Num.isZero : Num → Bool
  | .fin _ m _ => m = 0
  | .nan _ => false
  | .inf _ => false

/-- The finite part of ExactSum for terms of which some are non-zero: the window W with its sticky part, in units of
2^(M − 120) (R87 steps 3 to 6). -/
def windowSum (terms : List Num) : Int × Int :=
  let logs := terms.filterMap fun t => match t with
    | .fin _ m e => if m = 0 then none else some (Mag.log ⟨m, e, false⟩)
    | .nan _ => none
    | .inf _ => none
  let top : Int := logs.foldl max (logs.headD 0)
  let low := top - 119
  let part (t : Num) : Int × Bool := match t with
    | .fin n m e =>
      if low ≤ e then (scaled n m e low, false)
      else
        let k := (low - e).toNat
        let q : Int := (m >>> k : Nat)
        (if n then -q else q, m % 2 ^ k ≠ 0)
    | .nan _ => (0, false)
    | .inf _ => (0, false)
  let w := terms.foldl (fun acc t => acc + (part t).1) 0
  let s := terms.any fun t => (part t).2
  (2 * w + (if s then (if w < 0 then -1 else 1) else 0), low - 1)

/-- ExactSum of a list of exact terms, as one exact value (R87). -/
def exactSum (terms : List Num) : Exact :=
  if terms.any Num.isNan || (terms.contains (.inf true) && terms.contains (.inf false)) then .nan true
  else if terms.contains (.inf true) then .inf true false
  else if terms.contains (.inf false) then .inf false false
  else if terms.all Num.isZero then
    .val (!terms.isEmpty && terms.all Num.isNeg) ⟨0, 0, false⟩
  else
    let w := windowSum terms
    if w.1 = 0 then .val false ⟨0, 0, false⟩ else .val (w.1 < 0) ⟨w.1.natAbs, w.2, false⟩

/-- An exact sum as a value, for a further exact operation. -/
def Exact.num : Exact → Num
  | .nan _ => .nan false
  | .inf n _ => .inf n
  | .val n x => .fin n x.man x.exp

/-- Round to nearest even without flush, as the matrix engine rounds (R88). -/
def nearestEven : Rounding := ⟨0, false, false, 0⟩

/-- acc + s rounded once to f32 (R88). -/
def accumulate (acc : Nat) (s : Exact) : Nat :=
  (FloatFmt.f32.finish nearestEven (addNum 0 (FloatFmt.f32.read false acc) s.num)).1

/-- The product of two lns6 codes, formed without a multiplier (R90). -/
def lnsProduct (a b : Nat) : Num :=
  if a % 32 = 0 ∨ b % 32 = 0 then .fin false 0 0
  else
    let m := lnsMagnitude (((a % 32 : Nat) : Int) + ((b % 32 : Nat) : Int) - 32)
    .fin (a.testBit 5 != b.testBit 5) m.1 m.2

/-! ## Special functions -/

/-- ln 2 × 2^160, rounded down. -/
def ln2Fixed : Nat := 1013035739299659071135698605846798551586536899366

/-- 2^f × 2^160 for f × 2^160 below 2^160, by the series of exp(f ln 2), to within 2^8 units. -/
def exp2Fixed (f : Nat) : Nat :=
  let t := (f * ln2Fixed) >>> 160
  ((List.range 48).foldl (fun (acc : Nat × Nat) k => (acc.1 + acc.2, ((acc.2 * t) >>> 160) / (k + 1))) (0, 2 ^ 160)).1

/-- log2(m) × 2^96 for m × 2^-256 from 1 up to 2, by repeated squaring, rounded down. -/
def log2Fixed (m : Nat) : Nat :=
  ((List.range 96).foldl (fun (acc : Nat × Nat) _ =>
    let sq := (acc.1 * acc.1) >>> 256
    if 2 ^ 257 ≤ sq then (sq >>> 1, 2 * acc.2 + 1) else (sq, 2 * acc.2)) (m, 0)).2

/-- sum of t^k / (2k + s)! × 2^160 for t × 2^-160: the series of cosh (s = 0) and of sinh(x)/x (s = 1) at t = x². -/
def hyperFixed (s t : Nat) : Nat :=
  ((List.range 80).foldl (fun (acc : Nat × Nat) k =>
    (acc.1 + acc.2, ((acc.2 * t) >>> 160) / ((2 * k + 1 + s) * (2 * k + 2 + s)))) (0, 2 ^ 160)).1

/-- A magnitude as a multiple of 2^q, rounded down. -/
def floorAt (m : Nat) (e q : Int) : Nat := if q ≤ e then m <<< (e - q).toNat else m >>> (q - e).toNat

/-- The exact value of a special function at a non-zero finite input, where it is a number: its sign, magnitude to about 90 bits,
and whether that magnitude is exact (06_vector_arithmetic.md R167, R168). Functions are numbered as their rows of Table 6.6. -/
def specialExact (fn : Nat) (neg : Bool) (m : Nat) (e : Int) : Bool × Mag :=
  match fn with
  | 0 => (neg, quotient 1 0 m e)
  | 1 =>
    let k := 2 * (160 + Nat.log2 m)
    let odd : Bool := e % 2 = 1
    let n := 2 ^ k / (if odd then 2 * m else m)
    (false, ⟨isqrt n, -(if odd then e - 1 else e) / 2 - (k / 2 : Nat),
      isqrt n * isqrt n * (if odd then 2 * m else m) ≠ 2 ^ k⟩)
  | 2 =>
    let whole := min (floorAt m e 0) 4096
    let frac := floorAt m e (-160) % 2 ^ 160
    if frac = 0 then (false, ⟨2 ^ 160, (if neg then -(whole : Int) else whole) - 160, false⟩)
    else if neg then (false, ⟨exp2Fixed (2 ^ 160 - 1 - frac), -(whole : Int) - 161, true⟩)
    else (false, ⟨exp2Fixed frac, (whole : Int) - 160, true⟩)
  | 3 =>
    let k := Nat.log2 m
    let lg := log2Fixed (m <<< (256 - k))
    let v : Int := ((k : Int) + e) * 2 ^ 96 + lg
    (v < 0, ⟨v.natAbs, -96, !(m = 2 ^ k)⟩)
  | _ =>
    if Mag.log ⟨m, e, false⟩ ≥ 5 then (neg, ⟨2 ^ 64 - 1, -64, true⟩)
    else
      let t := floorAt (m * m) (2 * e) (-160)
      if t < 2 ^ 60 then (neg, ⟨(m <<< 200) - 1, e - 200, true⟩)
      else (neg, ⟨((m * hyperFixed 1 t) <<< 128) / hyperFixed 0 t, e - 128, true⟩)

/-- The distance between two signed magnitudes, as a magnitude at exponent `q`, rounded up by at most two units. -/
def distance (n₁ : Bool) (m₁ : Nat) (e₁ : Int) (n₂ : Bool) (m₂ : Nat) (e₂ : Int) (q : Int) : Nat :=
  let a : Int := floorAt m₁ e₁ q
  let b : Int := floorAt m₂ e₂ q
  ((if n₁ then -a else a) - (if n₂ then -b else b)).natAbs + 2

/-- Whether candidate bits keep the bound of Table 6.6 at an exact value: a distance of at most `ulps` units in the last place,
or of 2^-21 (f32) or 2^-9 for log2 inside [0.5, 2]. -/
def specialBound (f : FloatFmt) (fn : Nat) (inside : Bool) (neg : Bool) (x : Mag) (candidate : Nat) : Bool :=
  match f.read false candidate with
  | .nan _ => false
  | .inf _ => false
  | .fin n m e =>
    let ulp := max x.log f.emin - f.manBits
    let q := ulp - 60
    let limit : Nat :=
      if fn = 3 ∧ inside then (if f = .f32 then floorAt 1 (-21) q else floorAt 1 (-9) q)
      else if f = .f32 ∧ 2 ≤ fn then 2 ^ 61 else 2 ^ 60
    distance n m e neg x.man x.exp q ≤ limit

/-- Whether an input lies in [0.5, 2]. -/
def inHalfToTwo (neg : Bool) (m : Nat) (e : Int) : Bool :=
  !neg && !ltNum (.fin false m e) (.fin false 1 (-1)) && !ltNum (.fin false 1 1) (.fin false m e)

/-- A special function of a non-zero finite input (06_vector_arithmetic.md R167, R168): exact where it can be, else the device's
own value where that keeps the bound of Table 6.6 (a free value, log 11), else the nearest. -/
def specialFinite (fn : Nat) (f : FloatFmt) (code bits : Nat) (ftz daz neg : Bool) (m : Nat) (e : Int) : Nat × FFlags :=
  let x := specialExact fn neg m e
  if x.2.man = 0 then (f.sign false, noFlags)
  else
    let near := f.round ⟨0, false, ftz, 0⟩ x.1 x.2
    if !x.2.sticky || near.2 &&& fof ≠ 0#6 || (ftz && x.2.log < f.emin) then near
    else
      let c := Config.special fn code bits ftz daz % 2 ^ (f.expBits + f.manBits + 1)
      if specialBound f fn (inHalfToTwo neg m e) x.1 x.2 c then (c, fnx ||| flagIf (x.2.log < f.emin) fuf)
      else near

/-- The encoding of 1.0. -/
def FloatFmt.one (f : FloatFmt) : Nat := f.bias * 2 ^ f.manBits

/-- A special function (06_vector_arithmetic.md R167, Table 6.7): 0 rcp, 1 rsqrt, 2 exp2, 3 log2, 4 tanh. -/
def specialFn (fn : Nat) (f : FloatFmt) (code : Nat) (fcr : Word) (bits : Nat) : Nat × FFlags :=
  match f.read (fcrDaz fcr f) bits with
  | .nan s => (f.nan, flagIf s fnv)
  | .inf n =>
    match fn with
    | 0 => (f.sign n, noFlags)
    | 1 => if n then (f.nan, fnv) else (0, noFlags)
    | 2 => if n then (0, noFlags) else (f.inf false, noFlags)
    | 3 => if n then (f.nan, fnv) else (f.inf false, noFlags)
    | _ => (f.sign n + f.one, noFlags)
  | .fin n m e =>
    if m = 0 then
      match fn with
      | 0 => (f.inf n, fdz)
      | 1 => (f.inf n, fdz)
      | 2 => (f.one, noFlags)
      | 3 => (f.inf true, fdz)
      | _ => (f.sign n, noFlags)
    else if n ∧ (fn = 1 ∨ fn = 3) then (f.nan, fnv)
    else specialFinite fn f code bits (fcrFtz fcr f) (fcrDaz fcr f) n m e

end Sys2Proof.Machine
end

