-- ==== Sys2Proof/Machine/GridTransfer.lean ====
section
/-!
DEFINITION. The work of a multigrid transfer (11_multigrid.md R326 to R337, 03_numbers.md R94): taps, boundaries, the value of a point,
and pages that a sparse destination skips.
-/

namespace Sys2Proof.Machine

/-! ## Stencils (R329) -/

/-- The header of a stencil-weight table (Table 11.2). -/
structure Stencil where
  tx : Nat
  ty : Nat
  tz : Nat
  ox : Int
  oy : Int
  oz : Int
  deriving DecidableEq, Repr

/-- A header's fields. -/
def stencilOf (w : Word) : Stencil where
  tx := bits w 1 0 + 1
  ty := bits w 3 2 + 1
  tz := bits w 5 4 + 1
  ox := (w.extractLsb' 8 8).toInt
  oy := (w.extractLsb' 16 8).toInt
  oz := (w.extractLsb' 24 8).toInt

/-- The taps in lexicographic order, c outermost and a fastest (R331). -/
def Stencil.taps (t : Stencil) : List (Nat × Nat × Nat) :=
  (List.range t.tz).flatMap fun c => (List.range t.ty).flatMap fun b => (List.range t.tx).map fun a => (a, b, c)

/-- The place of a tap's weight in the table (R329). -/
def Stencil.weightIndex (t : Stencil) (a b c : Nat) : Nat := a + t.tx * (b + t.ty * c)

/-- The stencil of an accepted multigrid command, whose descriptor is followed by the table's header. -/
def CopyCmd.stencil (c : CopyCmd) : Stencil := stencilOf (c.dw 16)

/-! ## Boundaries (R332) -/

/-- The index that a boundary mode reads for index `q` of an axis of size `n`; none reads +0. -/
def boundaryIndex (mode n : Nat) (q : Int) : Option Nat :=
  match mode with
  | 0 => some (max 0 (min q (n - 1))).toNat
  | 1 => if 0 ≤ q ∧ q < n then some q.toNat else none
  | _ => some (q % n).toNat

/-- The source index of a tap on one axis: of a restriction 2q + o + t, of a prolongation (q − o − t) / 2 where that is even (R331). -/
def tapIndex (prolong : Bool) (q t : Nat) (o : Int) : Option Int :=
  if prolong then
    let d : Int := q - o - t
    if d % 2 = 0 then some (d / 2) else none
  else some (2 * q + o + t)

/-! ## Values -/

/-- The space of a grid as a copy's space code (Table 11.1). -/
def Grid.place (g : Grid) (i j k : Nat) : Place := placeOf [] g.space (g.point i j k)

/-- The element of a grid at a point; a read of a sparse grid on an uncommitted arena page gives +0 (R335). -/
def State.gridRead (s : State) (w : Who) (g : Grid) (i j k : Nat) : State × Except Halt Nat :=
  match s.placeRead w (g.place i j k) 0 g.size with
  | (s1, .error h) =>
    match h with
    | .fault c (some a) va st => if g.sparse ∧ c = 0x05#8 ∧ s1.uncommittedAt w va then (s1, .ok 0) else (s1, .error (.fault c (some a) va st))
    | .fault c none va st => (s1, .error (.fault c none va st))
    | .wait => (s1, .error .wait)
  | (s1, .ok v) => (s1, .ok v)

/-- The value of a grid's element (11_multigrid.md R327). -/
def Grid.value (g : Grid) (bits : Nat) : Num :=
  match elemOf g.type with
  | some t => t.read 0#64 bits
  | none => .fin false 0 0

/-- The product of a weight and a source value, exact (R331). -/
def tapProduct (weight : Nat) (v : Num) : Num := (mulNum (FloatFmt.f32.read false weight) v).1

/-- The products of a destination point's taps, in order (R331). -/
def State.tapProducts (s : State) (w : Who) (c : CopyCmd) (i j k : Nat) :
    List (Nat × Nat × Nat) → State × Except Halt (List Num)
  | [] => (s, .ok [])
  | (a, b, d) :: rest =>
    let t := c.stencil
    let p := c.control.getLsbD 31
    let g := c.gridFrom
    match tapIndex p i a t.ox, tapIndex p j b t.oy, tapIndex p k d t.oz with
    | some x, some y, some z =>
      let wt := c.weights.getD (t.weightIndex a b d) 0
      let one : State × Except Halt Nat :=
        match boundaryIndex (bits c.control 29 28) g.nx x, boundaryIndex (bits c.control 27 26) g.ny y,
          boundaryIndex (bits c.control 25 24) g.nz z with
        | some x', some y', some z' => s.gridRead w g x' y' z'
        | _, _, _ => (s, .ok 0)
      match one with
      | (s1, .error h) => (s1, .error h)
      | (s1, .ok v) =>
        match s1.tapProducts w c i j k rest with
        | (s2, .error h) => (s2, .error h)
        | (s2, .ok ps) => (s2, .ok (tapProduct wt (g.value v) :: ps))
    | _, _, _ => s.tapProducts w c i j k rest

/-- The rounded encoding of an exact sum in the destination's format (R331, 03_numbers.md R80, R94). -/
def gridRound (f : FloatFmt) (r : Rounding) (x : Exact) : Nat × FFlags :=
  match x with
  | .nan i => (f.nan, flagIf i fnv)
  | .inf n _ => overflowBits f true r.sat n
  | .val n m => f.round r n m

/-- The flags of the result doubleword: inexact, underflow, overflow, saturated, invalid (R337). -/
def resultFlags (f : FFlags) : BitVec 5 := f.getLsbD 4 |>.toNat |> fun iv =>
  BitVec.ofNat 5 ((f.toNat % 8) + 8 * (f.getLsbD 5).toNat + 16 * iv)

/-- The rounding of the point with linear index `p` (R333). -/
def CopyCmd.gridRounding (c : CopyCmd) (p : Nat) : Rounding :=
  ⟨c.mode.toNat, c.control.getLsbD 20, false, if c.mode = 5#3 then drawBits (xorshiftN (p + 1) (prngWrite (c.dw 3))) else 0⟩

/-- The value of a destination point: its encoding and flags (R331, R333). -/
def State.gridPoint (s : State) (w : Who) (c : CopyCmd) (p : Nat) : State × Except Halt (Nat × FFlags) :=
  let g := c.gridTo
  let i := p % g.nx
  let j := p / g.nx % g.ny
  let k := p / (g.nx * g.ny)
  match s.tapProducts w c i j k c.stencil.taps with
  | (s1, .error h) => (s1, .error h)
  | (s1, .ok ps) =>
    let prior : State × Except Halt (List Num) :=
      if c.control.getLsbD 30 then
        match s1.gridRead w g i j k with
        | (s2, .error h) => (s2, .error h)
        | (s2, .ok v) => (s2, .ok [g.value v])
      else (s1, .ok [])
    match prior with
    | (s2, .error h) => (s2, .error h)
    | (s2, .ok last) =>
      match elemOf g.type with
      | some (.float f) => (s2, .ok (gridRound f (c.gridRounding p) (exactSum (ps ++ last))))
      | _ => (s2, .ok (0, noFlags))

/-- The values of consecutive destination points as little-endian bytes, with the flags gathered on the way (R337). -/
def State.gridPoints (s : State) (w : Who) (c : CopyCmd) : Nat → Nat → BitVec 5 → State × BitVec 5 × Except Halt Nat
  | _, 0, fl => (s, fl, .ok 0)
  | p, n + 1, fl =>
    match s.gridPoint w c p with
    | (s1, .error h) => (s1, fl, .error h)
    | (s1, .ok (v, f)) =>
      match s1.gridPoints w c (p + 1) n (fl ||| resultFlags f) with
      | (s2, fl2, .error h) => (s2, fl2, .error h)
      | (s2, fl2, .ok r) => (s2, fl2, .ok (v + 256 ^ c.gridTo.size * r))

/-! ## Skipped pages (R336) -/

/-- The 64 KiB page of memory that a run of the destination lies in. -/
def Run.page (r : Run) : Nat := ((r.dst % (2 ^ 64 : Int)) / 65536).toNat

/-- Whether pages of the destination are decided on: it is a sparse grid (R336). -/
def CopyCmd.decides (c : CopyCmd) : Bool := c.kind == .grid && c.gridTo.sparse

/-- Whether a page has been skipped. -/
def CopyCmd.skips (c : CopyCmd) (page : Nat) : Bool := c.decided.any fun d => d.1 == page && d.2

/-- Whether a page is decided. -/
def CopyCmd.isDecided (c : CopyCmd) (page : Nat) : Bool := c.decided.any fun d => d.1 == page

/-- Whether every byte of unit `j` lies in skipped pages, so that it was reported complete at a decision (R336). -/
def CopyCmd.unitSkipped (c : CopyCmd) (j : Nat) : Bool := c.decides && (c.unitRuns j).all fun r => c.skips r.page

/-- Whether every value that the command places in runs is +0 (R336): the values are computed run by run. -/
def State.runsZero (s : State) (w : Who) (c : CopyCmd) (fl : BitVec 5) : List Run → State × BitVec 5 × Except Halt Bool
  | [] => (s, fl, .ok true)
  | r :: rest =>
    match s.gridPoints w c (r.pos / c.gridTo.size) (r.len / c.gridTo.size) fl with
    | (s1, fl1, .error h) => (s1, fl1, .error h)
    | (s1, fl1, .ok v) => if v = 0 then s1.runsZero w c fl1 rest else (s1, fl1, .ok false)

/-- The decision on a destination page that the engine first reaches, which is no access to it (R336). -/
def State.decidePage (s : State) (w : Who) (c : CopyCmd) (page : Nat) : State × CopyCmd × Option Halt :=
  if !s.uncommittedAt w (BitVec.ofNat 64 (page * 65536)) then (s, { c with decided := c.decided ++ [(page, false)] }, none)
  else
    match s.runsZero w c c.flags (c.runs.filter fun r => r.page = page) with
    | (s1, fl, .error h) => (s1, { c with flags := fl }, some h)
    | (s1, fl, .ok z) =>
      (s1, { c with flags := fl, decided := c.decided ++ [(page, z)], skipped := c.skipped + (if z then 1 else 0) }, none)

/-- The decisions on the pages of a unit's runs that are not decided yet. -/
def State.decideRuns (s : State) (w : Who) (c : CopyCmd) : List Run → State × CopyCmd × Option Halt
  | [] => (s, c, none)
  | r :: rest =>
    if !c.decides || c.isDecided r.page then s.decideRuns w c rest
    else
      match s.decidePage w c r.page with
      | (s1, c1, some h) => (s1, c1, some h)
      | (s1, c1, none) => s1.decideRuns w c1 rest

/-- The points of a unit's runs computed, but those in skipped pages: each run with its bytes' value. -/
def State.gridValues (s : State) (w : Who) (c : CopyCmd) : List Run → State × CopyCmd × Except Halt (List (Run × Nat))
  | [] => (s, c, .ok [])
  | r :: rest =>
    if c.decides && c.skips r.page then s.gridValues w c rest
    else
      match s.gridPoints w c (r.pos / c.gridTo.size) (r.len / c.gridTo.size) c.flags with
      | (s1, fl, .error h) => (s1, { c with flags := fl }, .error h)
      | (s1, fl, .ok v) =>
        match s1.gridValues w { c with flags := fl } rest with
        | (s2, c2, .error h) => (s2, c2, .error h)
        | (s2, c2, .ok l) => (s2, c2, .ok ((r, v) :: l))

/-- Computed runs written to the destination. -/
def State.gridWrites (s : State) (w : Who) (space : Nat) : List (Run × Nat) → State × Option Halt
  | [] => (s, none)
  | (r, v) :: rest =>
    match s.placeWrite w (placeOf [] space r.dst) r.len v with
    | (s1, some h) => (s1, some h)
    | (s1, none) => s1.gridWrites w space rest

/-- What an access that halts a unit leaves where the unit's writes are not made: its own walk, which counts a miss and may ask the host for the
page (13_address_space.md R379, R381). -/
def State.haltedAt (s : State) (w : Who) (space : Nat) : Halt → State
  | .wait => s
  | .fault _ _ va _ => if space = 0 then (s.translate w true va).1 else s

/-- The points of a unit's runs computed, then written: with an access that halts none is, so that no prior value is added to twice (R331,
10_scratchpad_copy.md R316). -/
def State.gridRuns (s : State) (w : Who) (c : CopyCmd) (l : List Run) : State × CopyCmd × Option Halt :=
  match s.gridValues w c l with
  | (s1, c1, .error h) => (s1, c1, some h)
  | (s1, c1, .ok vs) =>
    match s1.gridWrites w c1.gridTo.space vs with
    | (s2, some h) => ({ s1.haltedAt w c1.gridTo.space h with atsOut := s2.atsOut }, c1, some h)
    | (s2, none) => (s2, c1, none)

/-- Unit `j` of a multigrid command: decisions, then its points. The units complete are those whose last page it decided to skip, and
`j` where nothing halts it (R336). -/
def State.gridUnit (s : State) (w : Who) (c : CopyCmd) (j : Nat) : State × CopyCmd × List Nat × Option Halt :=
  let runs := c.unitRuns j
  match s.decideRuns w c runs with
  | (s1, c1, h1) =>
    let later := if c1.decided = c.decided then [] else
      (List.range (c.unitCount)).filter fun k => decide (j < k) && c1.unitSkipped k && !c.unitSkipped k
    match h1 with
    | some h => (s1, c1, later, some h)
    | none =>
      match s1.gridRuns w c1 runs with
      | (s2, c2, some h) => (s2, c2, later, some h)
      | (s2, c2, none) => (s2, c2, j :: later, none)

/-- The result doubleword (R337). -/
def CopyCmd.resultWord (c : CopyCmd) : Word := c.flags.zeroExtend 64 ||| BitVec.ofNat 64 (c.skipped * 2 ^ 32)

end Sys2Proof.Machine
end

