-- ==== Sys2Proof/Machine/KvWalk.lean ====
section
/-!
DEFINITION. The work of a cp.kvs command (15_complications.md R425 to R428): the walk over the selection list, pruning, the skip bitmap and
the fetch of an entry's heads.
-/

namespace Sys2Proof.Machine

/-- A read of the issuing core's scratchpad by a channel. -/
def State.padWord (s : State) (w : Who) (o n : Nat) : State × Except Halt Nat := s.placeRead w (.pad o) 0 n

/-- Whether an entry's bound prunes it: the bound and the running maximum are not NaN, and bound + margin < maximum, exactly (R426). -/
def prunes (bound margin maximum : Nat) : Bool :=
  let b := FloatFmt.f32.read false bound
  let m := FloatFmt.f32.read false maximum
  !b.isNan && !m.isNan && ltNum (addNum 0 b (FloatFmt.f32.read false margin)).num m

/-- Whether entry `j` is skipped, and its logical page (R426). -/
def State.kvDecide (s : State) (w : Who) (c : CopyCmd) (j : Nat) : State × Except Halt (Bool × Nat) :=
  match s.padWord w (bits (c.dw 4) 19 0 + 4 * j) 4 with
  | (s1, .error h) => (s1, .error h)
  | (s1, .ok l) =>
    if bits (c.dw 3) 31 0 ≤ l then (s1, .ok (true, l))
    else if !c.control.getLsbD 29 then (s1, .ok (false, l))
    else
      match s1.padWord w (bits (c.dw 11) 19 0 + 4 * j) 4 with
      | (s2, .error h) => (s2, .error h)
      | (s2, .ok b) =>
        match s2.padWord w (bits (c.dw 12) 19 0) 4 with
        | (s3, .error h) => (s3, .error h)
        | (s3, .ok m) => (s3, .ok (prunes b (bits (c.dw 12) 63 32) m, l))

/-- The skip bitmap's bit of entry `j` written (R426). -/
def State.kvMark (s : State) (w : Who) (c : CopyCmd) (j : Nat) (skip : Bool) : State × Option Halt :=
  let o := bits (c.dw 10) 19 0 + j % 512 / 8
  match s.padWord w o 1 with
  | (s1, .error h) => (s1, some h)
  | (s1, .ok b) =>
    let bit := 2 ^ (j % 8)
    s1.placeWrite w (.pad o) 1 (if skip then b ||| bit else b - (b &&& bit))

/-- The heads of entry `j` fetched from its page, whose address is in the block table (R425, R426). -/
def State.kvFetch (s : State) (w : Who) (c : CopyCmd) (j l : Nat) : State × Option Halt :=
  match s.placeRead w (.mem (c.dw 2 + BitVec.ofNat 64 (8 * l))) 0 8 with
  | (s1, .error h) => (s1, some h)
  | (s1, .ok page) => s1.moveRuns w [] 0 (bits c.control 31 30) (c.entryRuns j page)

/-- Unit `u` of a cp.kvs command: its entry decided once, then skipped or fetched (R426, R428). -/
def State.kvUnit (s : State) (w : Who) (c : CopyCmd) (u : Nat) : State × CopyCmd × List Nat × Option Halt :=
  let j := c.firstEntry + u
  match c.decided.find? fun d => d.1 = j with
  | some (_, true) => (s, c, [u], none)
  | some (_, false) =>
    match s.padWord w (bits (c.dw 4) 19 0 + 4 * j) 4 with
    | (s1, .error h) => (s1, c, [], some h)
    | (s1, .ok l) =>
      match s1.kvFetch w c j l with
      | (s2, some h) => (s2, c, [], some h)
      | (s2, none) => (s2, c, [u], none)
  | none =>
    match s.kvDecide w c j with
    | (s1, .error h) => (s1, c, [], some h)
    | (s1, .ok (skip, l)) =>
      match s1.kvMark w c j skip with
      | (s2, some h) => (s2, c, [], some h)
      | (s2, none) =>
        let c1 := { c with decided := c.decided ++ [(j, skip)] }
        if skip then (s2, c1, [u], none)
        else
          match s2.kvFetch w c1 j l with
          | (s3, some h) => (s3, c1, [], some h)
          | (s3, none) => (s3, c1, [u], none)

end Sys2Proof.Machine
end

