-- ==== Sys2Proof/Machine/CopyWork.lean ====
section
/-!
DEFINITION. The work of one unit of a copy command (10_scratchpad_copy.md R314 to R317, R322, R323, 08_tokens.md R260, 16_pod.md R449):
what its channel moves, and what halts it.
-/

namespace Sys2Proof.Machine

/-! ## Gathers (R323) -/

/-- The address of the element that a place of a gather's destination belongs to. -/
def CopyCmd.elementAddr (c : CopyCmd) (pos : Nat) : Word := c.dw 2 + BitVec.ofNat 64 (c.index.getD (pos / c.gatherSize) 0 * c.gatherSize)

/-- An element that meets an uncorrectable burst is named by its own address (14_near_far_memory.md R405). -/
def Halt.atElement (h : Halt) (va : Word) : Halt :=
  match h with
  | .wait => .wait
  | .fault c a addr st => .fault c a (if c = 0x08#8 ∧ !st then va else addr) st

/-- The queue of a gather unit that the burst of a run is put into: its pseudo-channel's, or one past them all where it is not in HBM
(14_near_far_memory.md R404). -/
def State.burstQueue (s : State) (w : Who) (r : Run) : Nat :=
  match (s.translate w false (BitVec.ofInt 64 r.src)).2 with
  | .ok pa _ => if s.redirect pa < hbmSize then pseudoOf s.stripe (s.redirect pa) else 1536
  | .fault _ => 1536

/-- Runs in the order of the gather units' queues, each queue in element order (14_near_far_memory.md R404; log 66). -/
def State.byQueue (s : State) (w : Who) (l : List Run) : List Run :=
  let q := l.map fun r => (s.burstQueue w r, r)
  (q.map fun p => p.1).eraseDups.flatMap fun n => (q.filter fun p => p.1 = n).map fun p => p.2

/-- The burst of 32 bytes that a run lies in, which a gather unit has read, kept for the elements of the command that it also holds
(14_near_far_memory.md R404). -/
def State.keepBurst (s : State) (w : Who) (c : CopyCmd) (r : Run) : CopyCmd :=
  match (s.translate w false (BitVec.ofInt 64 r.src)).2 with
  | .ok pa _ =>
    let b := pa / 32 * 32
    if pa < hbmSize && decide (pa % 32 + r.len ≤ 32) && !s.isBad b 32 then
      { c with fetched := ((BitVec.ofInt 64 r.src).toNat / 32, s.physRead b 32) :: c.fetched }
    else c
  | .fault _ => c

/-- The value of a run of a gather: from a burst read before, else read with its burst (14_near_far_memory.md R404). -/
def State.gatherRead (s : State) (w : Who) (c : CopyCmd) (r : Run) : State × CopyCmd × Except Halt Nat :=
  let va := (BitVec.ofInt 64 r.src).toNat
  match c.fetched.find? fun p => p.1 = va / 32 && decide (va % 32 + r.len ≤ 32) with
  | some p => (s, c, .ok (p.2 / 256 ^ (va % 32) % 256 ^ r.len))
  | none =>
    match s.placeRead w (placeOf [] 0 r.src) 0 r.len with
    | (s1, .error h) => (s1, c, .error h)
    | (s1, .ok v) => (s1, s1.keepBurst w c r, .ok v)

/-- The elements of a gather's unit moved. -/
def State.gatherRuns (s : State) (w : Who) (c : CopyCmd) : List Run → State × CopyCmd × Option Halt
  | [] => (s, c, none)
  | r :: rest =>
    match s.gatherRead w c r with
    | (s1, c1, .error h) => (s1, c1, some (h.atElement (c.elementAddr r.pos)))
    | (s1, c1, .ok v) =>
      match s1.placeWrite w (placeOf [] (bits c.control 29 28) r.dst) r.len v with
      | (s2, some h) => (s2, c1, some h)
      | (s2, none) => s2.gatherRuns w c1 rest

/-! ## Tile rows (12_matrix.md R361) -/

/-- An accumulator that a cp.tile command reads in parts, read once. -/
def State.readAcc (s : State) (w : Who) (c : CopyCmd) (acc : Nat) : State × CopyCmd × Except Halt Nat :=
  match c.fetched.find? fun p => p.1 = acc with
  | some p => (s, c, .ok p.2)
  | none =>
    match s.placeRead w (placeOf c.units 2 (4 * acc)) 0 4 with
    | (s1, .error h) => (s1, c, .error h)
    | (s1, .ok v) => (s1, { c with fetched := (acc, v) :: c.fetched }, .ok v)

/-- The value of a run of a cp.tile command whose units divide accumulators. -/
def State.accRead (s : State) (w : Who) (c : CopyCmd) (r : Run) : State × CopyCmd × Except Halt Nat :=
  if bits c.control 31 30 = 2 then
    match s.readAcc w c (r.src / 4).toNat with
    | (s1, c1, .error h) => (s1, c1, .error h)
    | (s1, c1, .ok v) => (s1, c1, .ok (v / 256 ^ (r.src % 4).toNat % 256 ^ r.len))
  else
    match s.placeRead w (placeOf c.units (bits c.control 31 30) r.src) 0 r.len with
    | (s1, .error h) => (s1, c, .error h)
    | (s1, .ok v) => (s1, c, .ok v)

/-- Runs inside accumulators read, so that each can be written whole. -/
def State.accReads (s : State) (w : Who) (c : CopyCmd) : List Run → State × CopyCmd × Except Halt (List (Run × Nat))
  | [] => (s, c, .ok [])
  | r :: rest =>
    match s.accRead w c r with
    | (s1, c1, .error h) => (s1, c1, .error h)
    | (s1, c1, .ok v) =>
      match s1.accReads w c1 rest with
      | (s2, c2, .error h) => (s2, c2, .error h)
      | (s2, c2, .ok l) => (s2, c2, .ok ((r, v) :: l))

/-- Runs written in order. -/
def State.accWrites (s : State) (w : Who) (c : CopyCmd) : List (Run × Nat) → State × Option Halt
  | [] => (s, none)
  | (r, v) :: rest =>
    match s.placeWrite w (placeOf c.units (bits c.control 29 28) r.dst) r.len v with
    | (s1, some h) => (s1, some h)
    | (s1, none) => s1.accWrites w c rest

/-- Unit `j` of a cp.tile command: no accumulator is torn where its units divide one. -/
def State.tileUnit (s : State) (w : Who) (c : CopyCmd) (j : Nat) : State × CopyCmd × Option Halt :=
  if c.wholeAccs then
    match s.moveRuns w c.units (bits c.control 31 30) (bits c.control 29 28) (c.unitRuns j) with
    | (s1, h) => (s1, c, h)
  else
    let rs := c.accRuns j
    match s.accReads w c (if bits c.control 31 30 = 2 then rs.flatMap (Run.cutSrc 4) else rs) with
    | (s1, c1, .error h) => (s1, c1, some h)
    | (s1, c1, .ok l) =>
      match s1.accWrites w c1 l with
      | (s2, h) => (s2, c1, h)

/-! ## Remote stores (16_pod.md R449) -/

/-- A sector's request to another device, with the id of its command (16_pod.md R440). -/
def State.sectorReq (s : State) (c : CopyCmd) (p : Word) (n v : Nat) : RemoteReq :=
  ⟨.store, c.crew, s.devNo, p, BitVec.ofNat 9 n, 0#64, c.id s.me.id, s.noOp p, BitVec.ofNat 2048 v⟩

/-- A sector sent to another device, and what it answers. -/
def State.sendSector (s : State) (c : CopyCmd) (p : Word) (n v : Nat) : State × Option Halt :=
  match s.askRemote (s.sectorReq c p n v) with
  | (s1, .done _) => (s1, none)
  | (s1, .refused) => (s1, some (.fault 0x0A#8 none p true))
  | (s1, .failed code) => (s1, some (.fault code none p true))

/-- The window that a sector of a wst to this device goes through: the one that admitted it before it had to wait, or the one that
admits it now (16_pod.md R439, R440). -/
def State.sectorWindow (s : State) (c : CopyCmd) (p : Word) (n : Nat) : Option Window :=
  if c.partIn = 1 then s.window? (ptrWindow p) else s.admitted (·.w) p n c.crew s.devNo

/-- A sector's end after its admission was counted. -/
def State.endInflight (s : State) (c : CopyCmd) (p : Word) : State := if c.partIn = 1 then s.countInflight p false else s

/-- A sector of a wst to this device: the check, then the write at the target; on an absent arena page, or for the host's answer, it waits
there, admitted (16_pod.md R439). -/
def State.localSector (s : State) (c : CopyCmd) (p : Word) (n v : Nat) : State × CopyCmd × Option Halt :=
  match s.sectorWindow c p n with
  | none => (s.countRefusal s.me.id, { c with partIn := 0 }, some (.fault 0x0A#8 none p true))
  | some w =>
    match s.endpointStore w p n v with
    | (s1, .ok _) => (s1.endInflight c p, { c with partIn := 0 }, none)
    | (s1, .error f) =>
      match f with
      | .absent (some a) =>
        (if c.partIn = 1 then s1 else s1.countInflight p true, { c with partIn := 1 }, some (.fault 0x05#8 (some a) (w.target p) true))
      | .wait => (if c.partIn = 1 then s1 else s1.countInflight p true, { c with partIn := 1 }, some .wait)
      | _ => (s1.endInflight c p, { c with partIn := 0 }, some (.fault f.failCode none p true))

/-- Unit `j` of a wst. -/
def State.remoteUnit (s : State) (w : Who) (c : CopyCmd) (j : Nat) : State × CopyCmd × List Nat × Option Halt :=
  match c.unitRuns j with
  | [] => (s, c, [j], none)
  | r :: _ =>
    let p := (c.dw 0 &&& ~~~0x3FFFFFFFFFF#64) + BitVec.ofInt 64 r.dst
    match s.placeRead w (placeOf [] 0 r.src) 0 r.len with
    | (s1, .error h) => (s1, c, [], some h)
    | (s1, .ok v) =>
      if 2 ^ 42 < r.dst.toNat + r.len then (s1.countRefusal s.me.id, c, [], some (.fault 0x0A#8 none p true))
      else if hDev p = s.devNo then
        match s1.localSector c p r.len v with
        | (s2, c2, none) => (s2, c2, [j], none)
        | (s2, c2, some h) => (s2, c2, [], some h)
      else
        match s1.sendSector c p r.len v with
        | (s2, none) => (s2, c, [j], none)
        | (s2, some h) => (s2, c, [], some h)

/-! ## Messages (08_tokens.md R260) -/

/-- The agent that a message's buffer is written for: the crew of the mailbox, captured at the reservation (log 22). -/
def CopyCmd.bufferWho (c : CopyCmd) (k : BitVec 10) : Who := ⟨c.dw 7, c.dw 8 != 0#64, (c.dw 8).setWidth 7, k⟩

/-- Unit `j` of a send. -/
def State.messageUnit (s : State) (w : Who) (c : CopyCmd) (j : Nat) : State × Option Halt :=
  match c.unitRuns j with
  | [] => (s, none)
  | r :: _ =>
    match s.placeRead w (placeOf [] 0 r.src) 0 r.len with
    | (s1, .error h) => (s1, some h)
    | (s1, .ok v) =>
      if hDev (c.dw 4) = s.devNo then s1.placeWrite (c.bufferWho w.core) (placeOf [] 0 r.dst) r.len v
      else s1.sendSector c (c.dw 4) r.len v

/-! ## A unit -/

/-- What the channel does with the first incomplete unit of a command that is no stream: the new state and command, the units that
complete, and what halts the channel. -/
def State.unitWork (s : State) (c : CopyCmd) : State × CopyCmd × List Nat × Option Halt :=
  let w := c.who s.me.id
  let plain (r : State × CopyCmd × Option Halt) : State × CopyCmd × List Nat × Option Halt :=
    (r.1, r.2.1, if r.2.2.isNone then [c.done] else [], r.2.2)
  match c.kind with
  | .tile => plain (s.tileUnit w c c.done)
  | .gather => plain (s.gatherRuns w c (s.byQueue w (c.unitRuns c.done)))
  | .send =>
    match s.messageUnit w c c.done with
    | (s1, h) => plain (s1, c, h)
  | .remote => s.remoteUnit w c c.done
  | .kvs => s.kvUnit w c c.done
  | .grid => if c.partOut = 1 then (s, c, c.index, none) else s.gridUnit w c c.done
  | .stream => (s, c, [], none)

/-! ## Strips (R322) -/

/-- Whether an output strip is ready to be written: its step has retired. -/
def CopyCmd.outputReady (c : CopyCmd) : Bool := decide (c.stripsOut < c.strips) && decide (0 < c.outputs) && decide (c.stripsOut + 2 ≤ c.steps)

/-- Whether an input strip is to be fetched. -/
def CopyCmd.inputReady (c : CopyCmd) : Bool := decide (c.stripsIn < c.strips) && decide (0 < c.inputs) && decide (c.stripsIn < c.steps + 2)

/-- The end of a piece of a strip: the next piece, or the next strip. -/
def nextPiece (part count strips : Nat) : Nat × Nat := if part + 1 < count then (part + 1, strips) else (0, strips + 1)

/-- A stream's next piece: an output piece that is ready, else an input piece. The sectors that it reports and whether an input strip
has landed whole are answered. -/
def State.streamWork (s : State) (c : CopyCmd) : State × CopyCmd × Nat × Bool × Option Halt :=
  let w := c.who s.me.id
  if c.outputReady then
    let ps := c.outputRuns c.stripsOut
    match ps[c.partOut]? with
    | none => (s, { c with partOut := 0, stripsOut := c.stripsOut + 1 }, 0, false, none)
    | some (i, r) =>
      match s.moveRun w (placeOf [] 1 r.src) (placeOf [] 0 r.dst) r.len with
      | (s1, some h) => (s1, c, 0, false, some h)
      | (s1, none) =>
        let last := c.lastOfSector i c.stripsOut r.sector
        let n := nextPiece c.partOut ps.length c.stripsOut
        (s1, { c with partOut := n.1, stripsOut := n.2, done := c.done + (if last then 1 else 0) }, if last then 1 else 0, false, none)
  else if c.inputReady then
    let ps := c.inputRuns c.stripsIn
    match ps[c.partIn]? with
    | none => (s, { c with partIn := 0, stripsIn := c.stripsIn + 1 }, 0, false, none)
    | some r =>
      match s.moveRun w (placeOf [] 0 r.src) (placeOf [] 1 r.dst) r.len with
      | (s1, some h) => (s1, c, 0, false, some h)
      | (s1, none) =>
        let n := nextPiece c.partIn ps.length c.stripsIn
        (s1, { c with partIn := n.1, stripsIn := n.2, done := c.done + 1 }, 0, n.1 == 0, none)
  else (s, c, 0, false, none)

/-- Whether every unit of a command is complete. A stream without outputs is done once its fetching has ended. -/
def CopyCmd.complete (c : CopyCmd) : Bool :=
  if c.kind = .stream then
    (if 0 < c.outputs then decide (c.strips ≤ c.stripsOut) else decide (c.strips + 1 ≤ c.steps) && decide (c.strips ≤ c.stripsIn))
  else decide (c.unitCount ≤ c.done)

/-- Whether a running command has something to do. -/
def CopyCmd.workable (c : CopyCmd) : Bool := c.state == .running && (c.kind != .stream || c.outputReady || c.inputReady || c.complete)

end Sys2Proof.Machine
end

