-- ==== Sys2Proof/Machine/Operands.lean ====
section
/-!
DEFINITION. Vector operands: the shape that vl and vtype give, register groups and their elements, mask groups and predicates, the
legality of groups, and the shadow image (05_lanes.md R126 to R142, 02_encoding.md R37).
-/

namespace Sys2Proof.Machine

/-! ## The shape (R128 to R131) -/

/-- vl.len of a vl word. -/
def vlLen (vl : Word) : Nat := bits vl 15 0
/-- vl.nreal of a vl word. -/
def vlReal (vl : Word) : Nat := bits vl 31 16
/-- vtype.et. -/
def vtEt (vt : Word) : Nat := bits vt 4 0
/-- The element type of vtype; et is 0 to 18 where an instruction executes (R129). -/
def vtElem (vt : Word) : Elem := (elemOf (vtEt vt)).getD (.int true 8)
/-- The element width of vtype. -/
def vtW (vt : Word) : Nat := (vtElem vt).width
/-- The group size n = 2^lmul. -/
def vtN (vt : Word) : Nat := 2 ^ bits vt 6 5
/-- vtype.tz. -/
def vtTz (vt : Word) : Bool := vt.getLsbD 7
/-- vtype.mz. -/
def vtMz (vt : Word) : Bool := vt.getLsbD 8
/-- The block length 2^blk. -/
def vtBlk (vt : Word) : Nat := 2 ^ bits vt 11 9
/-- VLMAX (Table 5.1). -/
def vlMax (vt : Word) : Nat := 16384 * vtN vt / vtW vt
/-- The elements of an element group (R126). -/
def perGroup (w : Nat) : Nat := 2048 / w

/-- Whether vset could have produced the pair; else the vector instructions of R129 trap ILLEGAL (R129, R130, 04_scalar.md R98). -/
def shapeOk (vl vt : Word) : Bool :=
  bits vt 63 12 == 0 && decide (vtEt vt ≤ 18) && bits vl 63 32 == 0 && decide (vlLen vl ≤ vlMax vt) &&
    decide (vlLen vl = vtBlk vt * ((vlReal vl + vtBlk vt - 1) / vtBlk vt))

/-! ## Groups and elements (R126) -/

/-- Element `i` of width `w` of a group read as one number. -/
def elemAt (w g i : Nat) : Nat := (g >>> (i * w)) % 2 ^ w

/-- Element `i` replaced by a value below 2^w. -/
def setElem (w g i v : Nat) : Nat := g ^^^ ((elemAt w g i ^^^ v) <<< (i * w))

/-- Bits from `lo` up to but not including `hi` cleared. -/
def clearBits (lo hi g : Nat) : Nat := if hi ≤ lo then g else g % 2 ^ lo + ((g >>> hi) <<< hi)

/-- Vector register `k` as a number. -/
def Ctx.vReg (c : Ctx) (k : Nat) : Nat := (c.v[k % 32]'(Nat.mod_lt k (by decide))).toNat
/-- Mask register `k` as a number. -/
def Ctx.mReg (c : Ctx) (k : Nat) : Nat := (c.m[k % 8]'(Nat.mod_lt k (by decide))).toNat

/-- `n` vector registers from `base` as one array (R126). -/
def Ctx.vGroup (c : Ctx) (base : Nat) : Nat → Nat
  | 0 => 0
  | n + 1 => c.vReg base + (c.vGroup (base + 1) n) <<< 16384

/-- `n` mask registers from `base` as one number (R139). -/
def Ctx.mGroup (c : Ctx) (base : Nat) : Nat → Nat
  | 0 => 0
  | n + 1 => c.mReg base + (c.mGroup (base + 1) n) <<< 2048

/-- `n` vector registers from `base` written from one array. -/
def Ctx.setVGroup (c : Ctx) (base : Nat) : Nat → Nat → Ctx
  | 0, _ => c
  | n + 1, g =>
    ({ c with v := c.v.set (base % 32) (BitVec.ofNat 16384 g) (Nat.mod_lt base (by decide)) }).setVGroup (base + 1) n (g >>> 16384)

/-- `n` mask registers from `base` written from one number. -/
def Ctx.setMGroup (c : Ctx) (base : Nat) : Nat → Nat → Ctx
  | 0, _ => c
  | n + 1, g =>
    ({ c with m := c.m.set (base % 8) (BitVec.ofNat 2048 g) (Nat.mod_lt base (by decide)) }).setMGroup (base + 1) n (g >>> 2048)

/-! ## Masks and predicates (R139, R140) -/

/-- The registers of a mask group: G = max(1, VLMAX / 2,048) (R139). -/
def maskRegs (vt : Word) : Nat := max 1 (vlMax vt / 2048)

/-- Whether `k` may name a mask group (R139). -/
def maskOk (vt : Word) (k : Nat) : Bool := decide (maskRegs vt ≤ 8) && k % maskRegs vt == 0

/-- Whether a predicate field is legal (02_encoding.md R37, R139). -/
def predOk (vt : Word) (p : BitVec 4) : Bool := p == 0#4 || maskOk vt (p.toNat % 8)

/-- The predicate of a field over a mask group's bits (02_encoding.md Table 2.3). -/
def predBit (p : BitVec 4) (m e : Nat) : Bool := p == 0#4 || (m.testBit e == p.getLsbD 3)

/-- The mask group that a predicate field names. -/
def Ctx.predMask (c : Ctx) (vt : Word) (p : BitVec 4) : Nat := if p = 0#4 then 0 else c.mGroup (p.toNat % 8) (maskRegs vt)

/-- Whether element `i` of an entry is active: by the mask that its micro-operation took at issue, or by the mask group as it stands where it
has taken none yet (R140, R145, 06_vector_arithmetic.md R159). -/
def VEntry.active (e : VEntry) (c : Ctx) : Nat → Bool :=
  let m := e.mask.getD (c.predMask e.vtype e.pred)
  fun i => predBit e.pred m i

/-- An entry whose next micro-operation issues: its captured predicate mask, joined by the bits that copy engines have set since (R145, R150,
06_vector_arithmetic.md R159). -/
def VEntry.masked (e : VEntry) (c : Ctx) : VEntry := { e with mask := some (e.mask.getD 0 ||| c.predMask e.vtype e.pred) }

/-! ## Group rules (R136, R137) -/

/-- Whether a group of `n` registers may be based at `r` (R136). -/
def groupOk (r : BitVec 5) (n : Nat) : Bool := r.toNat % n == 0 && decide (r.toNat + n ≤ 32)

/-- Whether two groups share no register. -/
def disjoint (d : BitVec 5) (nd : Nat) (a : BitVec 5) (na : Nat) : Bool :=
  decide (d.toNat + nd ≤ a.toNat) || decide (a.toNat + na ≤ d.toNat)

/-- The overlap rule of an element-wise form (R137). -/
def sameOrDisjoint (d a : BitVec 5) (n : Nat) : Bool := d == a || disjoint d n a n

/-- The vdirty bits of a group of vector registers (R134). -/
def vBits (d : BitVec 5) (n : Nat) : Word := BitVec.ofNat 64 ((2 ^ n - 1) * 2 ^ d.toNat)
/-- The vdirty bits of a group of mask registers (R134). -/
def mBits (k n : Nat) : Word := BitVec.ofNat 64 ((2 ^ n - 1) * 2 ^ (32 + k))
/-- The vdirty bit of a shadow register (R134). -/
def shBit (k : BitVec 2) : Word := BitVec.ofNat 64 (2 ^ (40 + k.toNat))

/-! ## What queue entries write and read (05_lanes.md R144, 12_matrix.md R353) -/

/-- The registers that a vector queue entry writes, in vdirty's layout (R134, R153). -/
def VEntry.writes (e : VEntry) : Word := if e.op = .release then 0xFFFFFFFFFFF#64 else e.dirty

/-- The vector registers that a matrix queue entry reads (12_matrix.md R350, R353); an mdrain reads none (07_coroutines.md R199). -/
def MEntry.reads (e : MEntry) : Word :=
  match e.op with
  | .loadB => vBits e.b 8
  | .mma => vBits e.a 1
  | .mmaMx => vBits e.a 1 ||| vBits e.b 1
  | .fill _ => vBits e.a 8
  | .drain _ => 0#64
  | .detach _ => 0#64
  | .shape _ => 0#64
  | .zero => 0#64
  | .save _ _ => 0#64
  | .load _ _ => 0#64

/-- Whether a vector queue entry must wait for a matrix entry before it in program order, which still reads what it writes (12_matrix.md
R353). -/
def Ctx.behindMatrix (c : Ctx) (e : VEntry) : Bool :=
  c.mq.any fun m => decide (m.ord ≤ e.ord) && (m.reads &&& e.writes) != 0#64

/-- Whether the oldest entry of the matrix queue may start: no uncommitted vector instruction before it in program order writes what it
reads (12_matrix.md R354, 07_coroutines.md R199). -/
def Ctx.matrixStarts (c : Ctx) : Bool :=
  match c.mq with
  | [] => false
  | m :: _ => c.vq.all fun e => !(decide (e.ord < m.ord) && (e.writes &&& m.reads) != 0#64)

/-! ## Sweeping elements (06_vector_arithmetic.md R158) -/

/-- What one element's operation gives: its bits, its flags and whether it divided by zero. -/
structure Elt where
  out : Nat
  flags : FFlags
  idz : Bool
  deriving DecidableEq, Repr

/-- A result that raises nothing. -/
def quietElt (v : Nat) : Elt := ⟨v, noFlags, false⟩

/-- A destination group as it is being written, with the flags raised so far. -/
structure Sweep where
  group : Nat
  flags : FFlags
  idz : Bool
  deriving DecidableEq, Repr

/-- `n` elements from `e` on: active ones take `f` of their index and draw, inactive ones zero where `mz` is set. `x` is the draw
before element `e`'s (03_numbers.md R78). -/
def sweep (w : Nat) (active : Nat → Bool) (mz : Bool) (f : Nat → Word → Elt) : Nat → Nat → Word → Sweep → Sweep
  | 0, _, _, acc => acc
  | n + 1, e, x, acc =>
    sweep w active mz f n (e + 1) (xorshift x)
      (if active e then
        ⟨setElem w acc.group e (f e (xorshift x)).out, acc.flags ||| (f e (xorshift x)).flags, acc.idz || (f e (xorshift x)).idz⟩
      else if mz then { acc with group := setElem w acc.group e 0 }
      else acc)

/-- The flags of a vector instruction merged into fcr and status (03_numbers.md R84, 04_scalar.md R100). -/
def Ctx.noteFlags (c : Ctx) (f : FFlags) (idz : Bool) : Ctx :=
  { c with fcr := fcrMerge c.fcr f, status := if idz then c.status ||| statusIdz else c.status }

/-- The tail of a group of elements cleared where tz is set; nothing is written with vl = 0 (R140). -/
def tailed (vl vt : Word) (w g : Nat) : Nat :=
  if vtTz vt && vlLen vl != 0 then clearBits (vlLen vl * w) (vlMax vt * w) g else g

/-- The tail of an entry's group, with its last micro-operation (R158). -/
def VEntry.tailed (e : VEntry) (w g : Nat) : Nat := if e.lim < vlLen e.vl then g else Machine.tailed e.vl e.vtype w g

/-! ## Shadow images (R141) -/

/-- Doubleword `k` of a shadow image. -/
def shDw (sh : BitVec 1024) (k : Nat) : Word := BitVec.ofNat 64 (sh.toNat >>> (64 * k))

/-- A shadow image of its doublewords. -/
def shImage (dws : List Word) : BitVec 1024 := BitVec.ofNat 1024 (dws.foldr (fun w acc => w.toNat + (acc <<< 64)) 0)

/-- Shadow register `k`. -/
def Ctx.shadow (c : Ctx) (k : BitVec 2) : BitVec 1024 := c.sh[k.toNat]'(k.isLt)
/-- Shadow register `k` written. -/
def Ctx.setShadow (c : Ctx) (k : BitVec 2) (v : BitVec 1024) : Ctx := { c with sh := c.sh.set k.toNat v k.isLt }

/-- The header of a reduction's or scan's image (Table 5.5). -/
def shHeader (busy : Bool) (et op cls : Nat) (cp : Bool) (sp order : Nat) : Word :=
  BitVec.ofNat 64 ((if busy then 2 ^ 31 else 0) + et * 2 ^ 22 + op * 2 ^ 19 + cls * 2 ^ 16 + (if cp then 2 ^ 15 else 0) +
    sp * 2 ^ 8 + order)

end Sys2Proof.Machine
end

