-- ==== Sys2Proof/Machine/Escapement.lean ====
section
/-!
DEFINITION. The escapement (07_coroutines.md R186 to R194, R203, R222, R491): the order of ready coroutines, selection, what a wait
completes with, and room in the context cache.
-/

namespace Sys2Proof.Machine

/-! ## The ready order (R187) -/

/-- Whether a ready slot ranks before another: by level, class and sequence number (R187). -/
def selBefore (a b : Slot) : Bool :=
  if supSlot a.num ≠ supSlot b.num then supSlot a.num
  else if a.cls ≠ b.cls then a.cls < b.cls
  else a.seq < b.seq

/-- A slot put into its place in the ready order. -/
def insertReady (t : Slot) : List Slot → List Slot
  | [] => [t]
  | u :: r => if selBefore t u then t :: u :: r else u :: insertReady t r

/-- The ready slots of a core, best first (R187). -/
def Core.readyOrder (k : Core) : List Slot := (k.slots.filter fun t => t.state = .ready).foldl (fun acc t => insertReady t acc) []

/-- The condition of a slot as its cell stands: read again at selection (R188). A cell of another device is known by its wake. -/
def State.slotReadyNow (s : State) (k : Core) (t : Slot) : Bool :=
  match t.waitFor with
  | .nothing => true
  | .fault => s.faultCondition t.handle
  | .token => if hDev t.handle = s.devNo then s.condition (k.crewOf t.num) t.handle t.asks else t.woken
  | .resource => if hDev t.handle = s.devNo then s.condition (k.crewOf t.num) t.handle t.asks else t.woken

/-! ## What a selected coroutine begins with -/

/-- The slot entry of a coroutine that runs; `now` is its place in the order of entries into ready and running (R194). Its vector part stays
deferred until a restore of it (R226, 20_programs_system.md R486). -/
def Slot.started (t : Slot) (now : Word) : Slot :=
  { t with state := .running, waitFor := .nothing, pending := .none, woken := false, refused := false, recent := now, spilled := false,
           deferredSpawn := false }

/-- Slot `t` of the core whose turn it is begins to run with its context live (R188). -/
def State.start (s : State) (t : Slot) : State :=
  { s with me := { s.me.updSlot t.num (fun u => u.started s.me.recentCount) with
      run := some t.num, ctx := t.ctx, recentCount := s.me.recentCount + 1#64 } }

/-- The oldest record of core `c`'s queue held open by the running coroutine (R207). -/
def State.takeRecord (s : State) (c : BitVec 10) : State :=
  match (s.coreAt c).records with
  | [] => s
  | r :: rest => (s.updCore c fun k => { k with records := rest }).updCtx fun x => { x with record := some r }

/-- recv's completion: the slot word of the head is read into x[d] and cleared, and the head advances (08_tokens.md R261). -/
def State.receive (s : State) (h : Word) (d : BitVec 5) : State :=
  let c := s.cellOf (hCore h) (hIndex h)
  let a := slotAddr (hCore h) c c.head.toNat + 8
  let w : Word := BitVec.ofNat 64 (s.physRead a 8)
  let sc := maxScope (s.reach s.me.id h) (w.extractLsb' 60 3)
  let s1 := (s.physWrite a 8 0).putCell (hCore h) (hIndex h) { c with lower := setBits c.lower 15 0 (c.head.toNat + 1) }
  ((s1.putX d w).acquire sc).cellChanged (hCore h) (hIndex h)

/-- fut.get's completion (08_tokens.md R258). -/
def State.getFuture (s : State) (h : Word) (d : BitVec 5) : State :=
  (s.putX d (s.cellOf (hCore h) (hIndex h)).lower).acquire (s.acquireScope s.me.id h)

/-- A deferred spawn that is selected is one no longer: the count cell's valid bit is cleared (R219). -/
def State.clearDeferral (s : State) (h : Word) : State :=
  let c := s.cellOf (hCore h) (hIndex h)
  s.putCell (hCore h) (hIndex h) { c with upper := setBits c.upper 14 14 0 }

/-- What a wait on a token completes with once its coroutine runs (R222, R491): TOKEN_STALE on a renewed cell, else a record taken,
a pending form's result, and the acquire, of a coroutine of spawn.on at its spawner's reach too (08_tokens.md R241). A cell of another device
answers as it pleases (log 15); a watch that was refused traps WINDOW_CLOSED (16_pod.md R439). -/
def State.finishWait (s : State) (t : Slot) : State :=
  let h := t.handle
  let epc := if t.kind = .fresh then s.pc else s.pc - 4#19
  if hDev h ≠ s.devNo ∧ t.refused then s.trap 0x0A#8 h false epc
  else if hDev h ≠ s.devNo then
    match s.askRemote (s.formReq .value h t.asks) with
    | (s1, .done v) => (match t.pending with
        | .futGet d => s1.putX d v
        | .recv _ => s1
        | .none => s1).acquire 4#3
    | (s1, .refused) => s1.trap 0x0A#8 h false epc
    | (s1, .failed _) => s1.trap 0x09#8 h false epc
  else if s.stale (s.me.crewOf t.num) h then
    s.trap 0x09#8 h false epc
  else if isResource h then (if hIndex h = 2#16 then s.takeRecord (hCore h) else s).acquire (s.acquireScope s.me.id h)
  else
    match t.pending with
    | .futGet d => s.getFuture h d
    | .recv d => s.receive h d
    | .none =>
      (if t.deferredSpawn then s.clearDeferral h else s).acquire
        (if t.kind = .fresh then maxScope t.acq (s.acquireScope s.me.id h) else s.acquireScope s.me.id h)

/-- What a wait on a fault token completes with: a replay on value 0, behind the release at device scope that signals the token, else
PAGE_PROTECT with the same address (13_address_space.md R385, R394). -/
def State.finishFault (s : State) (t : Slot) : State :=
  let c := s.cellOf (hCore t.handle) (hIndex t.handle)
  if c.gen = hGen t.handle ∧ c.lower ≠ 0#64 then s.trap 0x06#8 s.me.ctx.eaddr (s.me.ctx.cause.getLsbD 9) s.pc else s.acquire 3#3

/-- The first effects of a selected coroutine (R188, R226, R481, R486): VECTOR_OFF for a queue frame whose vector part is deferred, at each
selection until it is restored, the
completion of its wait, and the acquire of a new coroutine. -/
def State.complete (s : State) (t : Slot) : State :=
  let s0 := match t.waitFor with
    | .nothing => s
    | _ => if hDev t.handle = s.devNo then s.syncWp (hCore t.handle) (hIndex t.handle) else s
  if t.deferredVq.isSome then s0.trap 0x04#8 0#64 false s0.pc
  else
    match t.waitFor with
    | .nothing => if t.kind = .fresh then s0.acquire t.acq else s0
    | .resource => s0
    | .fault => s0.finishFault t
    | .token => s0.finishWait t

/-- A slot whose condition has turned false returns to waiting and sends its watch again (R188, 08_tokens.md R243 step 6). -/
def State.unready (s : State) (t : Slot) : State :=
  let u : Slot := { t with state := .waiting, woken := false }
  ({ s with me := s.me.updSlot t.num fun _ => u }).sendWatch s.me.id u

/-- Room in the cache for a selected coroutine's claim, its own context leaving the cache or the reserve; none where it cannot be made
(R192, R194; log 55). -/
def Core.roomFor (k : Core) (t : Slot) : Option Core :=
  Core.makeRoom (if supSlot t.num then 0 else 1) (claimUnits t.ctx.vdirty) 256
    (k.updSlot t.num fun u => { u with state := .running, spilled := false })

/-- The condition of a slot that waits on a cell of another device, asked again there at selection (R188, 08_tokens.md R243 step 6; log 15): a
request that is refused or fails is left to the completion of the wait. -/
def State.retest (s : State) (t : Slot) : State × Bool :=
  if t.refused ∨ hDev t.handle = s.devNo ∨ ¬(t.waitFor = .token ∨ t.waitFor = .resource) then (s, true)
  else
    let crew := s.me.crewOf t.num
    match s.askRemote ⟨.token, crew, s.devNo, t.handle, 8#9, t.asks, 0#64,
      ⟨CellForm.poll.code, t.handle, 0#64, 0#3, 0#64, false, crew, crew != 0#7, s.devNo, s.me.id, t.num⟩, 0#2048⟩ with
    | (s1, .done v) => (s1, v.getLsbD 0)
    | (s1, _) => (s1, true)

/-- Selection down the ready order (R188, R194): the first slot whose condition holds and whose context can run begins to run;
one without room stays ready and a CONTEXT_PRESSURE record is queued (log 55). -/
def State.selectFrom (s : State) : List Slot → State
  | [] => s
  | t :: rest =>
    if !s.slotReadyNow s.me t then (s.unready t).selectFrom rest
    else
      match s.retest t with
      | (s1, false) => (s1.unready t).selectFrom rest
      | (s1, true) =>
        match s1.me.roomFor t with
        | none => (s1.pressure s1.me.id (coidOf s1.me.id t.num)).selectFrom rest
        | some k => (State.complete ({ s1 with me := k }.start t) t)

/-- Whether the core may run a coroutine: not halted, and its movement in M0 and not about to leave it (R211, 17_host_security_power.md R466,
R467). -/
def State.mayRun (s : State) (k : Core) : Bool := !k.halted && (s.movAt (movOf k.id)).power = .m0 && !(s.movAt (movOf k.id)).leaving

/-- SELECTION: the escapement of the core whose turn it is picks the next coroutine (R188). -/
def State.select (s : State) : State := s.selectFrom s.me.readyOrder

/-! ## Room for contexts (R191 to R195) -/

/-- Whether the core can take a new context of slot `n`, spilling as needed, and whether the context goes to the reserve itself
(R194). A new context holds no pool unit. -/
def Core.takeContext (k : Core) (n : BitVec 8) : Option (Core × Bool) :=
  if supSlot n then some (k, false)
  else
    match Core.makeRoom 1 0 256 k with
    | some k' => some (k', false)
    | none => if 1024 ≤ k.reserveFree false then some ({ k with spills := k.spills + 1#64 }, true) else none

/-! ## Quantum and voluntary switches -/

/-- Whether another ready coroutine of equal or higher rank stands behind the running one (R203). -/
def Core.hasRival (k : Core) (n : BitVec 8) : Bool :=
  match k.slot? n with
  | none => false
  | some me => k.slots.any fun t => t.state = .ready && t.num ≠ n &&
      (if supSlot t.num ≠ supSlot n then supSlot t.num else t.cls ≤ me.cls)

/-- left = reload × 1,024 (R202, R203). -/
def quantumReload (q : Word) : Word := setBits q 33 0 (bits q 57 34 * 1024)

/-- await, fut.get or recv that waits: a voluntary switch, then the wait (R197, R222, R491). -/
def State.waitVoluntary (s : State) (live h phase : Word) (pending : Pending) : State :=
  let n := s.slotNum
  let k := s.me.volunteer live fun t =>
    { t with state := .waiting, waitFor := .token, handle := h, phase := phase, pending := pending, woken := false }
  { s with me := k }.beginWait s.me.id n

end Sys2Proof.Machine
end

