-- ==== Sys2Proof/Machine/Spawning.lean ====
section
/-!
DEFINITION. Making coroutines: slots, new contexts, placement and farms, and binding a crew to a core (07_coroutines.md R212, R215,
R218, R224, R228).
-/

namespace Sys2Proof.Machine

/-! ## Slots and classes -/

/-- The slots of a level. -/
def slotRange (sup : Bool) : List (BitVec 8) := (List.range (if sup then 4 else 252)).map fun i => BitVec.ofNat 8 (if sup then i else i + 4)

/-- The lowest empty slot of a level on a core (R218). -/
def Core.lowestSlot (k : Core) (sup : Bool) : Option (BitVec 8) := (slotRange sup).find? fun n => (k.slot? n).isNone

/-- The number of empty slots of a level on a core (R218). -/
def Core.emptySlots (k : Core) (sup : Bool) : Nat :=
  (if sup then 4 else 252) - (k.slots.filter fun t => supSlot t.num == sup).length

/-- The class that a request gives: a user coroutine cannot raise it above its own (R212). -/
def grantedClass (sup : Bool) (own asked : BitVec 2) : BitVec 2 := if !sup && asked < own then own else asked

/-- Whether a crew may place a coroutine on a core: crew 0 on every core, a user crew where it is bound (R218). -/
def State.eligible (s : State) (crew : BitVec 7) (c : BitVec 10) : Bool := crew == 0#7 || (s.coreAt c).bound == crew

/-! ## New contexts -/

/-- What a creator gives its coroutine: the entry, x8, x9, x3, the class, the quantum's reload, and the scope of its release (R218). -/
structure Start where
  entry : Word
  arg : Word
  parent : Word
  gp : Word
  cls : BitVec 2
  reload : Nat
  acq : BitVec 3
  deriving DecidableEq, Repr

/-- The quantum word of a new coroutine: left = reload × 1,024 (R218, Table 7.7). -/
def startQuantum (cls : BitVec 2) (reload : Nat) : Word :=
  BitVec.ofNat 64 (cls.toNat * 2 ^ 62 + reload * 2 ^ 34 + reload * 1024)

/-- A new coroutine's registers (R218, 03_numbers.md R72, R74, 04_scalar.md R99, 05_lanes.md R127). -/
def Ctx.fresh (coid : BitVec 18) (b : Start) : Ctx :=
  { Ctx.reset with
    pc := b.entry.setWidth 19 &&& 0x7FFFE#19
    x := ((Ctx.reset.x.set 3 b.gp).set 8 b.arg).set 9 b.parent
    prng := coid.zeroExtend 64 + 1#64
    quantum := startQuantum b.cls b.reload }

/-- A new coroutine's slot entry. -/
def Slot.fresh (core : BitVec 10) (n : BitVec 8) (b : Start) : Slot where
  num := n
  state := .waiting
  cls := b.cls
  seq := 0#64
  waitFor := .nothing
  handle := 0#64
  phase := 0#64
  woken := false
  refused := false
  pending := .none
  records := 0
  crewFault := false
  kind := .fresh
  saved := 0xFFFFFF0000000000#64
  spilled := false
  recent := 0#64
  deferred := none
  deferredVq := none
  deferredSpawn := false
  acq := b.acq
  ctx := Ctx.fresh (coidOf core n) b

/-- A new coroutine on core `c`, ready at the tail of its class (R218); none where the core has no empty slot of the level or
cannot take a context. One of a faulted crew is held (08_tokens.md R248). Its place in the spill order is that of its creation, of a coroutine
of spawn.on too, which has not entered ready (R194; log 71). -/
def State.place (s : State) (c : BitVec 10) (sup : Bool) (b : Start) : Option (State × BitVec 8) :=
  let k := s.coreAt c
  match k.lowestSlot sup with
  | none => none
  | some n =>
    match k.takeContext n with
    | none => none
    | some (k', spilled) =>
      let k1 := k'.putSlot { Slot.fresh c n b with spilled := spilled }
      some (s.setCore (if !sup && s.crewFaulted k.bound then k1.updSlot n Slot.crewHold else k1.stamp n), n)

/-- What the running coroutine gives a coroutine that it creates (R218). -/
def State.startOf (s : State) (entry arg parent : Word) (cls : BitVec 2) (acq : BitVec 3) : Start :=
  ⟨entry, arg, parent, s.x 3#5, cls, bits s.me.ctx.quantum 57 34, acq⟩

/-- The running coroutine's class. -/
def State.ownClass (s : State) : BitVec 2 := s.me.ctx.quantum.extractLsb' 62 2

/-! ## Farms (R215, R224) -/

/-- The cores of a farm's set (Table 7.12). -/
def farmCores (first cores : Word) : List (BitVec 10) :=
  let n := bits cores 10 0
  let f := bits first 9 0
  if n = 0 then (List.range 1024).map (BitVec.ofNat 10)
  else ((List.range n).map fun i => f + i).filterMap fun c => if c < 1024 then some (BitVec.ofNat 10 c) else none

/-- One worker on each core of a list that can take one, and how many (R224). -/
def State.farmOver (s : State) (crew : BitVec 7) (b : Start) : List (BitVec 10) → State × Nat
  | [] => (s, 0)
  | c :: r =>
    if !s.eligible crew c then s.farmOver crew b r
    else
      match s.place c (crew == 0#7) b with
      | none => s.farmOver crew b r
      | some (s1, _) =>
        match s1.farmOver crew b r with
        | (s2, n) => (s2, n + 1)

/-- The counter of a farm set: count 0, threshold the number of strips, the generation unchanged (R224 step 1). -/
def State.farmCounter (s : State) (h strips : Word) : State :=
  let c := s.cellOf (hCore h) (hIndex h)
  (s.putCell (hCore h) (hIndex h) { c with lower := BitVec.ofNat 64 (bits strips 31 0 * 2 ^ 32) }).cellChanged (hCore h) (hIndex h)

/-- The class of a farm's workers, where its cls field is legal (Table 7.12, R224). -/
def farmClass (sup : Bool) (own : BitVec 2) (field : Word) : Option (BitVec 2) :=
  if field = 0#64 then some own
  else if field.toNat ≤ 4 then some (grantedClass sup own (BitVec.ofNat 2 (field.toNat - 1)))
  else none

/-! ## Binding a crew (R228) -/

/-- Whether a crew number names a crew that exists, or none. -/
def State.crewExists (s : State) (n : BitVec 7) : Bool := n == 0#7 || (s.crew? n).isSome

/-- Whether a core refuses a bind: a user slot is not empty, or a copy command of its crew is queued (R228). -/
def Core.bindBusy (k : Core) : Bool :=
  k.slots.any (fun t => !supSlot t.num) || (k.bound != 0#7 && k.copies.any fun c => c.crew == k.bound)

/-- The watches that a core holds answered where their condition now holds, cell by cell (08_tokens.md R243, R246). -/
def State.answerAll (s : State) (core : BitVec 10) : State :=
  ((s.coreAt core).watches.map fun w => hIndex w.handle).eraseDups.foldl (fun acc i => acc.answerWatches core i) s

/-- A crew bound to a core, or the core left unbound (R228): its space and reserve, its scratchpad zeroed outside crew 0's part,
its matrix state cleared, and replay begun (08_tokens.md R249). -/
def State.bindCore (s : State) (core : BitVec 10) (n : BitVec 7) : State :=
  let row := s.crew? n
  let lo := scratchAddr core 4096
  let hi := scratchAddr core 0x100000
  let s1 := s.clearMatrix core
  let s2 := s1.updCore core fun k =>
    { k with bound := n, rsv := (row.map fun r => r.reserve.zeroExtend 8).getD 0#8, space := (row.map fun r => r.space).getD 0#64,
             replay := n != 0#7, replayEnd := false }
  { s2.physZero lo (hi - lo) with bad := s2.bad.filter fun u => !(decide (lo ≤ u) && decide (u < hi)) }.answerAll core

end Sys2Proof.Machine
end

