-- ==== Sys2Proof/Machine/CoroutineImage.lean ====
section
/-!
DEFINITION. Context images: the frame, and what vctx.save writes and vctx.restore reads (07_coroutines.md R200, R201, R225, R226,
R481, R482, R491).
-/

namespace Sys2Proof.Config
open Sys2Proof.Machine

/-- The queue entries in a vector queue frame that no vctx.save of this device wrote, where the integrity check verifies with the context
key: its doublewords, the image serial and the key (07_coroutines.md R200; log 12). -/
opaque foreignQueue (frame : List Word) (serial : BitVec 32) (key : Word) : Option (List VEntry × List MEntry)

end Sys2Proof.Config

namespace Sys2Proof.Machine

/-! ## Blocks of memory -/

/-- Doublewords stored by scalar stores from an address up; the first fault stops them (R225). -/
def State.storeDws (s : State) (va : Word) : List Word → State × Option (MemFault × Word)
  | [] => (s, none)
  | w :: r =>
    match s.storeScalar va 8 w.toNat with
    | (s1, .fault f) => (s1, some (f, va))
    | (s1, .ok) => s1.storeDws (va + 8#64) r

/-- Doublewords of a number, lowest first. -/
def dwsOf : Nat → Nat → List Word
  | 0, _ => []
  | n + 1, v => BitVec.ofNat 64 v :: dwsOf n (v >>> 64)

/-- A number of its doublewords, lowest first. -/
def natOf (l : List Word) : Nat := l.foldr (fun w acc => w.toNat + (acc <<< 64)) 0

/-- A fault of one of an instruction's block accesses: its stores before the fault are not made (04_scalar.md R104), and where the
access waits for the host's translation the instruction waits. -/
def State.blockFault (before after : State) (f : MemFault) (va : Word) (store : Bool) : State :=
  match f with
  | .wait => after
  | _ => before.takeFault f va store before.pc

/-! ## The frame (Tables 7.5, 7.6) -/

/-- vcp of a saved context: the oldest uncommitted vector instruction, that of an image whose vector part is deferred, or none pending
(05_lanes.md R133, R149). -/
def Slot.vcpWord (t : Slot) : Word :=
  match t.ctx.vq, t.deferredVq with
  | e :: _, _ => 0x80000#64 ||| e.pc.zeroExtend 64
  | [], some w => w.zeroExtend 64
  | [], none => t.ctx.pc.zeroExtend 64

/-- Whether a slot's vector queue frame is in its image or awaits a restore of it. -/
def Slot.queueSaved (t : Slot) : Bool := t.ctx.hasFrame || t.deferredVq.isSome

/-- The frame header (Table 7.6). -/
def Slot.header (t : Slot) (serial : BitVec 32) : Word :=
  let kind := match t.kind with
    | .voluntary => 1
    | .forced => 2
    | .fresh => 3
  BitVec.ofNat 64 (kind * 2 ^ 56 + t.cls.toNat * 2 ^ 54 + (if t.queueSaved then 2 ^ 53 else 0) +
    (if bits t.saved 39 32 = 0 then 0 else 2 ^ 52) + serial.toNat * 2 ^ 16 + 1)

/-- The record flags (Table 7.5, offset 0x020); a slot held by its crew's fault alone is held by no open record (08_tokens.md R248). -/
def Slot.flagWord (t : Slot) : Word :=
  BitVec.ofNat 64 ((if t.state = .held ∧ t.records ≠ 0 then 1 else 0) + (if t.waitFor = .fault then 2 else 0) +
    (match t.pending with
      | .none => 0
      | .futGet d => 4 + d.toNat * 16
      | .recv d => 8 + d.toNat * 16))

/-- The frame's 128 doublewords (Table 7.5). -/
def Slot.frame (t : Slot) (core : BitVec 10) (crew : BitVec 7) (serial : BitVec 32) : List Word :=
  let c := t.ctx
  [t.header serial, t.saved, if t.waitFor = .nothing then 0#64 else t.handle, if t.waitFor = .nothing then 0#64 else t.phase, t.flagWord] ++
  (match c.record with
    | none => [0#64, 0#64, 0#64]
    | some r => [0x8000000000000000#64 ||| (r.rcoid.zeroExtend 64 <<< 40) ||| Machine.causeWord r.code r.vec r.st, r.eaddr,
        r.epc.zeroExtend 64]) ++
  [c.vl, c.vtype, c.vstart.zeroExtend 64, t.vcpWord, c.ldst.zeroExtend 64, c.fcr, c.prng, c.status, c.vdirty,
    (coidOf core t.num).zeroExtend 64, c.quantum, c.cause, c.eaddr, c.pc.zeroExtend 64, crew.zeroExtend 64, 0#64] ++
  (c.x.toList.drop 1) ++ List.replicate 9 0#64 ++ c.sh.toList.flatMap fun v => dwsOf 16 v.toNat

/-- The parts of an image beside the frame, with their offsets: saved masks, the queue frame, saved vector registers (Table 7.4). -/
def Slot.parts (t : Slot) (queue : Nat) : List (Nat × List Word) :=
  ((List.range 8).filter fun i => t.saved.getLsbD (32 + i)).map (fun i => (0x400 + 0x100 * i, dwsOf 32 (t.ctx.mReg i))) ++
  (if t.ctx.hasFrame then [(0x1000, dwsOf 512 queue)] else []) ++
  ((List.range 32).filter fun i => t.saved.getLsbD i).map fun i => (0x2000 + 0x800 * i, dwsOf 256 (t.ctx.vReg i))

/-- Blocks stored in turn. -/
def State.storeBlocks (s : State) (va : Word) : List (Nat × List Word) → State × Option (MemFault × Word)
  | [] => (s, none)
  | p :: r =>
    match s.storeDws (va + BitVec.ofNat 64 p.1) p.2 with
    | (s1, some f) => (s1, some f)
    | (s1, none) => s1.storeBlocks va r

/-- The bytes of a queue frame as a number: the version word with the stepping, then what the device makes of it (R200; log 12). -/
def queueImage (id : Nat) : Nat := (Config.frameImage id).toNat / 2 ^ 64 * 2 ^ 64 + 0x10001

/-- Whether 512 doublewords are a frame that this device wrote under an image serial and its context key with the check or the rest altered:
the check of such a frame does not verify (R200, 20_programs_system.md R486). -/
def State.alteredFrame (s : State) (dws : List Word) (serial : BitVec 32) : Bool :=
  s.savedFrames.any fun f =>
    let own := dwsOf 512 (queueImage f.image)
    f.serial == serial && f.key == s.contextKey && dws != own && (dws.getD 511 0#64 == own.getD 511 0#64 || dws.take 511 == own.take 511)

/-- The queue entries that the 512 doublewords of a frame stand for under an image serial, where their check verifies (R200). -/
def State.findFrame (s : State) (dws : List Word) (serial : BitVec 32) : Option SavedFrame :=
  s.savedFrames.find? fun f => f.serial == serial && f.key == s.contextKey && natOf dws == queueImage f.image

/-! ## Reading a frame -/

/-- Doubleword at a byte offset of a frame. -/
def frameDw (l : List Word) (off : Nat) : Word := l.getD (off / 8) 0#64

/-- Whether a header and the record flags pass (Tables 7.5, 7.6). -/
def frameOk (l : List Word) : Bool :=
  let h := frameDw l 0
  let f := frameDw l 0x20
  decide (1 ≤ bits h 63 56) && decide (bits h 63 56 ≤ 3) && bits h 51 48 == 0 && bits h 15 0 == 1 &&
    bits f 63 9 == 0 && bits f 3 2 != 3 && !(bits f 3 2 == 0 && bits f 8 4 != 0)

/-- The context that a frame holds, its vector part aside (Table 7.5). A field that a write at S could not set keeps its reserved
bits zero. An open record's queue is taken to be that of its rcoid's core, and its copy entry and its coroutine's eviction are not in the
frame (R226; log 68). -/
def frameCtx (l : List Word) : Ctx :=
  { Ctx.reset with
    pc := (frameDw l 0xA8).setWidth 19 &&& 0x7FFFE#19
    x := Vector.ofFn fun i => if i.val = 0 then 0#64 else frameDw l (0xC0 + 8 * (i.val - 1))
    sh := Vector.ofFn fun k => BitVec.ofNat 1024 (natOf ((l.drop (64 + 16 * k.val)).take 16))
    vl := frameDw l 0x40 &&& 0xFFFFFFFF#64
    vtype := frameDw l 0x48 &&& 0x8000000000000FFF#64
    vstart := (frameDw l 0x50).setWidth 16
    ldst := (frameDw l 0x60).setWidth 6
    fcr := fcrWrite 0#64 (frameDw l 0x68)
    prng := prngWrite (frameDw l 0x70)
    status := statusWrite true 0#64 (frameDw l 0x78)
    vdirty := frameDw l 0x80 &&& 0xFFFFFFFFFFF#64
    quantum := frameDw l 0x90 &&& 0xC3FFFFFFFFFFFFFF#64
    cause := frameDw l 0x98 &&& 0x3FF#64
    eaddr := frameDw l 0xA0
    epc := (frameDw l 0xA8).setWidth 19
    record := if (frameDw l 0x28).getLsbD 63 then
        let w := frameDw l 0x28
        some ⟨w.setWidth 8, w.getLsbD 9, w.getLsbD 8, w.extractLsb' 40 18, frameDw l 0x30, (frameDw l 0x38).setWidth 19, none, false,
          w.extractLsb' 48 10⟩
      else none }

/-- The slot entry that a frame gives, not yet settled (R226, R482, R491). A forced context that waits on a token waits on a
resource, and runs its instruction again. -/
def frameSlot (l : List Word) (n : BitVec 8) (c : Ctx) : Slot :=
  let h := frameDw l 0
  let f := frameDw l 0x20
  { num := n, state := if f.getLsbD 0 then .held else .waiting, cls := h.extractLsb' 54 2, seq := 0#64,
    waitFor := if frameDw l 0x10 = 0#64 then .nothing else if f.getLsbD 1 then .fault else if bits h 63 56 = 2 then .resource else .token,
    handle := frameDw l 0x10, phase := frameDw l 0x18, woken := false,
    pending := (match bits f 3 2 with
      | 1 => .futGet (f.extractLsb' 4 5)
      | 2 => .recv (f.extractLsb' 4 5)
      | _ => .none),
    records := if f.getLsbD 0 then 1 else 0, crewFault := false,
    kind := (match bits h 63 56 with
      | 1 => .voluntary
      | 2 => .forced
      | _ => .fresh),
    saved := frameDw l 8, spilled := false, recent := 0#64, deferred := none, deferredVq := none, deferredSpawn := false, acq := 3#3, refused := false,
    ctx := c }

/-- Whether an image holds a vector part. -/
def frameVector (l : List Word) : Bool :=
  (frameDw l 0).getLsbD 53 || (frameDw l 0).getLsbD 52 || bits (frameDw l 8) 31 0 != 0

/-- A block of doublewords read at an offset of an image by scalar loads. -/
def State.loadBlock (s : State) (va : Word) (off n : Nat) : State × Except (MemFault × Word) (List Word) :=
  s.loadDws (va + BitVec.ofNat 64 off) n

/-- The saved vector registers of an image read into a context, from a list of register numbers. -/
def State.loadVs (s : State) (va : Word) : List Nat → Ctx → State × Except (MemFault × Word) Ctx
  | [], c => (s, .ok c)
  | i :: r, c =>
    match s.loadBlock va (0x2000 + 0x800 * i) 256 with
    | (s1, .error e) => (s1, .error e)
    | (s1, .ok l) => s1.loadVs va r (c.setVGroup i 1 (natOf l))

/-- The saved mask registers of an image read into a context. -/
def State.loadMs (s : State) (va : Word) : List Nat → Ctx → State × Except (MemFault × Word) Ctx
  | [], c => (s, .ok c)
  | i :: r, c =>
    match s.loadBlock va (0x400 + 0x100 * i) 32 with
    | (s1, .error e) => (s1, .error e)
    | (s1, .ok l) => s1.loadMs va r (c.setMGroup i 1 (natOf l))

/-- A restored queue whose oldest instruction runs from a vstart, which software may have changed in the image (R201, 05_lanes.md R150). -/
def resumedAt (v : Nat) : List VEntry → List VEntry
  | [] => []
  | e :: r => (if e.pos = v then e else { e with pos := v, finished := false }) :: r

/-- The vector part of an image loaded into a context: saved registers from the image, others zero, and the queue, whose oldest instruction
resumes at vstart (R226, 05_lanes.md R150). -/
def State.loadVector (s : State) (va : Word) (saved : Word) (mk : Bool) (q : Option SavedFrame) (c : Ctx) :
    State × Except (MemFault × Word) Ctx :=
  let clean : Ctx :=
    { c with
      v := Vector.replicate 32 0#16384
      m := Vector.replicate 8 0#2048
      vq := resumedAt c.vstart.toNat ((q.map fun f => f.vq).getD [])
      mq := (q.map fun f => f.mq).getD [] }
  match s.loadMs va ((List.range 8).filter fun i => mk && saved.getLsbD (32 + i)) clean with
  | (s1, .error e) => (s1, .error e)
  | (s1, .ok c1) => s1.loadVs va ((List.range 32).filter fun i => saved.getLsbD i) c1

/-- The queue frame that doublewords hold: one that this device wrote, or another's whose version, stepping and check are right (R200,
17_host_security_power.md R462); none for one of this device's that is altered. -/
def State.queueFrame (s : State) (l : List Word) (serial : BitVec 32) : Option SavedFrame :=
  match s.findFrame l serial with
  | some f => some f
  | none =>
    if frameDw l 0 ≠ 0x10001#64 ∨ s.alteredFrame l serial then none
    else (Config.foreignQueue l serial s.contextKey).map fun q => ⟨0, serial, s.contextKey, q.1.map fun e => { e with framed := true },
      q.2.map fun e => { e with framed := true }⟩

/-- The queue frame of an image whose header has vq, checked: none where the check fails (R200). -/
def State.readQueue (s : State) (va : Word) (header : Word) : State × Except (MemFault × Word) (Option (Option SavedFrame)) :=
  if !header.getLsbD 53 then (s, .ok (some none))
  else
    match s.loadBlock va 0x1000 512 with
    | (s1, .error e) => (s1, .error e)
    | (s1, .ok l) => (s1, .ok ((s1.queueFrame l (header.extractLsb' 16 32)).map some))

end Sys2Proof.Machine
end

