-- ==== Sys2Proof/Machine/Coroutine.lean ====
section
/-!
DEFINITION. The coroutine instructions (07_coroutines.md R216 to R228).
-/

namespace Sys2Proof.Machine

/-! ## spawn and spawn.on (R218, R219) -/

/-- The cores of a spawn's candidates before the crew is asked: one core, or the cores of a scope (R218). -/
def State.spawnCores (s : State) (placement : Word) : List (BitVec 10) :=
  if placement.getLsbD 13 then
    ((List.range 1024).map (BitVec.ofNat 10)).filter fun c => (reachOf s.me.id c).toNat ≤ bits placement 12 10
  else [placement.setWidth 10]

/-- The core with the most empty slots of a level, the lowest id among equals (R218). -/
def State.roomiest (s : State) (sup : Bool) : List (BitVec 10) → Option (BitVec 10)
  | [] => none
  | c :: r =>
    match s.roomiest sup r with
    | none => some c
    | some d => if (s.coreAt c).emptySlots sup < (s.coreAt d).emptySlots sup then some d else some c

/-- A coroutine created on core `c` after the release to it, with its coroutine id in x[d]; NOROOM and a CONTEXT_PRESSURE record
where the core cannot take a context (R218). -/
def State.spawnAt (s : State) (c : BitVec 10) (d : BitVec 5) (b : Start) : State :=
  match (s.release (reachOf s.me.id c)).place c s.sup b with
  | none => (s.pressure c s.coid).write d (failWord 2)
  | some (s1, n) => s1.write d ((coidOf c n).zeroExtend 64)

/-- The running coroutine suspends on a resource of a core, with its instruction to run again (01_machine.md R26). -/
def State.suspendOn (s : State) (h phase : Word) : State :=
  let n := s.slotNum
  let k := s.me.forceOut s.fresh fun t =>
    { t with state := .waiting, waitFor := .resource, handle := h, phase := phase, woken := false }
  { s with me := k, fresh := s.fresh + 44 }.beginWait s.me.id n

/-- spawn (R218). -/
def execSpawn (d a b c : BitVec 5) (s : State) : Result :=
  .next (
    let p := s.x a
    if p.getLsbD 13 && decide (3 < bits p 12 10) then s.write d (failWord 6)
    else
      let cands := (s.spawnCores p).filter (s.eligible s.crew)
      match cands with
      | [] => s.write d (failWord 1)
      | first :: _ =>
        match s.roomiest s.sup (cands.filter fun k => decide (0 < (s.coreAt k).emptySlots s.sup)) with
        | none => s.suspendOn (resourceHandle s.devNo first 0#16) 0#64
        | some k =>
          s.spawnAt k d (s.startOf (s.x b) (s.x c) (s.coid.zeroExtend 64) (grantedClass s.sup s.ownClass (p.extractLsb' 14 2))
            (reachOf s.me.id k)))

/-- A spawned coroutine turned into a deferred spawn on a count cell: it waits, and the cell names its slot (R219). -/
def State.deferSpawn (s : State) (h : Word) (n : BitVec 8) : State :=
  let core := hCore h
  let cell := s.cellOf core (hIndex h)
  let s1 := s.putCell core (hIndex h) { cell with upper := setBits (setBits cell.upper 22 15 n.toNat) 14 14 1 }
  let s2 := s1.updCore core fun k => k.updSlot n fun t =>
    { t with state := .waiting, waitFor := .token, handle := h, deferredSpawn := true }
  s2.beginWait core n

/-- spawn.on (R219). A user coroutine that names a record token traps PRIVILEGE, as its own await would (R207). -/
def execSpawnOn (d a b c : BitVec 5) (s : State) : Result :=
  .next (
    let h := s.x a
    let k := hCore h
    if hDev h ≠ s.devNo ∨ !s.eligible s.crew k then s.write d (failWord 1)
    else if hKind h ≠ 1#2 then s.write d (failWord 6)
    else if s.heldByReplay s.crew h || s.behindPosted h then s
    else if s.stale s.crew h then s.tokenStale h
    else if !s.sup && hIndex h == 2#16 then s.privilege
    else if (s.cellOf k (hIndex h)).dval then s.write d (failWord 5)
    else if (s.coreAt k).emptySlots s.sup = 0 then s.suspendOn (resourceHandle s.devNo k 0#16) 0#64
    else
      match (s.release (reachOf s.me.id k)).place k s.sup (s.startOf (s.x b) (s.x c) (s.coid.zeroExtend 64) s.ownClass (reachOf s.me.id k)) with
      | none => s.write d (failWord 2)
      | some (s1, n) => (s1.write d ((coidOf k n).zeroExtend 64)).deferSpawn h n)

/-! ## exit, yield, await (R220 to R222) -/

/-- The signal of exit: tksig with n = 1 and the reach as its scope; none for 0, and none from U for a hardware resource cell
(R220, 08_tokens.md R256). -/
def State.exitSignal (s : State) (h : Word) : State :=
  if h = 0#64 ∨ (!s.sup && isResource h) then s
  else
    let sc := s.reach s.me.id h
    (s.release sc).postOp (s.opOf 7#8 h 1#64 sc 0#64 true)

/-- The record that an exiting coroutine holds open returns to the head of its queue (R207, R220). -/
def State.returnRecord (s : State) : State :=
  match s.me.ctx.record with
  | none => s
  | some r => (s.updCtx fun c => { c with record := none }).updCore r.queue fun k => { k with records := r :: k.records }

/-- A coroutine's copy commands left without an issuer: they run on (R220, 10_scratchpad_copy.md R316). -/
def Core.orphanCopies (k : Core) (n : BitVec 8) (why : Issuer) : Core :=
  { k with copies := k.copies.map fun c => if c.ofSlot n then { c with issuer := why } else c }

/-- The stopped copy commands of a coroutine cancelled (11_multigrid.md R340). -/
def Core.cancelStopped (k : Core) (n : BitVec 8) : Core :=
  { k with copies := k.copies.filter fun c => !(c.ofSlot n && c.state == .stopped) }

/-- The sectors of a coroutine's stopped wst commands that had passed their check, in flight no longer (16_pod.md R439). -/
def State.endStopped (s : State) (n : BitVec 8) : State :=
  (s.me.copies.filter fun c => c.ofSlot n && c.state == .stopped && c.kind == .remote && c.partIn == 1).foldl
    (fun acc c => acc.countInflight (c.desc.getD 0 0#64) false) s

/-- exit (R220). -/
def execExit (a : BitVec 5) (s : State) : Result :=
  .next (
    let n := s.slotNum
    if s.x a ≠ 0#64 ∧ s.outqFull then s
    else
      let s1 := ((s.exitSignal (s.x a)).returnRecord).endStopped n
      let k := (((s1.me.openChases n).cancelStopped n).orphanCopies n (.exited s1.me.recentCount)).disownOps n
      { s1 with me := { k.dropSlot n with run := none, ctx := Ctx.reset } })

/-- yield (R221). -/
def execYield (a : BitVec 5) (s : State) : Result :=
  .next (
    let s1 := s.adv 4
    { s1 with me := (s1.me.volunteer (s.x a) fun t => { t with waitFor := .nothing }).stamp s.slotNum })

/-- Whether a handle names a record token (R195, R207). -/
def isRecordToken (h : Word) : Bool := hIndex h == 2#16 && hKind h == 1#2 && hGen h == 0#26

/-- await (R222). -/
def execAwait (d a b : BitVec 5) (s : State) : Result :=
  .next (
    let h := s.x d
    if isRecordToken h && (!s.sup || s.me.ctx.record.isSome) then s.privilege
    else if hDev h ≠ s.devNo ∧ !s.hasRoute (hDev h) then (s.countRefusal s.me.id).trapHere 0x0A#8 h false
    else (s.adv 4).waitVoluntary (s.x b) h (s.x a) .none)

/-! ## fnext and farm (R223, R224) -/

/-- A form that needs a cell at once: its request waits while replay holds it, a stale handle traps, and a hardware resource cell
traps PRIVILEGE at U and fails with BADARG at S; another kind than count fails with BADARG (R223, R224, 08_tokens.md R246). -/
def State.countForm (s : State) (d : BitVec 5) (h : Word) (f : State) : State :=
  if s.heldByReplay s.crew h || s.behindPosted h then s
  else if s.stale s.crew h then s.tokenStale h
  else if isResource h then (if s.sup then s.write d (failWord 6) else s.privilege)
  else if hKind h ≠ 1#2 then s.write d (failWord 6)
  else f

/-- A form on a count cell of another device (16_pod.md R435, R439, R443; log 15): a handle that its home finds stale traps, a hardware
resource cell is as on this device, from U before anything is sent (R27), another kind than count likewise, and a refusal gives
WINDOW_CLOSED. -/
def State.remoteCount (s : State) (d : BitVec 5) (h : Word) (f : CellForm) (operand : Word) (done : State → Word → State) : State :=
  if isResource h && !s.sup then s.privilege
  else s.askCell f h operand
    (fun s1 v => if isResource h ∨ hKind h ≠ 1#2 then s1.write d (failWord 6) else done s1 v)
    (fun s1 => s1.write d (failWord 10)) (fun s1 => s1.tokenStale h)

/-- An index that fnext takes: below 2^32, or all ones (R223). -/
def indexWord (v : Word) : Word := if v.getLsbD 63 then 0xFFFFFFFFFFFFFFFF#64 else v &&& 0xFFFFFFFF#64

/-- fnext (R223). -/
def execFnext (d a : BitVec 5) (s : State) : Result :=
  .next (
    let h := s.x a
    if hDev h ≠ s.devNo then s.remoteCount d h .fnext 0#64 fun s1 v => s1.write d (indexWord v)
    else
      s.countForm d h (
        let c := s.cellOf (hCore h) (hIndex h)
        if c.count < c.threshold then
          ((s.putCell (hCore h) (hIndex h) { c with lower := setBits c.lower 31 0 (c.count + 1) }).cellChanged (hCore h) (hIndex h)).write d
            (BitVec.ofNat 64 c.count)
        else s.write d 0xFFFFFFFFFFFFFFFF#64))

/-- The workers of a farm whose counter is written: the release, the placement and the count in x[d] (R224 steps 2 and 3). -/
def State.farmWorkers (s : State) (d : BitVec 5) (l : List Word) (h : Word) (cls : BitVec 2) : State :=
  match (s.release 3#3).farmOver s.crew (s.startOf (l.getD 0 0) (l.getD 4 0) h cls 3#3) (farmCores (l.getD 2 0) (l.getD 3 0)) with
  | (s1, n) => s1.write d (BitVec.ofNat 64 n)

/-- A farm from its descriptor's doublewords (R215, R224). -/
def State.farm (s : State) (d : BitVec 5) (l : List Word) (h : Word) : State :=
  match farmClass s.sup s.ownClass (l.getD 5 0) with
  | none =>
    if hDev h ≠ s.devNo then s.remoteCount d h .read 0#64 fun s1 _ => s1.write d (failWord 6)
    else s.countForm d h (s.write d (failWord 6))
  | some cls =>
    if hDev h ≠ s.devNo then s.remoteCount d h .farm (l.getD 1 0) fun s1 _ => s1.farmWorkers d l h cls
    else s.countForm d h ((s.farmCounter h (l.getD 1 0)).farmWorkers d l h cls)

/-- farm (R224). -/
def execFarm (d a b : BitVec 5) (s : State) : Result :=
  .next (
    if (s.x a).toNat % 64 ≠ 0 then s.takeFault .misaligned (s.x a) false s.pc
    else
      match s.loadDws (s.x a) 6 with
      | (s1, .error (f, va)) => s1.takeFault f va false s.pc
      | (s1, .ok l) => s1.farm d l (s.x b))

/-! ## vctx.save and vctx.restore (R225, R226) -/

/-- A form of level S: PRIVILEGE at U (R22, R216). -/
def State.level (s : State) (f : State) : State := if s.sup then f else s.privilege

/-- The watches of a slot withdrawn from the home cores of this device (08_tokens.md R243). -/
def State.withdrawWatches (s : State) (core : BitVec 10) (n : BitVec 8) : State :=
  s.mapCores fun k => { k with watches := k.watches.filter fun w => !(w.dev == s.devNo && w.core == core && w.slot == n) }

/-- The withdrawal of a slot's watch sent to another device (08_tokens.md R243). -/
def State.withdrawAway (s : State) (t : Slot) : State :=
  if (t.waitFor = .token ∨ t.waitFor = .resource) ∧ hDev t.handle ≠ s.devNo then
    { s with podOut := s.podOut ++ [⟨.watch, s.me.crewOf t.num, s.devNo, t.handle, 8#9, t.asks, 0#64,
      ⟨CellForm.unwatch.code, t.handle, t.asks, 0#3, 0#64, false, s.me.crewOf t.num, false, s.devNo, s.me.id, t.num⟩, 0#2048⟩] }
  else s

/-- Whether a record is the own record of the coroutine that it names: a trap, SERVICE, QUANTUM or PREEMPT (R207). -/
def Record.isOwn (r : Record) : Bool := r.entry.isNone && r.code != 0x0E#8

/-- A slot emptied by an eviction: its deferral ended, its watches withdrawn, its copy commands left without their issuer, whose image has
the serial, and the record that it holds open kept so (R225). -/
def State.evict (s : State) (t : Slot) (serial : BitVec 32) : State :=
  let s1 := if t.deferredSpawn then s.clearDeferral t.handle else s
  let away := match t.ctx.record with
    | some r => if r.isOwn then [r.rcoid] else []
    | none => []
  let s2 := { (s1.withdrawWatches s.me.id t.num).withdrawAway t with recordsAway := s1.recordsAway ++ away }
  let s3 := { s2 with me := (s2.me.orphanCopies t.num (.evicted serial)).dropSlot t.num }
  if t.waitFor ≠ .nothing ∧ hDev t.handle = s.devNo then s3.syncWp (hCore t.handle) (hIndex t.handle) else s3

/-- The image of a slot written and the slot emptied; x[d] receives the serial (R225). A slot whose vector part is still deferred has its
frame alone written: its vq, mk and saved set are those of the image that holds the vector part, and its serial is new (log 72). -/
def State.saveSlot (s : State) (d : BitVec 5) (va : Word) (t : Slot) : State :=
  let serial := s.me.saveCount
  let blocks := (0, t.frame s.me.id (s.me.crewOf t.num) serial) ::
    (if t.deferred.isSome then [] else t.parts (queueImage s.fresh))
  match s.storeBlocks va blocks with
  | (s1, some (f, a)) => s.blockFault s1 f a true
  | (s1, none) =>
    let s2 : State :=
      if t.ctx.hasFrame then
        { s1 with savedFrames := s1.savedFrames ++ [⟨s.fresh, serial, s.contextKey, t.ctx.vq, t.ctx.mq⟩], fresh := s1.fresh + 1 }
      else s1
    ({ s2 with me := { s2.me with saveCount := serial + 1#32 } }.evict t serial).write d (serial.zeroExtend 64)

/-- vctx.save (R225). The checks come in the order of the rule, with the alignment of x[b] beside the coroutine's core (log 72). -/
def execVctxSave (d a b _c : BitVec 5) (s : State) : Result :=
  .next (s.level (
    let i := s.x a
    let n : BitVec 8 := i.setWidth 8
    if bits i 63 18 ≠ 0 ∨ i.extractLsb' 8 10 ≠ s.me.id ∨ (s.x b).toNat % 4096 ≠ 0 then s.write d (failWord 6)
    else
      match s.me.slot? n with
      | none => s.write d (failWord 3)
      | some t =>
        if t.state = .running then s.write d (failWord 3)
        else if s.me.completionMasks n ≠ 0#64 then s.write d (failWord 5)
        else if s.statusPending n then s
        else s.saveSlot d (s.x b) t))

/-- A restored slot put into the table: its context in the cache, or in the reserve where the cache has no room; none where neither has
room for it (R18, R191, R194, R226; log 48). Until it enters ready or running its place in the spill order is that of its restore
(log 48). -/
def Core.takeIn (k : Core) (t : Slot) : Option Core :=
  match Core.makeRoom (if supSlot t.num then 0 else 1) t.units 256 k with
  | some k' => some { k'.putSlot { t with recent := k'.recentCount } with recentCount := k'.recentCount + 1#64 }
  | none =>
    if t.spillSize ≤ k.reserveFree (supSlot t.num) then
      some { k.putSlot { t with recent := k.recentCount, spilled := true } with
        spills := k.spills + 1#64, recentCount := k.recentCount + 1#64 }
    else none

/-- The copy commands that a coroutine issued before its eviction follow it into the slot where the image of that serial is restored
(R225, R226, 10_scratchpad_copy.md R316). -/
def Core.adoptCopies (k : Core) (n : BitVec 8) (serial : BitVec 32) : Core :=
  { k with copies := k.copies.map fun c => if c.issuer = .evicted serial then { c with issuer := .present, slot := n } else c }

/-- The record that a restored coroutine holds open is held on the device again (R226). -/
def State.bringBack (s : State) (t : Slot) : State :=
  match t.ctx.record with
  | some r => if r.isOwn then { s with recordsAway := s.recordsAway.erase r.rcoid } else s
  | none => s

/-- A restored slot in place, waiting, ready or held as its frame states, a faulted crew's held (R226, 08_tokens.md R248); `source` is the
serial of its image where this core wrote it. NOROOM where the core cannot take its context (log 48). -/
def State.seat (s : State) (d : BitVec 5) (t : Slot) (source : Option (BitVec 32)) : State :=
  let u := if s.crewFaulted (s.me.crewOf t.num) then t.crewHold else t
  match s.me.takeIn u with
  | none => s.write d (failWord 2)
  | some k =>
    let k1 := match source with
      | none => k
      | some serial => k.adoptCopies t.num serial
    (({ s with me := k1 }.bringBack t).beginWait s.me.id t.num).write d 0#64

/-- vctx.restore of parts F, with or without V (R226). A frame's crew above 64 gives BADFRAME before an occupied slot gives NOSLOT (log 68). -/
def State.restoreFrame (s : State) (d : BitVec 5) (n : BitVec 8) (va : Word) (v : Bool) : State :=
  match s.loadBlock va 0 128 with
  | (s1, .error (f, a)) => s1.takeFault f a false s.pc
  | (s1, .ok l) =>
    let crew := frameDw l 0xB0
    if 64 < crew.toNat then s1.write d (failWord 4)
    else if (s1.me.slot? n).isSome ∨ supSlot n ≠ (crew == 0#64) ∨ (crew ≠ 0#64 ∧ s1.me.bound.zeroExtend 64 ≠ crew) then
      s1.write d (failWord 3)
    else if !frameOk l then s1.write d (failWord 4)
    else
      match s1.readQueue va (frameDw l 0) with
      | (s2, .error (f, a)) => s2.takeFault f a false s.pc
      | (s2, .ok none) => s2.write d (failWord 4)
      | (s2, .ok (some q)) =>
        let c := frameCtx l
        let source := if bits (frameDw l 0x88) 63 8 = s.me.id.toNat then some ((frameDw l 0).extractLsb' 16 32) else none
        if !v && frameVector l then
          s2.seat d { frameSlot l n { c with status := c.status ||| 0x100#64 } with
            deferred := some ((frameDw l 0).extractLsb' 16 32), deferredVq := if (frameDw l 0).getLsbD 53 then some ((frameDw l 0x58).setWidth 20) else none } source
        else
          match s2.loadVector va (frameDw l 8) (frameDw l 0 |>.getLsbD 52) q { c with status := c.status &&& ~~~0x100#64 } with
          | (s3, .error (f, a)) => s3.takeFault f a false s.pc
          | (s3, .ok c1) => s3.seat d (frameSlot l n c1) source

/-- A slot whose vector part is restored, its units found in the cache or the reserve; none where neither has room for it (R191, R194; log
48). -/
def Core.reseat (k : Core) (t : Slot) : Option Core :=
  let out := k.dropSlot t.num
  let fits := decide (t.spillSize ≤ out.reserveFree (supSlot t.num))
  if t.spilled && fits then some (out.putSlot t)
  else
    match Core.makeRoom (if supSlot t.num then 0 else 1) t.units 256 out with
    | some k' => some (k'.putSlot { t with spilled := false })
    | none => if fits then some { out.putSlot { t with spilled := true } with spills := out.spills + 1#64 } else none

/-- vctx.restore of parts V alone (R226). -/
def State.restoreVector (s : State) (d : BitVec 5) (n : BitVec 8) (va : Word) : State :=
  match s.me.slot? n with
  | none => s.write d (failWord 5)
  | some t =>
    if t.state ≠ .held ∨ !t.ctx.status.getLsbD 8 then s.write d (failWord 5)
    else
      match s.loadBlock va 0 2 with
      | (s1, .error (f, a)) => s1.takeFault f a false s.pc
      | (s1, .ok l) =>
        if t.deferred ≠ some ((frameDw l 0).extractLsb' 16 32) then s1.write d (failWord 4)
        else
          match s1.readQueue va (frameDw l 0) with
          | (s2, .error (f, a)) => s2.takeFault f a false s.pc
          | (s2, .ok none) => s2.write d (failWord 4)
          | (s2, .ok (some q)) =>
            match s2.loadVector va (frameDw l 8) (frameDw l 0 |>.getLsbD 52) q { t.ctx with status := t.ctx.status &&& ~~~0x100#64 } with
            | (s3, .error (f, a)) => s3.takeFault f a false s.pc
            | (s3, .ok c1) =>
              match s3.me.reseat { t with ctx := c1, deferred := none, deferredVq := none } with
              | none => s3.write d (failWord 2)
              | some k => { s3 with me := k }.write d 0#64

/-- vctx.restore (R226). -/
def execVctxRestore (d a b c : BitVec 5) (s : State) : Result :=
  .next (s.level (
    let i := s.x a
    let n : BitVec 8 := i.setWidth 8
    if i.extractLsb' 8 10 ≠ s.me.id ∨ (s.x b).toNat % 4096 ≠ 0 ∨ (s.x c).setWidth 2 = 0#2 then s.write d (failWord 6)
    else if (s.x c).getLsbD 0 then s.restoreFrame d n (s.x b) ((s.x c).getLsbD 1)
    else s.restoreVector d n (s.x b)))

/-! ## preempt and crew.bind (R227, R228) -/

/-- Whether a coroutine has an own record queued on its core or open, with its holder on the device or evicted (R207, R225, R227). -/
def State.hasOwnRecord (s : State) (i : BitVec 18) : Bool :=
  let own (r : Record) : Bool := r.rcoid == i && r.isOwn
  (s.coreAt (coidCore i)).records.any own || s.recordsAway.contains i ||
    s.cores.any fun k => (k.ctx.record.map own).getD false && k.run.isSome || k.slots.any fun t =>
      t.state ≠ .running && (t.ctx.record.map own).getD false

/-- What preempt does to a coroutine of the device that is there (R227). -/
def State.preemptCoroutine (s : State) (i : BitVec 18) (running hold : Bool) : State :=
  if hold && !s.hasOwnRecord i then s.holdBy i 0x0D#8 0#64 false none
  else if running then s.preemptOut (coidCore i) 0x0D#8
  else s

/-- preempt (R227); bits above 17 of x[a] are ignored (log 69). -/
def execPreempt (d a b : BitVec 5) (s : State) : Result :=
  .next (s.level (
    let i : BitVec 18 := (s.x a).setWidth 18
    match (s.coreAt (coidCore i)).slot? (coidSlot i) with
    | none => s.write d (failWord 3)
    | some t => (s.write d (oneIf (t.state == .running))).preemptCoroutine i (t.state == .running) ((s.x b).getLsbD 0)))

/-- crew.bind (R228). -/
def execCrewBind (d a : BitVec 5) (s : State) : Result :=
  .next (s.level (
    let n : BitVec 7 := (s.x a).setWidth 7
    if 64 < (s.x a).toNat then s.write d (failWord 6)
    else if !s.crewExists n then s.write d (failWord 1)
    else if s.me.bindBusy then s.write d (failWord 5)
    else (s.bindCore s.me.id n).write d 0#64))

end Sys2Proof.Machine
end

