-- ==== Sys2Proof/Machine/CopyEngine.lean ====
section
/-!
DEFINITION. The copy engine (10_scratchpad_copy.md R310 to R316): startable commands and channels, reports, completion, faults, restarts
and cancellation.
-/

namespace Sys2Proof.Machine

/-! ## Ids and agents -/

/-- The coroutine that issued a command. -/
def CopyCmd.coid (c : CopyCmd) (k : BitVec 10) : BitVec 18 := coidOf k c.slot

/-- A token operation of a command of core `k`, acting for its issuer without a report of its own (R315, 08_tokens.md R246). -/
def State.copyOp (s : State) (k : BitVec 10) (c : CopyCmd) (code : BitVec 8) (h operand : Word) (scope : BitVec 3) : TokenOp :=
  { code := code, handle := h, operand := operand, scope := scope, reply := 0#64, toStatus := false, crew := c.crew,
    isUser := !supSlot c.slot, srcDev := s.devNo, srcCore := k, srcSlot := c.slot }

/-! ## Channels (R310, R313) -/

/-- The cores of a movement. -/
def movCores (m : BitVec 8) : List (BitVec 10) := [m ++ 0#2, m ++ 1#2, m ++ 2#2, m ++ 3#2]

/-- Whether a channel of a movement carries a command. -/
def State.channelBusy (s : State) (m : BitVec 8) (ch : BitVec 4) : Bool :=
  (movCores m).any fun k => (s.coreAt k).copies.any fun c => c.state == .running && c.chan == some ch

/-- The channels that a command may use (R310, 15_complications.md R427). -/
def CopyCmd.allowed (c : CopyCmd) (ch : BitVec 4) : Bool := !(c.kind == .kvs && c.control.getLsbD 29) || ch < 2#4

/-- The lowest free channel that a command may use. -/
def State.channelFor (s : State) (m : BitVec 8) (c : CopyCmd) : Option (BitVec 4) :=
  ((List.range 16).map (BitVec.ofNat 4)).find? fun ch => c.allowed ch && !s.channelBusy m ch

/-- Whether two commands of a core are of the same coroutine. -/
def CopyCmd.sameIssuer (c e : CopyCmd) : Bool := c.slot == e.slot && c.issuer == e.issuer

/-- The commands accepted before one. -/
def Core.before (k : Core) (c : CopyCmd) : List CopyCmd := k.copies.takeWhile fun e => e.entry ≠ c.entry

/-- Whether a wst's first sector would pass operations of its coroutine to the same device that precede it (16_pod.md R443). -/
def Core.remoteBlocked (k : Core) (c : CopyCmd) : Bool :=
  c.kind == .remote && c.done == 0 &&
    ((k.before c).any (fun e => e.kind == .remote && e.sameIssuer c && hDev (e.dw 0) == hDev (c.dw 0) && e.done == 0) ||
      k.outq.any fun o => o.op.srcSlot == c.slot && hDev o.op.handle == hDev (c.dw 0) && decide (o.num < c.behind))

/-- Whether a command is startable (R313). -/
def Core.startable (k : Core) (c : CopyCmd) : Bool :=
  c.state == .queued && !(c.seqBit && (k.before c).any fun e => e.sameIssuer c) && !k.remoteBlocked c

/-- The commands of a movement's cores, from the core whose turn it is, each core's oldest first. -/
def State.copyOrder (s : State) (m : BitVec 8) : List (BitVec 10 × CopyCmd) :=
  let t := (s.movAt m).turn.toNat
  let cores := movCores m
  ((cores.drop t) ++ (cores.take t)).flatMap fun k => (s.coreAt k).copies.map fun c => (k, c)

/-- The command that a free channel takes: one that restarts after a fault first, else the oldest startable command of the first core
in rotation (R313, R316). -/
def State.nextCopy (s : State) (m : BitVec 8) (ch : BitVec 4) : Option (BitVec 10 × CopyCmd) :=
  let can := (s.copyOrder m).filter fun p => (s.coreAt p.1).startable p.2 && p.2.allowed ch
  match can.find? fun p => p.2.priority with
  | some p => some p
  | none => can.head?

/-- A free channel takes the next command (COPY_CHANNEL_START). -/
def State.startChannel (s : State) (m : BitVec 8) (ch : BitVec 4) : State :=
  if s.channelBusy m ch then s
  else
    match s.nextCopy m ch with
    | none => s
    | some (k, c) =>
      let s1 := s.updCore k fun o => o.updCopy c.entry fun e =>
        { e with state := .running, chan := some ch, lastChan := ch, priority := false }
      if c.priority then s1 else s1.updMov m fun v => { v with turn := k.extractLsb' 0 2 + 1#2 }

/-! ## Reports (R315) -/

/-- `n` sector operations of a command sent as releases. -/
def State.sectorOps (s : State) (c : CopyCmd) : Nat → State
  | 0 => s
  | n + 1 =>
    (s.launchOp (s.copyOp s.me.id c 4#8 c.barrier 0#64 (maxScope c.scope (s.reach s.me.id c.barrier)))).sectorOps c n

/-- Bits of a mask set. -/
def orMask (m : Vector (BitVec 2048) 8) (k : BitVec 3) (bits : BitVec 2048) : Vector (BitVec 2048) 8 :=
  m.set k.toNat (m[k.toNat]'(k.isLt) ||| bits) k.isLt

/-- The bits of a command's chunk `j` (R315). -/
def CopyCmd.chunkBits (c : CopyCmd) (j : Nat) : BitVec 2048 :=
  BitVec.ofNat 2048 ((2 ^ 2 ^ bits c.control 47 44 - 1) * 2 ^ (bits c.control 43 33 + j * 2 ^ bits c.control 47 44))

/-- The bits of mask register `k` that the oldest uncommitted entry has written already: a set of one of them before its commit is overwritten
(R315). -/
def Ctx.landedBits (c : Ctx) (k : Nat) : BitVec 2048 :=
  match c.vq with
  | [] => 0#2048
  | e :: _ =>
    let lo := 2048 * (k - e.d.toNat)
    let own (i : Nat) : Bool := decide (lo + i < e.pos) && (vtMz e.vtype || e.active c (lo + i))
    let all : BitVec 2048 := BitVec.ofNat 2048 ((List.range 2048).foldr (fun i acc => (if own i then 1 else 0) + 2 * acc) 0)
    match e.op with
    | .cmp _ _ => if k < e.d.toNat then 0#2048 else all
    | .mask _ => if k < e.d.toNat then 0#2048 else all
    | _ => 0#2048

/-- A chunk's bits set in a context's mask, but for those that an uncommitted instruction overwrites (R315). -/
def Ctx.setChunkBits (c : Ctx) (m : BitVec 3) (bits : BitVec 2048) : Ctx :=
  { c with m := orMask c.m m (bits &&& ~~~(c.landedBits m.toNat)) }

/-- A chunk's bits set in the mask of the issuing coroutine: live, with vdirty (05_lanes.md R134), or in its saved image
(07_coroutines.md R197); dropped once it has exited (07_coroutines.md R220). The live claim keeps its units (07_coroutines.md R192; log 55). -/
def Core.setChunk (k : Core) (c : CopyCmd) (j : Nat) : Core :=
  match c.mask? with
  | none => k
  | some m =>
    if c.issuer ≠ .present then k
    else if k.run = some c.slot then
      { k with ctx := { k.ctx.setChunkBits m (c.chunkBits j) with vdirty := k.ctx.vdirty ||| (1#64 <<< (32 + m.toNat)) } }.fit 256
    else k.updSlot c.slot fun t => { t with ctx := t.ctx.setChunkBits m (c.chunkBits j) }

/-- Completed units reported: their sector operations, then their chunks' bits (R315). -/
def State.report (s : State) (c : CopyCmd) : List Nat → State × CopyCmd
  | [] => (s, c)
  | j :: rest =>
    let n := if c.barrier = 0#64 then 0 else c.unitReports j
    let s1 := s.sectorOps c n
    { s1 with me := s1.me.setChunk c j }.report { c with sent := c.sent + n } rest

/-! ## Progress and completion -/

/-- The first incomplete unit after those that a decision reported (11_multigrid.md R336). -/
def CopyCmd.skipReported (c : CopyCmd) : Nat → CopyCmd
  | 0 => c
  | n + 1 => if c.done < c.unitCount ∧ c.unitSkipped c.done then { c with done := c.done + 1 }.skipReported n else c

/-- A unit more complete. -/
def CopyCmd.advance (c : CopyCmd) : CopyCmd := { c with done := c.done + 1 }.skipReported (if c.decides then c.unitCount else 0)

/-- The rows of a chased destination that have landed (R299). -/
def CopyCmd.landedRows (c : CopyCmd) (h : Chase) : Nat :=
  if c.complete then h.limit - h.base else c.done * (if c.mask?.isSome then c.chunk / 256 else 1)

/-- The pointers of a chased destination after a unit (R299). -/
def Core.chaseLanded (k : Core) (c : CopyCmd) : Core :=
  match c.chase? with
  | none => k
  | some n =>
    match c.issuer with
    | .exited _ => k.updChase n Chase.opened
    | .evicted _ => k.updChase n fun h => { h with rows := Vector.replicate 32 (c.landedRows h) }
    | .present => k.updChase n fun h => { h with rows := Vector.replicate 32 (c.landedRows h) }

/-- A command put back into its entry. -/
def Core.setCopy (k : Core) (c : CopyCmd) : Core := k.updCopy c.entry fun _ => c

/-- The result doubleword of a multigrid command written when its last unit completes (11_multigrid.md R337). -/
def State.gridResult (s : State) (c : CopyCmd) : State × Option Halt :=
  if c.kind = .grid ∧ c.complete then s.placeWrite (c.who s.me.id) (.mem (c.dw 17 + 0x60#64)) 8 c.resultWord.toNat else (s, none)

/-- The arrive of an input strip that has landed, as a release (R322). -/
def State.stripArrive (s : State) (c : CopyCmd) : State :=
  s.launchOp (s.copyOp s.me.id c 1#8 (c.dw 2) 1#64 (maxScope c.scope (s.reach s.me.id (c.dw 2))))

/-- A message whose bytes are all performed, for the mailbox's home to mark delivered (08_tokens.md R260). -/
def State.postDelivery (s : State) (c : CopyCmd) : State :=
  if c.kind ≠ .send then s
  else if hDev (c.dw 4) = s.devNo then
    { s with inbox := s.inbox ++ [Instr.mailboxDelivery (c.dw 4) ((c.dw 5).setWidth 16) (c.dw 9) (c.dw 2)] }
  else { s with podOut := s.podOut ++ [⟨.reserve, c.crew, s.devNo, c.dw 4, 0#9, c.dw 9, c.dw 2, s.noOp (c.dw 4), 0#2048⟩] }

/-- A command after its work: put back, or done, with its entry freed (R312). -/
def State.settleCopy (s : State) (c : CopyCmd) : State :=
  let s1 := { s with me := (s.me.setCopy c).chaseLanded c }
  if c.complete then { s1 with me := s1.me.dropCopy c.entry }.postDelivery c else s1

/-- What one turn of a command's channel gives: the new state, and the halt that prevents the unit's completion. Where the result doubleword of
a multigrid command cannot be written yet, the units that wait for it alone are kept (11_multigrid.md R337). -/
def State.copyAttempt (s : State) (c : CopyCmd) : State × CopyCmd × Option Halt :=
  if c.kind = .stream then
    match s.streamWork c with
    | (s1, c1, n, arrived, h) =>
      let s2 := s1.sectorOps c1 (if c1.barrier = 0#64 then 0 else n)
      (if arrived then s2.stripArrive c1 else s2, { c1 with sent := c1.sent + n }, h)
  else if c.complete then (s, c, none)
  else
    match s.unitWork c with
    | (s1, c1, units, some h) => ((s1.report c1 units).1, (s1.report c1 units).2, some h)
    | (s1, c1, units, none) =>
      let c2 := c1.advance
      match s1.gridResult c2 with
      | (s2, some h) => (s2, { c1 with partOut := 1, index := units }, some h)
      | (s2, none) => ((s2.report c2 units).1, (s2.report c2 units).2, none)

/-- The decision on an entry of a cp.kvs whose fetch then waits for the host: it stands, with its bit in the skip bitmap (15_complications.md
R426). -/
def State.keepDecision (s : State) (c c1 : CopyCmd) : State :=
  if c.kind = .kvs ∧ c1.decided ≠ c.decided then
    match c1.decided.getLast? with
    | none => s
    | some (j, skip) => { (s.kvMark (c.who s.me.id) c j skip).1 with me := (s.kvMark (c.who s.me.id) c j skip).1.me.setCopy { c with decided := c1.decided } }
  else s

/-- What a unit leaves that waits for the host's translation: it is asked for; a sector of a wst that has passed its check stays in flight, and
the decision on an entry of a cp.kvs stands (13_address_space.md R379, 15_complications.md R426, 16_pod.md R439). -/
def State.copyAsked (s s1 : State) (c c1 : CopyCmd) : State :=
  let s2 := { s with atsOut := s1.atsOut }.keepDecision c c1
  if c.kind = .remote ∧ c1.partIn ≠ c.partIn then { s2 with windows := s1.windows, me := s2.me.setCopy { c with partIn := c1.partIn } } else s2

/-- COPY_UNIT_COMPLETE (R315): the first incomplete unit moved and reported, or asking the host for a translation. -/
def State.copyUnit (s : State) (c : CopyCmd) : State :=
  match s.copyAttempt c with
  | (s1, c1, none) => s1.settleCopy c1
  | (s1, c1, some .wait) => s.copyAsked s1 c c1
  | (_, _, some (.fault _ _ _ _)) => s

/-! ## Ends and faults (R316, R325) -/

/-- A command ended before it is done: its units in flight discarded, its chase slot opened and its entry freed (R325). -/
def State.cancelCopy (s : State) (k : BitVec 10) (c : CopyCmd) : State :=
  let s1 := if c.kind = .remote ∧ c.partIn = 1 then s.countInflight (c.dw 0) false else s
  s1.updCore k fun o => (match c.chase? with
    | some h => o.updChase h Chase.opened
    | none => o).dropCopy c.entry

/-- A copy command's record that holds no coroutine (R316). -/
def State.detachedRecord (s : State) (k : BitVec 10) (c : CopyCmd) (code : BitVec 8) (addr : Word) (st : Bool) : State :=
  s.updCore k fun o => { o with records := o.records ++ [⟨code, st, false, c.coid k, addr, 0#19, some c.entry, true, k⟩] }

/-- A command stopped by a fault: cancelled where its issuer has exited, else stopped with a COPY_FAULT record, which holds the
issuer where it still has its slot (R316). -/
def State.stopCopy (s0 : State) (k : BitVec 10) (c : CopyCmd) (cause : BitVec 8) (addr : Word) (st : Bool) : State :=
  let s := if cause = 0x08#8 then s0.consumeBad (c.who k) addr else s0
  match c.issuer with
  | .exited _ => s.cancelCopy k c
  | .present =>
    (s.updCore k fun o => o.setCopy { c with state := .stopped, cause := cause, chan := none, fetched := [] }).holdBy (c.coid k) 0x11#8 addr st
      (some c.entry)
  | .evicted _ =>
    (s.updCore k fun o => o.setCopy { c with state := .stopped, cause := cause, chan := none, fetched := [] }).detachedRecord k c 0x11#8 addr st

/-- The agent of a command's faulting access: the window's owner for the store of a sector that waits at its target (16_pod.md R440). -/
def State.faultWho (s : State) (k : BitVec 10) (c : CopyCmd) (st : Bool) : Who :=
  if c.kind = .remote ∧ c.partIn = 1 ∧ st then
    match s.window? (ptrWindow (c.dw 0)) with
    | some w => s.windowWho w
    | none => c.who k
  else c.who k

/-- A command left to wait on its fault token: what it has read for its incomplete units is read again (R316). -/
def State.waitCopy (s : State) (k : BitVec 10) (c : CopyCmd) (cause : BitVec 8) (token addr : Word) (st : Bool) : State :=
  s.updCore k fun o => o.setCopy
    { c with state := .waiting, cause := cause, chan := none, token := token, addr := addr, store := st, fetched := [] }

/-- A fault that is serviced while the command waits: its entry joined or claimed, with a record naming the command (R316,
13_address_space.md R383); with neither free it goes on waiting in its walk, which is counted once (13_address_space.md R381). -/
def State.serviceCopy (s : State) (k : BitVec 10) (c : CopyCmd) (cause : BitVec 8) (arena : Option (BitVec 4)) (addr : Word)
    (st : Bool) : State :=
  match s.claimFault (s.faultWho k c st) arena addr st (c.coid k) (some (c.id k)) with
  | (s1, .joined token) => s1.waitCopy k c cause token addr st
  | (s1, .claimed token) =>
    let s2 := s1.waitCopy k c cause token addr st
    if arena.isNone then s2.detachedRecord k c cause addr st else s2
  | (s1, .full) => s1.updCore k fun o => { o.setCopy c with walks := (spaceAsid (c.who k).space, addr.toNat / 4096) :: o.walks }

/-- COPY_FAULT (R316): a unit whose access faults stops its channel at the unit boundary. -/
def State.faultCopy (s : State) (c : CopyCmd) : State :=
  match s.copyAttempt c with
  | (s1, c1, some (.fault cause arena addr st)) =>
    if cause = 0x07#8 ∨ (cause = 0x05#8 ∧ arena.isSome) then s1.serviceCopy s.me.id c1 cause arena addr st
    else s1.stopCopy s.me.id c1 cause addr st
  | _ => s

/-- A command whose fault token is signalled with another value than 0 stopped with PAGE_PROTECT; a sector that waited at its target has failed
there, and is checked again on cp.resume (13_address_space.md R385, 16_pod.md R439, R449). -/
def State.denyCopy (s : State) (k : BitVec 10) (c : CopyCmd) : State :=
  if c.kind = .remote then (s.endInflight c (c.dw 0)).stopCopy k { c with partIn := 0 } 0x06#8 c.addr c.store
  else s.stopCopy k c 0x06#8 c.addr c.store

/-- COPY_RESTART (R316, 13_address_space.md R385): a command whose fault token is signalled is queued again, to start first, or stopped
with PAGE_PROTECT where the signal's value is not 0. -/
def State.restartCopy (s : State) (c : CopyCmd) : State :=
  if c.state ≠ .waiting ∨ !s.faultCondition c.token then s
  else
    let cell := s.cellOf (hCore c.token) (hIndex c.token)
    if cell.gen = hGen c.token ∧ cell.lower ≠ 0#64 then s.denyCopy s.me.id c
    else { s with me := s.me.setCopy { c with state := .queued, priority := true } }

/-! ## Acceptance (R311, R312, R315) -/

/-- A command of the running coroutine before its acceptance (R315, 13_address_space.md R399). -/
def State.newCopy (s : State) (kind : CopyKind) (control : Word) (desc : List Word) : CopyCmd :=
  { entry := 0#3, seq := 0#29, kind := kind, state := .queued, chan := none, lastChan := 0#4, slot := s.slotNum, issuer := .present,
    crew := s.crew, space := s.spaceOf s.me.id s.slotNum, control := control, desc := desc, units := [], index := [], weights := [],
    mode := 0#3, done := 0, sent := 0, cause := 0#8, token := 0#64, addr := 0#64, store := false, flags := 0#5, skipped := 0,
    decided := [], steps := 0, stripsIn := 0, stripsOut := 0, partIn := 0, partOut := 0, priority := false, behind := s.me.outCount,
    fetched := [] }

/-- The next sequence number: 0 to 2^29 − 2 (R311). -/
def nextSeq (n : BitVec 29) : BitVec 29 := if n = 0x1FFFFFFE#29 then 0#29 else n + 1#29

/-- A chase slot claimed at acceptance (R299). -/
def Core.claimChase (k : Core) (c : CopyCmd) : Core :=
  match c.chase? with
  | none => k
  | some n => k.updChase n fun _ =>
      ⟨(c.dw 3).toNat / 256, (c.dw 3).toNat / 256 + (boxLen c.desc 0 + 255) / 256, Vector.replicate 32 0⟩

/-- Whether acceptance sends an expect: selfexp, and a stream's outputs (R315, R322). -/
def CopyCmd.expects (c : CopyCmd) : Bool :=
  match c.kind with
  | .stream => decide (0 < c.outputs)
  | .remote => false
  | .send => false
  | .tile => c.control.getLsbD 59
  | .gather => c.control.getLsbD 59
  | .grid => c.control.getLsbD 59
  | .kvs => c.control.getLsbD 59

/-- The completion mask's vdirty bit (R315). -/
def CopyCmd.maskDirty (c : CopyCmd) : Word :=
  match c.mask? with
  | none => 0#64
  | some m => 1#64 <<< (32 + m.toNat)

/-- A command accepted into a free entry: its mask's vdirty bit set and its chase slot claimed; a command that finds no channel free
that it may use is counted (R311, R312, R315). -/
def State.accept (s : State) (e : BitVec 3) (c : CopyCmd) : State × CopyCmd :=
  let c1 := { c with entry := e, seq := s.me.copySeq }
  let wait := (s.channelFor (movOf s.me.id) c1).isNone
  let k := ({ s.me with copies := s.me.copies ++ [c1], copySeq := nextSeq s.me.copySeq,
                        cpqwait := s.me.cpqwait + (if wait then 1#64 else 0#64) }).claimChase c1
  ({ s with me := { k with ctx := k.ctx.mark c1.maskDirty } }, c1)

/-- The expect of an accepted command, sent as its instruction completes (R315). -/
def State.sendExpect (s : State) (c : CopyCmd) : State :=
  if c.expects then s.sendOp (s.copyOp s.me.id c 2#8 c.barrier (BitVec.ofNat 64 c.sectorCount) 0#3) else s

/-- The suspension on the copy queue token (R312). -/
def State.queueFull (s : State) : State :=
  { s with me := { s.me with cpqwait := s.me.cpqwait + 1#64 } }.suspendOn (resourceHandle s.devNo s.me.id 4#16) 0#64

/-- A copy instruction's end: a queue entry taken and the command id written, or a suspension; with the outgoing queue full the front
end waits before an expect (R312, R318, 08_tokens.md R240), and a completion mask's bit needs room for its claim (07_coroutines.md R192). -/
def State.submit (s : State) (d : BitVec 5) (c : CopyCmd) : State :=
  match s.me.freeEntry with
  | none => s.queueFull
  | some e =>
    if c.expects ∧ s.outqFull then s
    else
      match s.claimDirty c.maskDirty with
      | (s1, false) => s1
      | (s1, true) =>
        match s1.accept e c with
        | (s2, c1) => (s2.write d (c1.id s.me.id)).sendExpect c1

end Sys2Proof.Machine
end

