-- ==== Sys2Proof/Machine/Ranking.lean ====
section
/-!
DEFINITION. The ranking of the movement's complications and the top-k selection (15_complications.md R416, R418 to R420).
-/

namespace Sys2Proof.Machine

/-- An item to rank: its key's bits and value, its index, and whether topk merged it from its list (R416). -/
structure RankItem where
  keyBits : Nat
  key : Num
  index : Nat
  merged : Bool
  deriving DecidableEq, Repr

/-- Whether item `a` ranks before item `b` (R416). -/
def ranksBefore (a b : RankItem) : Bool :=
  if a.key.isNan != b.key.isNan then b.key.isNan
  else if ltNum b.key a.key then true
  else if ltNum a.key b.key then false
  else if a.index ≠ b.index then decide (a.index < b.index)
  else a.merged && !b.merged

/-- An item put into its place. Two merged entries of one index whose keys compare equal, which no test of R416 separates, keep the order of
their list (log 79). -/
def insertRanked (x : RankItem) : List RankItem → List RankItem
  | [] => [x]
  | y :: r => if ranksBefore x y then x :: y :: r else y :: insertRanked x r

/-- The best `k` items in order of rank. -/
def bestOf (k : Nat) (items : List RankItem) : List RankItem := items.foldl (fun acc x => (insertRanked x acc).take k) []

/-- The key of a score, read by value whatever daz says (R416). -/
def rankKey (t : Elem) (bits : Nat) : Num := t.read 0#64 bits

/-- k of a topk control word (R418). -/
def topkK (control : Word) : Nat := bits control 8 0 + 1

/-- Whether a topk control word merges (R418). -/
def topkMerge (control : Word) : Bool := control.getLsbD 9

/-- Whether a shadow image is a topk image of the type and k (R420). -/
def topkImageValid (sh : BitVec 1024) (et k : Nat) : Bool :=
  bits (shDw sh 0) 18 16 == 4 && !(shDw sh 0).getLsbD 31 && bits (shDw sh 0) 26 22 == et && bits (shDw sh 2) 9 0 == k

/-- The first 512 entries of the result pair written (R418, R420). -/
def topkArrays (items : List RankItem) : Nat × Nat :=
  ((List.range 512).foldr (fun j acc => (match items[j]? with
      | some x => x.index
      | none => 0xFFFFFFFF) + (acc <<< 32)) 0,
   (List.range 512).foldr (fun j acc => (match items[j]? with
      | some x => x.keyBits
      | none => 0) + (acc <<< 32)) 0)

/-- topk (R420). -/
def VEntry.topk (e : VEntry) (c : Ctx) (control : Word) (k : BitVec 2) : Ctx :=
  if vlLen e.vl = 0 then c
  else
    let t := vtElem e.vtype
    let w := t.width
    let et := vtEt e.vtype
    let kk := topkK control
    let n := vlReal e.vl
    let img := c.shadow k
    let base := if topkMerge control && topkImageValid img et kk then bits (shDw img 1) 31 0 else bits control 63 32
    let d := e.d.toNat
    let old := (c.vReg d, c.vReg (d + 1))
    let merged := if topkMerge control then (List.range kk).filterMap fun j =>
        let i := elemAt 32 old.1 j
        if i = 0xFFFFFFFF then none
        else some ⟨elemAt 32 old.2 j % 2 ^ w, rankKey t (elemAt 32 old.2 j % 2 ^ w), i, true⟩
      else []
    let ga := c.vGroup e.a.toNat (vtN e.vtype)
    let fresh := (List.range n).filterMap fun i =>
      let x := (base + i) % 2 ^ 32
      if x = 0xFFFFFFFF then none else some ⟨elemAt w ga i, rankKey t (elemAt w ga i), x, false⟩
    let out := topkArrays (bestOf kk (merged ++ fresh))
    let image := shImage [shHeader false et 0 4 false 0 0, BitVec.ofNat 64 ((base + n) % 2 ^ 32), BitVec.ofNat 64 kk]
    ((c.setVGroup d 1 out.1).setVGroup (d + 1) 1 out.2).setShadow k image

end Sys2Proof.Machine
end

