-- ==== Sys2Proof/Machine/VectorAccess.lean ====
section
/-!
DEFINITION. Vector loads, stores and atomics, element by element (10_scratchpad_copy.md R300 to R307, 09_visibility.md R274 to R278,
R294).
-/

namespace Sys2Proof.Machine

/-- Where a vector access stops: the fault, the address and the element (R302). -/
abbrev VStop := Option (MemFault × Word × Nat)

/-- The bytes of an element's access; e2m1 moves the byte of its nibble (R300). -/
def elemBytes (w : Nat) : Nat := max 1 (w / 8)

/-- The address of element `e` (Table 10.3). -/
def formAddr (form : AddrForm) (base : Word) (w : Nat) (index : Nat) (e : Nat) : Word :=
  match form with
  | .unit => base + BitVec.ofNat 64 (e * w / 8)
  | .strided stride => base + BitVec.ofNat 64 e * stride
  | .indexed _ => base + BitVec.ofNat 64 (elemAt w index e * (w / 8))

/-- An uncorrectable unit met by element `va` is reported with the element's address (R302). -/
def MemFault.atElement (f : MemFault) (va : Word) : MemFault :=
  match f with
  | .uncorrectable _ => .uncorrectable va
  | .misaligned => .misaligned
  | .protect => .protect
  | .absent a => .absent a
  | .far => .far
  | .watch => .watch
  | .wait => .wait

/-- Whether a vld.chase waits before an address: a chunk of its own scratchpad inside the slot that has not landed (R307). -/
def State.chaseWaits (s : State) (slot : BitVec 2) (pa : Nat) : Bool :=
  match regionOf pa with
  | .scratch c o =>
    let k := s.me.chases[slot.toNat]'(slot.isLt)
    decide (c = s.me.id) && decide (k.base ≤ o / 256) && decide (o / 256 < k.limit) &&
      decide ((k.rows.toList.getD (o / 8 % 32) 0) ≤ o / 256 - k.base)
  | .hbm => false
  | .istore _ _ => false
  | .host _ => false
  | .reserved => false

/-- Whether a vld.chase waits before an element at a virtual address (R307). -/
def State.elemWaits (s : State) (slot : BitVec 2) (va : Word) (w : Nat) : Bool :=
  match (s.vecCheck false va (elemBytes w)).2 with
  | .ok pa _ => s.chaseWaits slot pa
  | .fault _ => false

/-- One field of an element read (R301). -/
def State.vLoadField (s : State) (va : Word) (w e : Nat) : State × Loaded :=
  match s.vecCheck false va (elemBytes w) with
  | (s1, .fault f) => (s1, .fault f)
  | (s1, .ok pa policy) =>
    match s1.vecReadAt va pa (elemBytes w) policy with
    | (s2, .fault f) => (s2, .fault (f.atElement va))
    | (s2, .ok v) => (s2, .ok (if w = 4 then (v >>> (4 * (e % 2))) % 16 else v))

/-- The fields of one element read together, lowest first (R305). -/
def State.vLoadFields (s : State) (addr : Nat → Word) (w e : Nat) : Nat → Nat → State × Except (MemFault × Word) (List Nat)
  | 0, _ => (s, .ok [])
  | n + 1, f =>
    match s.vLoadField (addr f) w e with
    | (s1, .fault m) => (s1, .error (m, addr f))
    | (s1, .ok v) =>
      match s1.vLoadFields addr w e n (f + 1) with
      | (s2, .error m) => (s2, .error m)
      | (s2, .ok r) => (s2, .ok (v :: r))

/-- How a load runs: its element width, fields, VLMAX, predicate, pads and addresses. -/
structure LoadPlan where
  w : Nat
  fields : Nat
  vlmax : Nat
  active : Nat → Bool
  mz : Bool
  nreal : Nat
  pad : Nat
  addr : Nat → Nat → Word

/-- The fields of element `e` set in the destination, field f at f × VLMAX + e (R305). -/
def setFields (w vlmax e : Nat) : List Nat → Nat → Nat → Nat
  | [], _, g => g
  | v :: r, f, g => setFields w vlmax e r (f + 1) (setElem w g (f * vlmax + e) v)

/-- `n` elements loaded from element `e` on, into the destination as one number (R301, R302). -/
def State.vLoadLoop (p : LoadPlan) : Nat → Nat → State → Nat → State × Nat × VStop
  | 0, _, s, g => (s, g, none)
  | n + 1, e, s, g =>
    if p.active e then
      if p.nreal ≤ e then State.vLoadLoop p n (e + 1) s (setFields p.w p.vlmax e (List.replicate p.fields p.pad) 0 g)
      else
        match s.vLoadFields (p.addr e) p.w e p.fields 0 with
        | (s1, .error (f, va)) => (s1, g, some (f, va, e))
        | (s1, .ok vs) => State.vLoadLoop p n (e + 1) s1 (setFields p.w p.vlmax e vs 0 g)
    else State.vLoadLoop p n (e + 1) s (if p.mz then setFields p.w p.vlmax e (List.replicate p.fields 0) 0 g else g)

/-- An element of a store that has been checked: its index, physical address and page policy. -/
structure Checked where
  elem : Nat
  pa : Nat
  policy : BitVec 2
  deriving DecidableEq, Repr

/-- The checks of `n` elements from `e` on, in ascending order up to the first that faults (R276, R302). A nibble's byte is read. -/
def State.vStoreCheck (w : Nat) (active : Nat → Bool) (addr : Nat → Word) : Nat → Nat → State → State × List Checked × VStop
  | 0, _, s => (s, [], none)
  | n + 1, e, s =>
    if active e then
      match s.vecCheck true (addr e) (elemBytes w) with
      | (s1, .fault f) => (s1, [], some (f, addr e, e))
      | (s1, .ok pa policy) =>
        if w = 4 ∧ s1.isBad pa 1 then (s1, [], some (.uncorrectable (addr e), addr e, e))
        else
          match State.vStoreCheck w active addr n (e + 1) s1 with
          | (s2, r, stop) => (s2, ⟨e, pa, policy⟩ :: r, stop)
    else State.vStoreCheck w active addr n (e + 1) s

/-- One element performed at its home (R301; a nibble by a read-modify-write of its byte, 09_visibility.md R283). -/
def State.vStoreElem (s : State) (w data : Nat) (c : Checked) : State :=
  if w = 4 then
    let s1 := (s.leaveL1 c.pa 1).byPolicy c.pa c.policy
    let b := s1.physRead c.pa 1
    let v := elemAt 4 data c.elem
    s1.physWrite c.pa 1 (if c.elem % 2 = 1 then b % 16 + 16 * v else b / 16 * 16 + v)
  else s.vecWriteAt c.pa (w / 8) (elemAt w data c.elem) c.policy

/-- A checked element put into the order of an unordered store (09_visibility.md R278; log 13). -/
def insertRank (fresh : Nat) (c : Checked) : List Checked → List Checked
  | [] => [c]
  | d :: r =>
    if Config.elementRank fresh c.elem < Config.elementRank fresh d.elem then c :: d :: r else d :: insertRank fresh c r

/-- The order in which checked elements are performed: ascending for an ordered store (09_visibility.md R277, R278). -/
def storeOrder (ordered : Bool) (fresh : Nat) (l : List Checked) : List Checked :=
  if ordered then l else l.foldr (insertRank fresh) []

/-- The elements below a stop, or all of them where there is none, are finished: `pos` after the run. -/
def stopAt (stop : VStop) (len : Nat) : Nat :=
  match stop with
  | none => len
  | some (_, _, k) => k

/-- The index group that an entry's b operand names. -/
def VEntry.indexGroup (e : VEntry) (c : Ctx) (n : Nat) : Nat :=
  match e.b with
  | .reg r => c.vGroup r.toNat n
  | .scalar _ => 0

/-- A load of `fields` fields by addresses `addr`, with what it loaded in the destination registers (R301, R305). -/
def State.vLoad (s : State) (e : VEntry) (fields : Nat) (addr : Nat → Nat → Word) : State × VStop :=
  let w := vtW e.vtype
  let n := vtN e.vtype
  let p : LoadPlan :=
    { w := w, fields := fields, vlmax := vlMax e.vtype, active := e.active s.me.ctx, mz := vtMz e.vtype, nreal := vlReal e.vl,
      pad := (vtElem e.vtype).pad, addr := addr }
  match State.vLoadLoop p (e.lim - e.pos) e.pos s (s.me.ctx.vGroup e.d.toNat (fields * n)) with
  | (s1, g, stop) => (s1.updCtx fun c => c.setVGroup e.d.toNat (fields * n) g, stop)

/-- The element groups of a vld.chase one after another, each once every chunk that it reads has landed; one that waits is where the
instruction stops (R307). -/
def State.vChase (base : Word) (slot : BitVec 2) : Nat → VEntry → State → State × VStop
  | 0, _, s => (s, none)
  | n + 1, e, s =>
    let w := vtW e.vtype
    let hi := min e.lim ((e.pos / perGroup w + 1) * perGroup w)
    let at_ (i : Nat) : Word := formAddr .unit base w 0 i
    if e.lim ≤ e.pos then (s, none)
    else if (List.range (hi - e.pos)).any fun j =>
        e.active s.me.ctx (e.pos + j) && decide (e.pos + j < vlReal e.vl) && s.elemWaits slot (at_ (e.pos + j)) w then
      (s, some (.wait, at_ e.pos, e.pos))
    else
      match s.vLoad { e with lim := hi } 1 fun i _ => at_ i with
      | (s1, some x) => (s1, some x)
      | (s1, none) => State.vChase base slot n { e with pos := hi } s1

/-- The tail of a load, field by field (R301). -/
def VEntry.loadTail (e : VEntry) (fields : Nat) (c : Ctx) : Ctx :=
  let n := vtN e.vtype
  (List.range fields).foldl (fun acc f =>
    acc.setVGroup (e.d.toNat + f * n) n (e.tailed (vtW e.vtype) (acc.vGroup (e.d.toNat + f * n) n))) c

/-- A store (R301, R276 to R278). -/
def State.vStore (s : State) (e : VEntry) (addr : Nat → Word) (ordered : Bool) : State × VStop :=
  let w := vtW e.vtype
  let data := s.me.ctx.vGroup e.d.toNat (vtN e.vtype)
  match State.vStoreCheck w (e.active s.me.ctx) addr (min e.lim (vlReal e.vl) - e.pos) e.pos s with
  | (s1, l, stop) => (((storeOrder ordered s1.fresh l).foldl (fun acc c => acc.vStoreElem w data c) s1).bump (if ordered then 0 else 1), stop)

/-- vamo.add (09_visibility.md R294): each element's atomic add at its home, in ascending order, up to the first that faults. -/
def State.vAtomicLoop (w index data : Nat) (active : Nat → Bool) (base : Word) : Nat → Nat → State → State × VStop
  | 0, _, s => (s, none)
  | n + 1, e, s =>
    if active e then
      let va := base + BitVec.ofNat 64 (elemAt w index e * (w / 8))
      if va.toNat % (w / 8) ≠ 0 then (s, some (.misaligned, va, e))
      else
        match s.atomic true va (w / 8) false (fun old => some ((old + elemAt w data e) % 2 ^ w)) with
        | (s1, .fault f) => (s1, some (f.atElement va, va, e))
        | (s1, .ok _) => State.vAtomicLoop w index data active base n (e + 1) s1
    else State.vAtomicLoop w index data active base n (e + 1) s

/-- vamo.add of a queue entry. -/
def State.vAtomic (s : State) (e : VEntry) (base : Word) : State × VStop :=
  State.vAtomicLoop (vtW e.vtype) (e.indexGroup s.me.ctx (vtN e.vtype)) (s.me.ctx.vGroup e.d.toNat (vtN e.vtype))
    (e.active s.me.ctx) base (e.lim - e.pos) e.pos s

end Sys2Proof.Machine
end

