-- ==== Sys2Proof/Machine/VectorOps.lean ====
section
/-!
DEFINITION. What the vector arithmetic, conversion, mask and permute instructions compute, element by element
(06_vector_arithmetic.md R156 to R177, R182, R183).
-/

namespace Sys2Proof.Machine

/-! ## Reading operands (R156) -/

/-- Whether the element type is a signed integer. -/
def Elem.isSigned : Elem → Bool
  | .int s _ => s
  | .float _ => false
  | .lns6 => false
  | .e8m0 => false

/-- The float format of an element type; the forms that ask accept only float types (Table 6.1). -/
def Elem.fmt : Elem → FloatFmt
  | .float f => f
  | .int _ _ => .f32
  | .lns6 => .f32
  | .e8m0 => .f32

/-- The elements of the b operand at width `w`: a vector group, or one scalar value for every element (R156). -/
def VEntry.bElem (e : VEntry) (c : Ctx) (n w : Nat) : Nat → Nat :=
  match e.b with
  | .reg r => let g := c.vGroup r.toNat n; fun i => elemAt w g i
  | .scalar x => fun _ => x.toNat % 2 ^ w

/-- The captured rounding for a destination format and a draw (03_numbers.md R78, R85). -/
def VEntry.rounding (e : VEntry) (f : FloatFmt) (x : Word) : Rounding :=
  ⟨fcrRm e.fcr, fcrSat e.fcr, fcrFtz e.fcr f, drawBits x⟩

/-! ## Element operations -/

/-- Quotient and remainder at width `w` by the rule of R109. -/
def divideAt (signed : Bool) (w a b : Nat) : Nat × Nat :=
  if b = 0 then (2 ^ w - 1, a)
  else
    let x := intRead signed w a
    let y := intRead signed w b
    (intBits w (x.tdiv y), intBits w (x.tmod y))

/-- An integer clamped to a type's range (R162, R165). -/
def clampInt (signed : Bool) (w : Nat) (x : Int) : Nat := intBits w (max (intLo signed w) (min x (intHi signed w)))

/-- Op of an integer form on the bits of A, B and D (Table 6.5). -/
def intOp (op : IntOp) (signed : Bool) (w a b d : Nat) : Elt :=
  let x := intRead signed w a
  let y := intRead signed w b
  match op with
  | .add => quietElt ((a + b) % 2 ^ w)
  | .sub => quietElt ((a + 2 ^ w - b) % 2 ^ w)
  | .mul => quietElt ((a * b) % 2 ^ w)
  | .mulh => quietElt (intBits w (x * y / 2 ^ w))
  | .macc => quietElt ((d + a * b) % 2 ^ w)
  | .nmsac => quietElt (intBits w ((d : Int) - a * b))
  | .div => ⟨(divideAt signed w a b).1, noFlags, b == 0⟩
  | .rem => ⟨(divideAt signed w a b).2, noFlags, b == 0⟩
  | .min => quietElt (if x < y then a else b)
  | .max => quietElt (if y < x then a else b)
  | .and => quietElt (a &&& b)
  | .or => quietElt (a ||| b)
  | .xor => quietElt (a ^^^ b)
  | .sll => quietElt ((a <<< (b % w)) % 2 ^ w)
  | .srl => quietElt (a >>> (b % w))
  | .sra => quietElt (intBits w (intRead true w a / 2 ^ (b % w)))
  | .adds => quietElt (clampInt signed w (x + y))
  | .subs => quietElt (clampInt signed w (x - y))

/-- The wide type of a float widening form (R164). -/
def widerFloat (f : FloatFmt) : FloatFmt := if f = .f32 then .f64 else .f32

/-- Op of a widening form on narrow bits A, B and the wide D (R164). -/
def wideOp (op : WideOp) (t : Elem) (fcr : Word) (r : Rounding) (a b d : Nat) : Elt :=
  match t with
  | .int s w =>
    let x := intRead s w a
    let y := intRead s w b
    match op with
    | .add => quietElt (intBits (2 * w) (x + y))
    | .mul => quietElt (intBits (2 * w) (x * y))
    | .macc => quietElt (intBits (2 * w) (d + x * y))
  | .float f =>
    let x := f.read (fcrDaz fcr f) a
    let y := f.read (fcrDaz fcr f) b
    let g := widerFloat f
    let p := match op with
      | .add => addNum r.rm x y
      | .mul => (mulNum x y).1.exact (mulNum x y).2
      | .macc => fmaNum r.rm x y (g.read (fcrDaz fcr g) d)
    ⟨(g.finish r p).1, (g.finish r p).2, false⟩
  | .lns6 => quietElt 0
  | .e8m0 => quietElt 0

/-- A / 2^s to the nearest integer, ties to even, clamped to the narrow type (R165). -/
def nclipOp (signed : Bool) (w a s : Nat) : Nat :=
  let x := intRead signed (2 * w) a
  let q := x / 2 ^ s
  let r := x % 2 ^ s
  let up : Bool := decide (2 ^ s < 2 * r) || (decide (2 * r = 2 ^ s) && decide (q % 2 = 1))
  clampInt signed w (if up then q + 1 else q)

/-- Op of a float form on the bits of A, B and D (R166). -/
def floatOp (op : FloatOp) (f : FloatFmt) (fcr : Word) (r : Rounding) (a b d : Nat) : Elt :=
  let daz := fcrDaz fcr f
  let x := f.read daz a
  let y := f.read daz b
  let z := f.read daz d
  let done (p : Exact) : Elt := ⟨(f.finish r p).1, (f.finish r p).2, false⟩
  match op with
  | .add => done (addNum r.rm x y)
  | .sub => done (addNum r.rm x y.negate)
  | .mul => done ((mulNum x y).1.exact (mulNum x y).2)
  | .div => done (divNum x y)
  | .fma => done (fmaNum r.rm x y z)
  | .fnma => done (fmaNum r.rm x.negate y z)
  | .min => ⟨(f.minmax daz false a b).1, (f.minmax daz false a b).2, false⟩
  | .max => ⟨(f.minmax daz true a b).1, (f.minmax daz true a b).2, false⟩
  | .sqrt => done (sqrtNum x)

/-- The row of Table 6.6 of a special function. -/
def SpecialOp.row : SpecialOp → Nat
  | .rcp => 0 | .rsqrt => 1 | .exp2 => 2 | .log2 => 3 | .tanh => 4

/-- Whether vcvt performs a pair of types (Table 6.11). -/
def cvtPair (src dst : Elem) : Bool :=
  match src, dst with
  | .int _ _, .int _ _ => true
  | .int _ _, .float _ => true
  | .int _ _, .lns6 => false
  | .int _ _, .e8m0 => false
  | .float _, .int _ _ => true
  | .float _, .float _ => true
  | .float _, .lns6 => true
  | .float _, .e8m0 => true
  | .lns6, .int _ _ => true
  | .lns6, .float _ => true
  | .lns6, .lns6 => false
  | .lns6, .e8m0 => true
  | .e8m0, .int _ _ => false
  | .e8m0, .float _ => true
  | .e8m0, .lns6 => false
  | .e8m0, .e8m0 => false

/-- Whether vcvt draws for a pair under SR (03_numbers.md R78). -/
def cvtDraws (src dst : Elem) : Bool :=
  match src, dst with
  | .int _ _, .int _ _ => false
  | .float _, .int _ _ => true
  | .lns6, .int _ _ => true
  | .e8m0, .int _ _ => false
  | _, .float _ => true
  | _, .lns6 => true
  | _, .e8m0 => false

/-- The conversion of one element (R174): integers clamp without flags. -/
def cvtElem (src dst : Elem) (fcr : Word) (r : Rounding) (a : Nat) : Elt :=
  match src, dst with
  | .int s w, .int t v => quietElt (clampInt t v (intRead s w a))
  | _, _ => ⟨(dst.convert r (src.read fcr a)).1, (dst.convert r (src.read fcr a)).2, false⟩

/-- ftz of a destination element type. -/
def Elem.ftz (t : Elem) (fcr : Word) : Bool :=
  match t with
  | .float f => fcrFtz fcr f
  | .int _ _ => false
  | .lns6 => false
  | .e8m0 => false

/-- A compare's condition on the bits of A and B (R170): integers by the signedness of et, floats by their conditions. -/
def cmpOp (float : Bool) (cond : Nat) (t : Elem) (fcr : Word) (a b : Nat) : Bool × FFlags :=
  if float then floatCond cond (t.read fcr a) (t.read fcr b)
  else
    let x := intRead t.isSigned t.width a
    let y := intRead t.isSigned t.width b
    (match cond with
      | 0 => x == y
      | 1 => x != y
      | 2 => decide (x < y)
      | 3 => decide (x ≤ y)
      | 4 => decide (y < x)
      | _ => decide (y ≤ x), noFlags)

/-! ## Whole instructions on a context -/


/-- An element-wise form with destination elements of width `w` in `nd` registers: R158. -/
def VEntry.elementwise (e : VEntry) (c : Ctx) (nd w : Nat) (mz : Bool) (active : Nat → Bool) (f : Nat → Nat → Word → Elt) : Ctx :=
  let g := c.vGroup e.d.toNat nd
  let r := sweep w active mz (fun i x => f i (elemAt w g i) x) (e.lim - e.pos) e.pos (xorshiftN e.pos e.prng) ⟨g, noFlags, false⟩
  (c.setVGroup e.d.toNat nd (e.tailed w r.group)).noteFlags r.flags r.idz

/-- The common element-wise form: `f` of the bits of A, B and D and the draw. -/
def VEntry.plain (e : VEntry) (c : Ctx) (f : Nat → Nat → Nat → Word → Elt) : Ctx :=
  let w := vtW e.vtype
  let n := vtN e.vtype
  let ga := c.vGroup e.a.toNat n
  let eb := e.bElem c n w
  e.elementwise c n w (vtMz e.vtype) (e.active c) fun i d x => f (elemAt w ga i) (eb i) d x

/-- vsel (R169): inactive elements take B. -/
def VEntry.select (e : VEntry) (c : Ctx) : Ctx :=
  let w := vtW e.vtype
  let n := vtN e.vtype
  let ga := c.vGroup e.a.toNat n
  let eb := e.bElem c n w
  let act := e.active c
  e.elementwise c n w false (fun _ => true) fun i _ _ => quietElt (if act i then elemAt w ga i else eb i)

/-- A widening form (R164). -/
def VEntry.widen (e : VEntry) (c : Ctx) (op : WideOp) : Ctx :=
  let t := vtElem e.vtype
  let w := t.width
  let n := vtN e.vtype
  let ga := c.vGroup e.a.toNat n
  let eb := e.bElem c n w
  e.elementwise c (2 * n) (2 * w) (vtMz e.vtype) (e.active c) fun i d x =>
    wideOp op t e.fcr (e.rounding (widerFloat t.fmt) x) (elemAt w ga i) (eb i) d

/-- vnclip (R165). -/
def VEntry.nclip (e : VEntry) (c : Ctx) : Ctx :=
  let t := vtElem e.vtype
  let w := t.width
  let n := vtN e.vtype
  let ga := c.vGroup e.a.toNat (2 * n)
  let eb := e.bElem c n w
  e.elementwise c n w (vtMz e.vtype) (e.active c) fun i _ _ =>
    quietElt (nclipOp t.isSigned w (elemAt (2 * w) ga i) (eb i % (2 * w)))

/-- The registers of vcvt's destination (R173). -/
def cvtRegs (n ws wd : Nat) : Nat := max 1 (n * wd / ws)

/-- vcvt (R173 to R175). -/
def VEntry.cvt (e : VEntry) (c : Ctx) (target : Nat) : Ctx :=
  let src := vtElem e.vtype
  let dst := (elemOf target).getD (.int true 8)
  let n := vtN e.vtype
  let ga := c.vGroup e.a.toNat n
  e.elementwise c (cvtRegs n src.width dst.width) dst.width (vtMz e.vtype) (e.active c) fun i _ x =>
    cvtElem src dst e.fcr ⟨fcrRm e.fcr, fcrSat e.fcr, dst.ftz e.fcr, drawBits x⟩ (elemAt src.width ga i)

/-- A mask destination written over its group: `f` gives bit i where it is written, none where it stays (R170, R171). -/
def maskSweep (f : Nat → Option Bool) : Nat → Nat → Nat → Nat
  | 0, _, g => g
  | n + 1, i, g =>
    maskSweep f n (i + 1) (match f i with
      | none => g
      | some b => if g.testBit i = b then g else g ^^^ (2 ^ i))

/-- A compare (R170). -/
def VEntry.compare (e : VEntry) (c : Ctx) (float : Bool) (cond : Nat) : Ctx :=
  let t := vtElem e.vtype
  let n := vtN e.vtype
  let ga := c.vGroup e.a.toNat n
  let eb := e.bElem c n t.width
  let act := e.active c
  let r (i : Nat) := cmpOp float cond t e.fcr (elemAt t.width ga i) (eb i)
  let g := maskSweep (fun i => if act i then some (r i).1 else if vtMz e.vtype then some false else none)
    (e.lim - e.pos) e.pos (c.mGroup e.d.toNat (maskRegs e.vtype))
  let flags := (List.range (e.lim - e.pos)).foldl
    (fun acc k => if act (e.pos + k) then acc ||| (r (e.pos + k)).2 else acc) noFlags
  (c.setMGroup e.d.toNat (maskRegs e.vtype) (e.tailed 1 g)).noteFlags flags false

/-- mand, mor, mxor, mnot (R171). -/
def VEntry.maskOp (e : VEntry) (c : Ctx) (op : MaskOp) : Ctx :=
  let k := maskRegs e.vtype
  let a := c.mGroup e.a.toNat k
  let b := match e.b with
    | .reg r => c.mGroup r.toNat k
    | .scalar _ => 0
  let f (i : Nat) : Bool := match op with
    | .and => a.testBit i && b.testBit i
    | .or => a.testBit i || b.testBit i
    | .xor => a.testBit i != b.testBit i
    | .not => !a.testBit i
  let g := maskSweep (fun i => some (f i)) (e.lim - e.pos) e.pos (c.mGroup e.d.toNat k)
  c.setMGroup e.d.toNat k (e.tailed 1 g)

/-! ### vcvt.mx (R176) -/

/-- emax of a destination type of vcvt.mx. -/
def mxEmax (f : FloatFmt) : Int :=
  match f with
  | .e5m2 => 15 | .e4m3 => 8 | .e3m2 => 4 | .e2m3 => 2 | .e2m1 => 2
  | .f64 => 0 | .f32 => 0 | .bf16 => 0 | .f16 => 0

/-- SatTo: the largest magnitude in place of an infinity or NaN that an overflow gives (R176, 03_numbers.md R80). -/
def satRound (f : FloatFmt) (r : Rounding) (x : Num) : Nat × FFlags := (Elem.float f).convert { r with sat := true } x

/-- 2^-e times a value. -/
def scaleNum (x : Num) (e : Int) : Num :=
  match x with
  | .nan s => .nan s
  | .inf n => .inf n
  | .fin n m k => .fin n m (k - e)

/-- floor(log2) of the largest magnitude of a block, where one is not zero. -/
def blockLog (xs : List Num) : Option Int :=
  xs.foldl (fun acc x => match x with
    | .fin _ m k =>
      if m = 0 then acc
      else some (match acc with
        | none => Mag.log ⟨m, k, false⟩
        | some l => max l (Mag.log ⟨m, k, false⟩))
    | .nan _ => acc
    | .inf _ => acc) none

/-- Whether a value is a NaN or infinite. -/
def Num.isSpecial : Num → Bool
  | .nan _ => true
  | .inf _ => true
  | .fin _ _ _ => false

/-- The scale byte of a block (R176). -/
def blockScale (f : FloatFmt) (xs : List Num) : Nat :=
  if xs.any Num.isSpecial then 0xFF
  else match blockLog xs with
    | none => 127
    | some l => (max (-127) (min (l - mxEmax f) 127) + 127).toNat

/-- vcvt.mx (R176). It writes two groups, d and the scale register b; ldst names d (log 62). -/
def VEntry.cvtMx (e : VEntry) (c : Ctx) : Ctx :=
  let f := (vtElem e.vtype).fmt
  let wd := vtW e.vtype
  let n := vtN e.vtype
  let len := e.lim
  let ga := c.vGroup e.a.toNat (n * 32 / wd)
  let src (i : Nat) : Num := if vlReal e.vl ≤ i then .fin false 0 0 else FloatFmt.f32.read (fcrDaz e.fcr .f32) (elemAt 32 ga i)
  let block (k : Nat) : List Num := (List.range 32).map fun j => src (32 * k + j)
  let first := e.pos / 32
  let scales := (List.range (len / 32 - first)).map fun k => blockScale f (block (first + k))
  let scale (i : Nat) : Nat := scales.getD (i / 32 - first) 127
  let start := 32 * first
  let g := c.vGroup e.d.toNat n
  let r := sweep wd (fun _ => true) false (fun i x =>
      if scale i = 0xFF then ⟨0, fnv, false⟩
      else
        let q := satRound f (e.rounding f x) (scaleNum (src i) ((scale i : Int) - 127))
        ⟨q.1, q.2, false⟩) (len - start) start (xorshiftN start e.prng) ⟨g, noFlags, false⟩
  let b := match e.b with
    | .reg r => r.toNat
    | .scalar _ => 0
  let sg := (List.range scales.length).foldl (fun acc k => setElem 8 acc (first + k) (scales.getD k 0)) (c.vGroup b 1)
  let sg' := if vtTz e.vtype && len != 0 && len == vlLen e.vl then clearBits (len / 32 * 8) (vlMax e.vtype / 32 * 8) sg else sg
  (((c.setVGroup e.d.toNat n (e.tailed wd r.group)).setVGroup b 1 sg')).noteFlags r.flags false

/-! ### Dense 6-bit packing (R177) -/

/-- The low `len` containers of a group packed at 6 bits each. -/
def packSix (g : Nat) : Nat → Nat → Nat
  | 0, _ => 0
  | n + 1, i => elemAt 8 g i % 64 + 64 * packSix g n (i + 1)

/-- `len` packed fields of a group, each in a container. -/
def unpackSix (g : Nat) : Nat → Nat → Nat
  | 0, _ => 0
  | n + 1, i => elemAt 6 g i + 256 * unpackSix g n (i + 1)

/-- vpack (R177), from vstart on; the last byte's bits above the packed elements are zero. -/
def VEntry.pack (e : VEntry) (c : Ctx) : Ctx :=
  let n := vtN e.vtype
  let whole : Bool := e.lim == vlLen e.vl
  let top := if whole then (6 * e.lim + 7) / 8 * 8 else 6 * e.lim
  let d := c.vGroup e.d.toNat n
  let g := d % 2 ^ (6 * e.pos) + (packSix (c.vGroup e.a.toNat n) (e.lim - e.pos) e.pos <<< (6 * e.pos)) + clearBits 0 top d
  let g' := if vtTz e.vtype && e.lim != 0 && whole then clearBits top (16384 * n) g else g
  c.setVGroup e.d.toNat n g'

/-- vunpack (R177), from vstart on. -/
def VEntry.unpack (e : VEntry) (c : Ctx) : Ctx :=
  let n := vtN e.vtype
  let d := c.vGroup e.d.toNat n
  let g := d % 2 ^ (8 * e.pos) + (unpackSix (c.vGroup e.a.toNat n) (e.lim - e.pos) e.pos <<< (8 * e.pos)) + clearBits 0 (8 * e.lim) d
  c.setVGroup e.d.toNat n (e.tailed 8 g)

/-! ### Permutes (R182, R183) -/

/-- vslide (R182). -/
def VEntry.slide (e : VEntry) (c : Ctx) : Ctx :=
  let w := vtW e.vtype
  let ga := c.vGroup e.a.toNat (vtN e.vtype)
  let by_ : Int := match e.b with
    | .scalar x => x.toInt
    | .reg _ => 0
  e.elementwise c (vtN e.vtype) w (vtMz e.vtype) (e.active c) fun i _ _ =>
    let j := (i : Int) + by_
    quietElt (if 0 ≤ j ∧ j < vlLen e.vl then elemAt w ga j.toNat else 0)

/-- vrgather (R182). -/
def VEntry.rgather (e : VEntry) (c : Ctx) : Ctx :=
  let w := vtW e.vtype
  let n := vtN e.vtype
  let ga := c.vGroup e.a.toNat n
  let eb := e.bElem c n w
  e.elementwise c n w (vtMz e.vtype) (e.active c) fun i _ _ =>
    quietElt (if eb i < vlLen e.vl then elemAt w ga (eb i) else 0)

/-- vid (R182). -/
def VEntry.index (e : VEntry) (c : Ctx) : Ctx :=
  let w := vtW e.vtype
  e.elementwise c (vtN e.vtype) w (vtMz e.vtype) (e.active c) fun i _ _ => quietElt (i % 2 ^ w)

/-- vbcast, with x[a] read at issue in b (R182). -/
def VEntry.broadcast (e : VEntry) (c : Ctx) : Ctx :=
  let w := vtW e.vtype
  let eb := e.bElem c (vtN e.vtype) w
  e.elementwise c (vtN e.vtype) w (vtMz e.vtype) (e.active c) fun i _ _ => quietElt (eb i)

/-- The elements of a whose mask bit is set, put at place `k` and upward (R183). -/
def compressFrom (w ga m : Nat) : Nat → Nat → Nat → Nat → Nat × Nat
  | 0, _, k, g => (g, k)
  | n + 1, i, k, g =>
    if m.testBit i then compressFrom w ga m n (i + 1) (k + 1) (setElem w g k (elemAt w ga i))
    else compressFrom w ga m n (i + 1) k g

/-- vcompress (R183). -/
def VEntry.compress (e : VEntry) (c : Ctx) : Ctx :=
  let w := vtW e.vtype
  let n := vtN e.vtype
  let m := match e.b with
    | .reg r => c.mGroup r.toNat (maskRegs e.vtype)
    | .scalar _ => 0
  let r := compressFrom w (c.vGroup e.a.toNat n) m (e.lim - e.pos) e.pos (popNat e.pos m) (c.vGroup e.d.toNat n)
  let g := if vtTz e.vtype && e.lim != 0 && e.lim == vlLen e.vl then clearBits (r.2 * w) (vlMax e.vtype * w) r.1 else r.1
  c.setVGroup e.d.toNat n g

end Sys2Proof.Machine
end

