-- ==== Sys2Proof/Machine/VectorReduce.lean ====
section
/-!
DEFINITION. Reductions and scans (06_vector_arithmetic.md R178 to R181, 03_numbers.md R91, R92, 05_lanes.md R141, R142).
-/

namespace Sys2Proof.Machine

/-- A node of the reduction tree: its value where it is present, with the flags raised below it. -/
abbrev Node := Option Nat × FFlags

/-- Combine of two values that are both present (R178). Operations are numbered as R45: 0 sum, 1 min, 2 max, 3 and, 4 or, 5 xor. -/
def combineBits (t : Elem) (op : Nat) (fcr : Word) (a b : Nat) : Nat × FFlags :=
  match t with
  | .float f =>
    let rm := if fcrRm fcr = 5 then 0 else fcrRm fcr
    match op with
    | 0 => f.finish ⟨rm, fcrSat fcr, fcrFtz fcr f, 0⟩ (addNum rm (f.read false a) (f.read false b))
    | 1 => f.minmax false false a b
    | _ => f.minmax false true a b
  | .int s w =>
    match op with
    | 0 => ((a + b) % 2 ^ w, noFlags)
    | 1 => (if intRead s w a < intRead s w b then a else b, noFlags)
    | 2 => (if intRead s w b < intRead s w a then a else b, noFlags)
    | 3 => (a &&& b, noFlags)
    | 4 => (a ||| b, noFlags)
    | _ => (a ^^^ b, noFlags)
  | .lns6 => (a, noFlags)
  | .e8m0 => (a, noFlags)

/-- Combine, where an absent operand passes the other on (R91). -/
def combineNodes (t : Elem) (op : Nat) (fcr : Word) (a b : Node) : Node :=
  match a.1, b.1 with
  | none, y => (y, a.2 ||| b.2)
  | some x, none => (some x, a.2 ||| b.2)
  | some x, some y => let r := combineBits t op fcr x y; (some r.1, a.2 ||| b.2 ||| r.2)

/-- One level of the tree: neighbours combined (R91). -/
def pairUp (f : Node → Node → Node) : List Node → List Node
  | a :: b :: r => f a b :: pairUp f r
  | [a] => [a]
  | [] => []

/-- The tree over a list, level by level; `k` levels close 2^k nodes (R91 stages 1 and 2). -/
def treeUp (f : Node → Node → Node) : Nat → List Node → Node
  | 0, l => l.headD (none, noFlags)
  | k + 1, l => treeUp f k (pairUp f l)

/-- Element `i` of the source as a node: present when active and below vl, with daz applied as it is read (R91, R178). -/
def VEntry.leaf (e : VEntry) (t : Elem) (ga : Nat) (act : Nat → Bool) (i : Nat) : Node :=
  if act i && decide (i < vlLen e.vl) then
    (some (match t with
      | .float f => f.dazBits (fcrDaz e.fcr f) (elemAt t.width ga i)
      | .int _ _ => elemAt t.width ga i
      | .lns6 => elemAt t.width ga i
      | .e8m0 => elemAt t.width ga i), noFlags)
  else (none, noFlags)

/-- A reduction's binary counter: the nodes of its slots from slot 0 up (R178). -/
structure Counter where
  order : Nat
  slots : List Node
  flags : FFlags
  deriving DecidableEq, Repr

/-- A node merged into the slots, the slot on the left (R178). -/
def mergeNode (f : Node → Node → Node) : Nat → List Node → Node → List Node
  | order, s :: r, node =>
    if order % 2 = 1 then (none, noFlags) :: mergeNode f (order / 2) r (f (s.1, noFlags) node) else node :: r
  | _, [], _ => []

/-- Whether a shadow image is the restart state of an instruction at `vstart` (R142). -/
def shadowMatches (sh : BitVec 1024) (et op cls vstart per : Nat) : Bool :=
  let h := shDw sh 0
  h.getLsbD 31 && bits h 26 22 == et && bits h 21 19 == op && bits h 18 16 == cls && vstart % per == 0 &&
    bits h 6 0 == vstart / per

/-- The element a reduction or scan starts from: vstart where its shadow continues, else 0 (R142). -/
def VEntry.resumeAt (e : VEntry) (c : Ctx) (op cls : Nat) (k : BitVec 2) : Nat :=
  if e.pos ≠ 0 ∧ shadowMatches (c.shadow k) (vtEt e.vtype) op cls e.pos (perGroup (vtW e.vtype)) then e.pos else 0

/-- The counter that a shadow image holds. -/
def counterOf (sh : BitVec 1024) : Counter :=
  ⟨bits (shDw sh 0) 6 0, (List.range 7).map fun j => (if (shDw sh 0).getLsbD (8 + j) then some (shDw sh (1 + j)).toNat else none, noFlags),
    noFlags⟩

/-- The counter before any element group. -/
def counterZero : Counter := ⟨0, List.replicate 7 (none, noFlags), noFlags⟩

/-- One element group visited (R178). -/
def VEntry.visit (e : VEntry) (t : Elem) (ga : Nat) (act : Nat → Bool) (op : Nat) (g : Nat) (k : Counter) : Counter :=
  let per := perGroup t.width
  let node := treeUp (combineNodes t op e.fcr) (Nat.log2 per) ((List.range per).map fun j => e.leaf t ga act (g * per + j))
  let slots := mergeNode (combineNodes t op e.fcr) k.order k.slots node
  ⟨k.order + 1, slots.map fun s => (s.1, noFlags), slots.foldl (fun acc s => acc ||| s.2) k.flags⟩

/-- The image that a counter is (Table 5.5), busy until its instruction commits. -/
def Counter.image (k : Counter) (et op cls : Nat) : BitVec 1024 :=
  let sp := (List.range 7).foldl (fun acc j => if (k.slots.getD j (none, noFlags)).1.isSome then acc + 2 ^ j else acc) 0
  shImage (shHeader true et op cls false sp k.order :: k.slots.map fun s => BitVec.ofNat 64 (s.1.getD 0))

/-- The identity of an operation, for an input with no element present (R179). -/
def reduceIdentity (t : Elem) (op : Nat) : Nat :=
  match t with
  | .float f =>
    match op with
    | 0 => 0
    | 1 => f.inf false
    | _ => f.inf true
  | .int s w =>
    match op with
    | 0 => 0
    | 1 => intBits w (intHi s w)
    | 2 => intBits w (intLo s w)
    | 3 => 2 ^ w - 1
    | _ => 0
  | .lns6 => 0
  | .e8m0 => 0

/-- An element as x[d] holds it: signed integers sign-extended, everything else zero-extended (R179, R184). -/
def scalarOf (t : Elem) (v : Nat) : Word :=
  match t with
  | .int true w => BitVec.ofInt 64 (intRead true w v)
  | .int false _ => BitVec.ofNat 64 v
  | .float _ => BitVec.ofNat 64 v
  | .lns6 => BitVec.ofNat 64 v
  | .e8m0 => BitVec.ofNat 64 v

/-- vred and vfred: element groups visited, into the shadow's image (R178). Groups wholly at or above vl are not visited (log 62). -/
def VEntry.reduce (e : VEntry) (c : Ctx) (cls op : Nat) (k : BitVec 2) : Ctx :=
  let t := vtElem e.vtype
  let per := perGroup t.width
  if vlLen e.vl = 0 then c
  else
    let ga := c.vGroup e.a.toNat (vtN e.vtype)
    let act := e.active c
    let start := e.resumeAt c op cls k
    let init := if start = 0 then counterZero else counterOf (c.shadow k)
    let groups := (e.lim + per - 1) / per
    let done := (List.range (groups - start / per)).foldl (fun acc g => e.visit t ga act op (start / per + g) acc) init
    (c.setShadow k (done.image (vtEt e.vtype) op cls)).noteFlags done.flags false

/-- A shadow image whose instruction has committed: not busy (05_lanes.md R142). -/
def shSettled (sh : BitVec 1024) : BitVec 1024 := sh &&& ~~~(1#1024 <<< 31)

/-- The commit of a reduction: its slots combined from the lowest up, the higher one on the left, into x[d] (R178, R179, R181). -/
def VEntry.reduced (e : VEntry) (c : Ctx) (op : Nat) (k : BitVec 2) : Ctx :=
  let t := vtElem e.vtype
  if vlLen e.vl = 0 then c.setX e.d (scalarOf t (reduceIdentity t op))
  else
    let total := (counterOf (c.shadow k)).slots.foldl (fun acc s => combineNodes t op e.fcr s acc) (none, noFlags)
    ((c.setShadow k (shSettled (c.shadow k))).setX e.d (scalarOf t (total.1.getD (reduceIdentity t op)))).noteFlags total.2 false

/-- One step of a row's scan: y_i <- y_(i−d) combined with y_i for every i ≥ d, at once (R92). -/
def scanStep (f : Node → Node → Node) (d : Nat) (ys : List Node) : List Node :=
  ys.take d ++ (List.zipWith f ys (ys.drop d))

/-- A row's scan: d = 1, 2, 4, … up to half the row's elements (R92). -/
def scanRow (f : Node → Node → Node) : Nat → Nat → List Node → List Node
  | 0, _, ys => ys
  | k + 1, d, ys => scanRow f k (2 * d) (scanStep f d ys)

/-- A scan as it goes: the destination, the carry and the flags. -/
structure Scan where
  group : Nat
  carry : Option Nat
  flags : FFlags
  deriving DecidableEq, Repr

/-- One row of a scan: each active element's output is the carry combined with y_i, and the last one is the next carry (R92, R180). -/
def VEntry.scanGroup (e : VEntry) (t : Elem) (ga : Nat) (act : Nat → Bool) (op g : Nat) (acc : Scan) : Scan :=
  let per := perGroup t.width
  let f := combineNodes t op e.fcr
  let leaves := (List.range per).map fun j => e.leaf t ga act (g * per + j)
  let ys := scanRow f (Nat.log2 per) 1 (leaves.map fun y => (y.1, noFlags))
  (List.range per).foldl (fun a j =>
    let i := g * per + j
    if vlLen e.vl ≤ i then a
    else if (leaves.getD j (none, noFlags)).1.isNone then
      (if vtMz e.vtype then { a with group := setElem t.width a.group i 0 } else a)
    else
      let out := f (acc.carry, noFlags) (ys.getD j (none, noFlags))
      ⟨setElem t.width a.group i (out.1.getD 0), out.1, a.flags ||| out.2⟩) acc

/-- vscan (R180): element groups visited, with the carry in the shadow's image. Groups wholly at or above vl are not visited (log 62). -/
def VEntry.scan (e : VEntry) (c : Ctx) (cls op : Nat) (k : BitVec 2) : Ctx :=
  if vlLen e.vl = 0 then c
  else
    let t := vtElem e.vtype
    let per := perGroup t.width
    let n := vtN e.vtype
    let ga := c.vGroup e.a.toNat n
    let act := e.active c
    let start := e.resumeAt c op cls k
    let groups := (e.lim + per - 1) / per
    let carry := if start ≠ 0 ∧ (shDw (c.shadow k) 0).getLsbD 15 then some (shDw (c.shadow k) 8).toNat else none
    let r := (List.range (groups - start / per)).foldl (fun acc g => e.scanGroup t ga act op (start / per + g) acc)
      ⟨c.vGroup e.d.toNat n, carry, noFlags⟩
    let image := shImage (shHeader true (vtEt e.vtype) op cls r.carry.isSome 0 groups :: List.replicate 7 0#64 ++
      [BitVec.ofNat 64 (r.carry.getD 0)])
    ((c.setVGroup e.d.toNat n (e.tailed t.width r.group)).setShadow k image).noteFlags r.flags false

end Sys2Proof.Machine
end

