-- ==== Sys2Proof/Machine/VectorQueue.lean ====
section
/-!
DEFINITION. The vector queue (05_lanes.md R143 to R150): entering an instruction, the micro-operations of the oldest entry, its commit,
and the stop at a fault. An instruction that enters an empty queue runs to its commit or its stop as it enters, unless the lanes lag (log
21).
-/

namespace Sys2Proof.Machine

/-! ## Running the oldest entry -/

/-- Every v, m and s register zeroed, and vdirty but for the bits that instructions after the vrel have set (R134, R153). -/
def Ctx.released (c : Ctx) (later : Word) : Ctx :=
  { c with v := Vector.replicate 32 0#16384, m := Vector.replicate 8 0#2048, sh := Vector.replicate 4 0#1024, vdirty := later }

/-- The elements that a gather marker reads (10_scratchpad_copy.md R323). -/
def VEntry.gatherIndices (e : VEntry) (c : Ctx) : List Nat :=
  (List.range (vlReal e.vl)).map fun i => elemAt (vtW e.vtype) (e.indexGroup c (vtN e.vtype)) i

/-- What an entry's work makes of a context, but for the flags that a later write of fcr or status has settled (03_numbers.md R84, 04_scalar.md
R100). -/
def VEntry.pinned (e : VEntry) (c c1 : Ctx) : Ctx :=
  if e.pins = 0#64 ∧ e.statusPins = 0#64 then c1
  else { c1 with fcr := c.fcr ||| (c1.fcr &&& ~~~e.pins), status := c.status ||| (c1.status &&& ~~~e.statusPins) }

/-- The context after an entry that accesses no memory. A gather marker with vl = 0 clears its mask register, as 10_scratchpad_copy.md R323
has the bits from nreal on written 0, where R140 would write none (log 70). -/
def VEntry.compute (e : VEntry) (c : Ctx) : Ctx :=
  let t := vtElem e.vtype
  match e.op with
  | .int op => e.plain c fun a b d _ => intOp op t.isSigned t.width a b d
  | .wide op => e.widen c op
  | .nclip => e.nclip c
  | .float op => e.plain c fun a b d x => floatOp op t.fmt e.fcr (e.rounding t.fmt x) a b d
  | .special op => e.plain c fun a _ _ _ =>
      ⟨(specialFn op.row t.fmt (vtEt e.vtype) e.fcr a).1, (specialFn op.row t.fmt (vtEt e.vtype) e.fcr a).2, false⟩
  | .sel => e.select c
  | .cmp float cond => e.compare c float cond.toNat
  | .mask op => e.maskOp c op
  | .cvt target => e.cvt c target.toNat
  | .cvtMx => e.cvtMx c
  | .pack => e.pack c
  | .unpack => e.unpack c
  | .reduce float op k => e.reduce c (if float then 1 else 0) op.toNat k
  | .scan float op k => e.scan c (if float then 3 else 2) op.toNat k
  | .slide => e.slide c
  | .gather => e.rgather c
  | .compress => e.compress c
  | .iota => e.index c
  | .bcast => e.broadcast c
  | .move => e.plain c fun a _ _ _ => quietElt a
  | .topk control k => e.topk c control k
  | .release => c.released e.dirty
  | .gatherMarker _ _ =>
    c.setMGroup e.d.toNat 1 (conflictMask [] (e.gatherIndices c))
  | .load _ _ => c
  | .chase _ _ => c
  | .loadSeg _ _ => c
  | .store _ _ _ => c
  | .atomicAdd _ => c
  | .shape => c
  | .fenceArrive _ _ _ _ => c
  | .drained _ => c

/-- The operation that a vfence.arrive marker sends (09_visibility.md R288). -/
def State.fenceOp (s : State) (handle amount reply : Word) (scope : BitVec 3) (toStatus : Bool) : TokenOp :=
  s.opOf 9#8 handle amount scope reply toStatus

/-- A micro-operation's elements, from its entry's progress index up to its limit or to its stop (R145, 06_vector_arithmetic.md R158,
10_scratchpad_copy.md R301, R302). -/
def State.vPerform (s : State) (e : VEntry) : State × VStop :=
  let w := vtW e.vtype
  let n := vtN e.vtype
  let c := s.me.ctx
  match e.op with
  | .load form base => s.vLoad e 1 (fun i _ => formAddr form base w (e.indexGroup c n) i)
  | .chase base k => State.vChase base k 65 e s
  | .loadSeg fields base =>
    let ix := e.indexGroup c n
    s.vLoad e fields (fun i f => base + BitVec.ofNat 64 ((elemAt w ix i * fields + f) * (w / 8)))
  | .store form base ordered => s.vStore e (fun i => formAddr form base w (e.indexGroup c n) i) ordered
  | .atomicAdd base => s.vAtomic e base
  | _ => (s.updCtx fun c1 => e.pinned c1 (e.compute c1), none)

/-- What becomes of an entry's registers with its commit: the tail of a load, and the last micro-operation of an entry that accesses no memory,
whose results become architectural as it commits (R146, R149, 06_vector_arithmetic.md R161); nothing where the entry began at or above vl
(R132). -/
def State.vFinish (s : State) (e : VEntry) : State :=
  if e.lim < vlLen e.vl then s
  else
    match e.op with
    | .load _ _ => s.updCtx (e.loadTail 1)
    | .chase _ _ => s.updCtx (e.loadTail 1)
    | .loadSeg fields _ => s.updCtx (e.loadTail fields)
    | .store _ _ _ => s
    | .atomicAdd _ => s
    | _ => s.updCtx fun c => e.pinned c (e.compute c)

/-! ## Accesses to the same bytes (04_scalar.md R105, 12_matrix.md R370) -/

/-- The addresses of element `i` of a queued access, one a field (10_scratchpad_copy.md Table 10.3, R305, 09_visibility.md R294). -/
def VEntry.elemAddrs (e : VEntry) (c : Ctx) (i : Nat) : List Word :=
  let w := vtW e.vtype
  let ix := e.indexGroup c (vtN e.vtype)
  match e.op with
  | .load form base => [formAddr form base w ix i]
  | .chase base _ => [formAddr .unit base w 0 i]
  | .loadSeg fields base => (List.range fields).map fun f => base + BitVec.ofNat 64 ((elemAt w ix i * fields + f) * (w / 8))
  | .store form base _ => [formAddr form base w ix i]
  | .atomicAdd base => [base + BitVec.ofNat 64 (elemAt w ix i * (w / 8))]
  | _ => []

/-- Whether a queued access takes its addresses from an index group (04_scalar.md R105). -/
def VOp.isIndexed : VOp → Bool
  | .load (.indexed _) _ => true
  | .store (.indexed _) _ _ => true
  | .loadSeg _ _ => true
  | .atomicAdd _ => true
  | _ => false

/-- The addresses of the elements that a queued access has still to perform (04_scalar.md R105). -/
def VEntry.ahead (e : VEntry) (c : Ctx) : List Word :=
  if e.finished || !e.op.isMemory then []
  else
    let n := match e.op with
      | .atomicAdd _ => vlLen e.vl
      | _ => vlReal e.vl
    (List.range n).flatMap fun i => if i < e.pos then [] else e.elemAddrs c i

/-- Whether a queued access may have elements to perform at bytes that `meets` tells: an indexed access behind the oldest entry always, since
its addresses are not computed yet (04_scalar.md R105). -/
def Ctx.mayMeet (c : Ctx) (e : VEntry) (meets : Word → Nat → Bool) : Bool :=
  !e.finished && ((e.op.isIndexed && !(c.vq.head?.map (·.ord) == some e.ord)) ||
    (e.ahead c).any fun va => meets va (elemBytes (vtW e.vtype)))

/-- The scratchpad bytes of a matrix entry: those of msave and mload (12_matrix.md R370). -/
def MEntry.padBytes (e : MEntry) : Option Nat :=
  match e.op with
  | .save o _ => some o.toNat
  | .load o _ => some o.toNat
  | _ => none

/-- Whether `n` bytes at a virtual address lie in part among the bytes of a half tile at a scratchpad offset of this core (12_matrix.md
R370). -/
def State.meetsPad (s : State) (o : Nat) (va : Word) (n : Nat) : Bool :=
  match (s.vecCheck false va n).2 with
  | .ok pa _ => decide (pa < scratchAddr s.me.id o + 16384) && decide (scratchAddr s.me.id o < pa + n)
  | .fault _ => false

/-- Whether an access of `n` bytes, in program order after the entries of the matrix queue below `ord`, waits for an msave or mload of the same
bytes (12_matrix.md R370). -/
def State.padWaits (s : State) (ord : Nat) (va : Word) (n : Nat) : Bool :=
  s.me.ctx.mq.any fun m => decide (m.ord < ord) && (m.padBytes.map fun o => s.meetsPad o va n).getD false

/-- Whether an entry has to wait, whatever its elements: for its place in a stream (10_scratchpad_copy.md R322), for room among the outgoing
operations (08_tokens.md R240), for its mdrain (12_matrix.md R353), or for an msave or mload of its bytes (12_matrix.md R370). -/
def State.vWaits (s : State) (e : VEntry) : Bool :=
  match e.op with
  | .shape => s.me.stepWaits s.slotNum
  | .fenceArrive _ _ _ _ => s.outqFull
  | .drained none => true
  | _ => !s.me.ctx.mq.isEmpty && (e.ahead s.me.ctx).any fun va => s.padWaits e.ord va (elemBytes (vtW e.vtype))

/-- A context after an mdrain's marker has committed (12_matrix.md R353). -/
def Ctx.drainInto (c : Ctx) (d : BitVec 5) (value : Option (BitVec 131072)) : Ctx :=
  match value with
  | none => c
  | some v => c.setVGroup d.toNat 8 v.toNat

/-- What an entry's commit does beyond its elements: a reduction writes x[d], a reduction's or scan's shadow is no longer busy, a vset
marker is a step of a stream, a gather marker starts its command, a vfence.arrive marker sends its signal, and an mdrain's values become
architectural (06_vector_arithmetic.md R179, R181, 05_lanes.md R142, 10_scratchpad_copy.md R322, R323, 09_visibility.md R288, 12_matrix.md
R353). -/
def State.vRetire (s : State) (e : VEntry) : State :=
  match e.op with
  | .reduce _ op k => s.updCtx fun c => e.pinned c (e.reduced c op.toNat k)
  | .scan _ _ k => if vlLen e.vl = 0 then s else s.updCtx fun c => c.setShadow k (shSettled (c.shadow k))
  | .shape => { s with me := s.me.retireStep s.slotNum }
  | .gatherMarker entry seq => { s with me := s.me.startGather entry seq (e.gatherIndices s.me.ctx) }
  | .fenceArrive h amount reply scope => s.postMuted e.statusPins (s.fenceOp h amount reply scope (e.d == 0#5))
  | .drained v => s.updCtx fun c => c.drainInto e.d v
  | _ => s

/-- Whether an entry leaves vstart as it is: the markers of vset and vrel, of which the spec says so (R151, R153). -/
def VOp.keepsStart : VOp → Bool
  | .shape => true
  | .release => true
  | _ => false

/-- vstart once an entry has committed: 0, or as it is where the entry keeps it. -/
def VEntry.startAfter (e : VEntry) (v : Nat) : Nat := if e.op.keepsStart then e.pos else v

/-- The entries replaced and vstart set (R132, R149). -/
def State.setQueue (s : State) (q : List VEntry) (vstart : Nat) : State :=
  s.updCtx fun c => { c with vq := q, vstart := BitVec.ofNat 16 vstart }

/-- The elements of a micro-operation: a whole unit of progress (06_vector_arithmetic.md Table 6.3, 05_lanes.md R145); 0 where the entry is
done in one step, at its commit. A form that writes a mask has the 2,048 mask bits of a destination element group, and a dense packing 256
containers (log 21). -/
def VEntry.unit (e : VEntry) : Nat :=
  let w := vtW e.vtype
  match e.op with
  | .wide _ => perGroup w
  | .nclip => perGroup w
  | .cmp _ _ => 2048
  | .mask _ => 2048
  | .cvt target => perGroup (min w ((elemOf target.toNat).getD (.int true 8)).width)
  | .pack => 256
  | .unpack => 256
  | .topk _ _ => 0
  | .release => 0
  | .shape => 0
  | .fenceArrive _ _ _ _ => 0
  | .gatherMarker _ _ => 0
  | .drained _ => 0
  | _ => perGroup w

/-- The element below which the next micro-operation of an entry ends. -/
def VEntry.next (e : VEntry) : Nat :=
  if e.unit = 0 then vlLen e.vl else min (vlLen e.vl) ((e.pos / e.unit + 1) * e.unit)

/-- Whether an entry begins at or above vl with elements to change, and so changes none (R132): every form but the markers, and a
reduction, which writes no element. -/
def VEntry.idle (e : VEntry) : Bool :=
  decide (e.pos ≠ 0) && decide (vlLen e.vl ≤ e.pos) && (match e.op with
    | .reduce _ _ _ => false
    | .release => false
    | .shape => false
    | .fenceArrive _ _ _ _ => false
    | .gatherMarker _ _ => false
    | .drained _ => false
    | _ => true)

/-- The oldest entry's elements run up to `lim`: to its end, or its next element group, or stopped at an element, which the coroutine's
stop then names (R145, R149). An entry that accesses no memory keeps what its last micro-operation computes until it commits, so its progress
index stays a multiple of its unit of progress (06_vector_arithmetic.md R161; log 21). -/
def State.vAdvance (s : State) (lim : VEntry → Nat) : State :=
  match s.me.ctx.vq with
  | [] => s
  | e0 :: r =>
    if e0.finished || s.me.ctx.behindMatrix e0 || s.vWaits e0 then s
    else
      let e := { e0.masked s.me.ctx with lim := lim e0 }
      if e.idle then s.setQueue ({ e with lim := 0, finished := true } :: r) e.pos
      else if !e.op.isMemory && decide (vlLen e.vl ≤ e.lim) then s.setQueue ({ e with finished := true } :: r) e.pos
      else
        match s.vPerform e with
        | (s1, none) => s1.setQueue ({ e with pos := e.lim, finished := decide (vlLen e.vl ≤ e.lim) } :: r) e.lim
        | (s1, some (f, va, k)) => (s1.setQueue ({ e with pos := k } :: r) k).takeFault f va e.op.isStore s.pc

/-- Where the next micro-operation of an entry ends: with its element group, or a memory access's after the `k` elements that it pauses at,
where k is not 0 (log 21). -/
def VEntry.pauseAt (k : Nat) (e : VEntry) : Nat := if e.op.isMemory && k != 0 then min e.next (e.pos + k) else e.next

/-- One micro-operation of the oldest entry: an element group, or of a memory access the part of it up to its pause (VECTOR_MICRO_OP, R145;
log 21). -/
def State.vStep (s : State) : State :=
  let memory := (s.me.ctx.vq.head?.map fun e => e.op.isMemory).getD false
  { s with pauses := if memory then s.pauses.drop 1 else s.pauses }.vAdvance (VEntry.pauseAt (s.pauses.headD 0))

/-- The oldest entry, once finished, committed (VECTOR_COMMIT, R146); vstart becomes 0 (R132). -/
def State.vCommit (s : State) : State :=
  match s.me.ctx.vq with
  | [] => s
  | e :: r => if e.finished && !s.vWaits e then ((s.vFinish e).setQueue r (e.startAfter 0)).vRetire e else s

/-- The oldest entry run to its end or its stop, and committed. -/
def State.vRun (s : State) : State := (s.vAdvance fun e => vlLen e.vl).vCommit

/-! ## Entering the queue -/

/-- What ldst becomes when an instruction issues (02_encoding.md R49). -/
inductive Names where
  | none
  | v (n : BitVec 5)
  | x (n : BitVec 5)
  deriving DecidableEq, Repr

/-- ldst set at issue (02_encoding.md R49). -/
def Ctx.name (c : Ctx) : Names → Ctx
  | .none => c
  | .v n => { c with ldst := 1#1 ++ n }
  | .x n => { c with ldst := 0#1 ++ n }

/-- The place in program order of the next entry of a queue: above that of every entry there and of every access that an outgoing
operation waits for. -/
def State.nextOrd (s : State) : Nat :=
  (s.me.ctx.vq.map (·.ord) ++ s.me.ctx.mq.map (·.ord) ++ s.me.outq.map (·.vector)).foldl max 0 + 1

/-- An entry for the instruction that executes, with the state captured (R143, 03_numbers.md R85). vstart belongs to the oldest entry, and
to one that enters an empty queue (R132). -/
def State.capture (s : State) (op : VOp) (d a : BitVec 5) (b : VSrc) (pred : BitVec 4) : VEntry :=
  let c := s.me.ctx
  { op := op, d := d, a := a, b := b, pred := pred, pc := c.pc, vl := c.vl, vtype := c.vtype, fcr := c.fcr, prng := c.prng,
    mask := none, pos := if c.vq.isEmpty then c.vstart.toNat else 0, lim := vlLen c.vl, finished := false, dirty := 0#64, ord := s.nextOrd,
    pins := 0#64, statusPins := 0#64, framed := false }

/-- prng after a vector instruction that rounds under SR: vl steps (03_numbers.md R78). -/
def Ctx.vDrawn (c : Ctx) (draws : Bool) : Ctx :=
  if draws && fcrRm c.fcr == 5 then { c with prng := xorshiftN (vlLen c.vl) c.prng } else c

/-- An instruction put into the queue: vdirty, prng and ldst change at issue and the front end moves on (R134, R143). It runs at once where
the queues were empty and the lanes keep up (log 21). -/
def State.enqueue (s : State) (e : VEntry) (len : Nat) (dirty : Word) (names : Names) (draws : Bool) : State :=
  let s1 := s.updCtx fun c =>
    { ((c.vDrawn draws).name names).mark dirty with vq := (c.mark dirty).vq ++ [{ e with dirty := dirty }] }
  let s2 := { s1 with lag := s1.lag.drop 1 }.adv len
  if s.me.ctx.hasFrame || s.lag.headD false then s2 else s2.vRun

/-- A marker put into the queue by an instruction that no shape stops (R151, R153). -/
def State.vMark (s : State) (e : VEntry) (len : Nat) : State := s.enqueue e len 0#64 .none false

/-- Whether a vector instruction may issue: VECTOR_OFF while voff is set (R135), then ILLEGAL for a shape that vset could not give
or a form that is not legal under it (R129, 02_encoding.md R39); then room for its claim. -/
def State.vIssue (s : State) (e : VEntry) (len : Nat) (legal : Bool) (dirty : Word) (names : Names) (draws : Bool) : State :=
  if s.me.ctx.status.getLsbD 8 then s.vectorOff
  else if !(shapeOk s.me.ctx.vl s.me.ctx.vtype && legal) then s.illegal
  else
    match s.claimDirty dirty with
    | (s1, false) => s1
    | (s1, true) => s1.enqueue e len dirty names draws

end Sys2Proof.Machine
end

