-- ==== Sys2Proof/Machine/VectorArith.lean ====
section
/-!
DEFINITION. The vector arithmetic, mask, conversion, reduction and permute instructions, and the vector compact forms
(06_vector_arithmetic.md, 02_encoding.md R48, R49): what each checks at issue and what it puts into the queue.
-/

namespace Sys2Proof.Machine

/-! ## Shared operations -/

/-- The vtype in force. -/
def State.vt (s : State) : Word := s.me.ctx.vtype

/-- Whether vtype.et is a float type of Table 6.1. -/
def floatEt (et : Nat) : Bool := decide (8 ≤ et) && decide (et ≤ 11)

/-- The rules of R136 and R137 on the b operand of an element-wise form. -/
def VSrc.okSame (b : VSrc) (d : BitVec 5) (n : Nat) : Bool :=
  match b with
  | .reg r => groupOk r n && sameOrDisjoint d r n
  | .scalar _ => true

/-- The rules of R136 and R137 on the b operand of a form whose destination is disjoint from its sources. -/
def VSrc.okApart (b : VSrc) (d : BitVec 5) (nd n : Nat) : Bool :=
  match b with
  | .reg r => groupOk r n && disjoint d nd r n
  | .scalar _ => true

/-- Whether an element-wise form's groups and predicate are legal (R136, R137, R139). -/
def plainOk (vt : Word) (d a : BitVec 5) (b : VSrc) (p : BitVec 4) : Bool :=
  groupOk d (vtN vt) && groupOk a (vtN vt) && sameOrDisjoint d a (vtN vt) && b.okSame d (vtN vt) && predOk vt p

/-- Whether a form with its destination disjoint from its sources is legal, with groups of `nd` and `na` registers (R137). -/
def apartOk (vt : Word) (d a : BitVec 5) (nd na : Nat) (b : VSrc) (p : BitVec 4) : Bool :=
  groupOk d nd && groupOk a na && disjoint d nd a na && b.okApart d nd (vtN vt) && predOk vt p

/-- An element-wise form at issue. -/
def State.vPlain (s : State) (op : VOp) (types : Nat → Bool) (draws : Bool) (len : Nat) (d a : BitVec 5) (b : VSrc) (p : BitVec 4) :
    State :=
  s.vIssue (s.capture op d a b p) len (types (vtEt s.vt) && plainOk s.vt d a b p) (vBits d (vtN s.vt)) (.v d) draws

/-- An integer form (R162). -/
def State.vInt (s : State) (op : IntOp) (len : Nat) (d a : BitVec 5) (b : VSrc) (p : BitVec 4) : State :=
  s.vPlain (.int op) (fun et => match op with
    | .and => true
    | .or => true
    | .xor => true
    | _ => decide (et ≤ 7)) false len d a b p

/-- A float form (R166); the ones that round draw (03_numbers.md R78). -/
def State.vFloat (s : State) (op : FloatOp) (len : Nat) (d a : BitVec 5) (b : VSrc) (p : BitVec 4) : State :=
  s.vPlain (.float op) floatEt (match op with
    | .min => false
    | .max => false
    | _ => true) len d a b p

/-- A special function (R167). -/
def State.vSpecial (s : State) (op : SpecialOp) (d a : BitVec 5) (p : BitVec 4) : State :=
  s.vPlain (.special op) (fun et => floatEt et && et != 8) false 4 d a (.scalar 0#64) p

/-- The types of Table 6.1 that can be the narrow type of a widening form. -/
def wideEt (et : Nat) : Bool := decide (et ≤ 2) || (decide (4 ≤ et) && decide (et ≤ 6)) || (decide (9 ≤ et) && decide (et ≤ 11))

/-- A widening form (R164). -/
def State.vWide (s : State) (op : WideOp) (d a : BitVec 5) (b : VSrc) (p : BitVec 4) : State :=
  s.vIssue (s.capture (.wide op) d a b p) 4
    (wideEt (vtEt s.vt) && decide (2 * vtN s.vt ≤ 8) && apartOk s.vt d a (2 * vtN s.vt) (vtN s.vt) b p)
    (vBits d (2 * vtN s.vt)) (.v d) (floatEt (vtEt s.vt))

/-- vnclip (R165). -/
def State.vNclip (s : State) (d a : BitVec 5) (b : VSrc) (p : BitVec 4) : State :=
  s.vIssue (s.capture .nclip d a b p) 4
    (wideEt (vtEt s.vt) && decide (vtEt s.vt ≤ 7) && decide (2 * vtN s.vt ≤ 8) && apartOk s.vt d a (vtN s.vt) (2 * vtN s.vt) b p)
    (vBits d (vtN s.vt)) (.v d) false

/-- vsel (R169). -/
def State.vSelect (s : State) (d a : BitVec 5) (b : VSrc) (p : BitVec 4) : State :=
  s.vPlain .sel (fun _ => p != 0#4) false 4 d a b p

/-- A compare (R170). -/
def State.vCompare (s : State) (float : Bool) (d a b : BitVec 5) (k : BitVec 1) (c p : BitVec 4) : State :=
  let src : VSrc := if k = 1#1 then .scalar (s.x b) else .reg b
  let ok := if float then floatEt (vtEt s.vt) && decide (c.toNat ≤ 7) else decide (vtEt s.vt ≤ 7) && decide (c.toNat ≤ 5)
  s.vIssue (s.capture (.cmp float c) d a src p) 4
    (ok && decide (d.toNat ≤ 7) && maskOk s.vt d.toNat && groupOk a (vtN s.vt) &&
      (match src with
        | .reg r => groupOk r (vtN s.vt)
        | .scalar _ => true) && predOk s.vt p)
    (mBits d.toNat (maskRegs s.vt)) .none false

/-- A mask operation that writes a mask (R171). -/
def State.vMask (s : State) (op : MaskOp) (d a b : BitVec 5) : State :=
  s.vIssue (s.capture (.mask op) d a (.reg b) 0#4) 4
    (decide (d.toNat ≤ 7) && decide (a.toNat ≤ 7) && decide (b.toNat ≤ 7) && maskOk s.vt d.toNat && maskOk s.vt a.toNat &&
      maskOk s.vt b.toNat)
    (mBits d.toNat (maskRegs s.vt)) .none false

/-- A form that the front end executes on vector state: VECTOR_OFF, then ILLEGAL, then x[d] (R172, R184). -/
def State.vFront (s : State) (legal : Bool) (d : BitVec 5) (v : Word) : State :=
  if s.me.ctx.status.getLsbD 8 then s.vectorOff
  else if !(shapeOk s.me.ctx.vl s.vt && legal) then s.illegal
  else s.write d v

/-- The bits below vl of a mask group (R172). -/
def State.maskBelow (s : State) (a : BitVec 5) : Nat := s.me.ctx.mGroup a.toNat (maskRegs s.vt) % 2 ^ vlLen s.me.ctx.vl

/-- Whether a mask operand of mpop or mfirst is legal (R172, R139). -/
def State.maskSource (s : State) (a : BitVec 5) : Bool := decide (a.toNat ≤ 7) && maskOk s.vt a.toNat

/-- A reduction (R178 to R181). -/
def State.vReduce (s : State) (float : Bool) (d a b : BitVec 5) (o : BitVec 3) (p : BitVec 4) : State :=
  let ok := if float then floatEt (vtEt s.vt) && decide (o.toNat ≤ 2) else decide (vtEt s.vt ≤ 7) && decide (o.toNat ≤ 5)
  s.vIssue (s.capture (.reduce float o (b.setWidth 2)) d a (.reg b) p) 4
    (ok && decide (b.toNat ≤ 3) && groupOk a (vtN s.vt) && predOk s.vt p) (shBit (b.setWidth 2)) (.x d) false

/-- A scan (R180). -/
def State.vScan (s : State) (float : Bool) (d a b : BitVec 5) (o : BitVec 3) (p : BitVec 4) : State :=
  let ok := if float then floatEt (vtEt s.vt) && decide (o.toNat ≤ 2) else decide (vtEt s.vt ≤ 7) && decide (o.toNat ≤ 5)
  s.vIssue (s.capture (.scan float o (b.setWidth 2)) d a (.scalar 0#64) p) 4
    (ok && decide (b.toNat ≤ 3) && apartOk s.vt d a (vtN s.vt) (vtN s.vt) (.scalar 0#64) p)
    (vBits d (vtN s.vt) ||| shBit (b.setWidth 2)) (.v d) false

/-! ## Integer forms (R162, R163) -/

/-- vadd with a vector b (R162). -/
def execVaddVv (d a b : BitVec 5) (p : BitVec 4) (s : State) : Result := .next (s.vInt .add 4 d a (.reg b) p)
/-- vadd with a scalar b (R162). -/
def execVaddVx (d a b : BitVec 5) (p : BitVec 4) (s : State) : Result := .next (s.vInt .add 4 d a (.scalar (s.x b)) p)
/-- vsub with a vector b (R162). -/
def execVsubVv (d a b : BitVec 5) (p : BitVec 4) (s : State) : Result := .next (s.vInt .sub 4 d a (.reg b) p)
/-- vsub with a scalar b (R162). -/
def execVsubVx (d a b : BitVec 5) (p : BitVec 4) (s : State) : Result := .next (s.vInt .sub 4 d a (.scalar (s.x b)) p)
/-- vmul with a vector b (R162). -/
def execVmulVv (d a b : BitVec 5) (p : BitVec 4) (s : State) : Result := .next (s.vInt .mul 4 d a (.reg b) p)
/-- vmul with a scalar b (R162). -/
def execVmulVx (d a b : BitVec 5) (p : BitVec 4) (s : State) : Result := .next (s.vInt .mul 4 d a (.scalar (s.x b)) p)
/-- vmulh with a vector b (R162). -/
def execVmulhVv (d a b : BitVec 5) (p : BitVec 4) (s : State) : Result := .next (s.vInt .mulh 4 d a (.reg b) p)
/-- vmulh with a scalar b (R162). -/
def execVmulhVx (d a b : BitVec 5) (p : BitVec 4) (s : State) : Result := .next (s.vInt .mulh 4 d a (.scalar (s.x b)) p)
/-- vmacc with a vector b (R162). -/
def execVmaccVv (d a b : BitVec 5) (p : BitVec 4) (s : State) : Result := .next (s.vInt .macc 4 d a (.reg b) p)
/-- vmacc with a scalar b (R162). -/
def execVmaccVx (d a b : BitVec 5) (p : BitVec 4) (s : State) : Result := .next (s.vInt .macc 4 d a (.scalar (s.x b)) p)
/-- vnmsac with a vector b (R162). -/
def execVnmsacVv (d a b : BitVec 5) (p : BitVec 4) (s : State) : Result := .next (s.vInt .nmsac 4 d a (.reg b) p)
/-- vnmsac with a scalar b (R162). -/
def execVnmsacVx (d a b : BitVec 5) (p : BitVec 4) (s : State) : Result := .next (s.vInt .nmsac 4 d a (.scalar (s.x b)) p)
/-- vdiv with a vector b (R162). -/
def execVdivVv (d a b : BitVec 5) (p : BitVec 4) (s : State) : Result := .next (s.vInt .div 4 d a (.reg b) p)
/-- vdiv with a scalar b (R162). -/
def execVdivVx (d a b : BitVec 5) (p : BitVec 4) (s : State) : Result := .next (s.vInt .div 4 d a (.scalar (s.x b)) p)
/-- vrem with a vector b (R162). -/
def execVremVv (d a b : BitVec 5) (p : BitVec 4) (s : State) : Result := .next (s.vInt .rem 4 d a (.reg b) p)
/-- vrem with a scalar b (R162). -/
def execVremVx (d a b : BitVec 5) (p : BitVec 4) (s : State) : Result := .next (s.vInt .rem 4 d a (.scalar (s.x b)) p)
/-- vmin with a vector b (R162). -/
def execVminVv (d a b : BitVec 5) (p : BitVec 4) (s : State) : Result := .next (s.vInt .min 4 d a (.reg b) p)
/-- vmin with a scalar b (R162). -/
def execVminVx (d a b : BitVec 5) (p : BitVec 4) (s : State) : Result := .next (s.vInt .min 4 d a (.scalar (s.x b)) p)
/-- vmax with a vector b (R162). -/
def execVmaxVv (d a b : BitVec 5) (p : BitVec 4) (s : State) : Result := .next (s.vInt .max 4 d a (.reg b) p)
/-- vmax with a scalar b (R162). -/
def execVmaxVx (d a b : BitVec 5) (p : BitVec 4) (s : State) : Result := .next (s.vInt .max 4 d a (.scalar (s.x b)) p)
/-- vand with a vector b (R162). -/
def execVandVv (d a b : BitVec 5) (p : BitVec 4) (s : State) : Result := .next (s.vInt .and 4 d a (.reg b) p)
/-- vand with a scalar b (R162). -/
def execVandVx (d a b : BitVec 5) (p : BitVec 4) (s : State) : Result := .next (s.vInt .and 4 d a (.scalar (s.x b)) p)
/-- vor with a vector b (R162). -/
def execVorVv (d a b : BitVec 5) (p : BitVec 4) (s : State) : Result := .next (s.vInt .or 4 d a (.reg b) p)
/-- vor with a scalar b (R162). -/
def execVorVx (d a b : BitVec 5) (p : BitVec 4) (s : State) : Result := .next (s.vInt .or 4 d a (.scalar (s.x b)) p)
/-- vxor with a vector b (R162). -/
def execVxorVv (d a b : BitVec 5) (p : BitVec 4) (s : State) : Result := .next (s.vInt .xor 4 d a (.reg b) p)
/-- vxor with a scalar b (R162). -/
def execVxorVx (d a b : BitVec 5) (p : BitVec 4) (s : State) : Result := .next (s.vInt .xor 4 d a (.scalar (s.x b)) p)
/-- vsll with a vector b (R162). -/
def execVsllVv (d a b : BitVec 5) (p : BitVec 4) (s : State) : Result := .next (s.vInt .sll 4 d a (.reg b) p)
/-- vsll with a scalar b (R162). -/
def execVsllVx (d a b : BitVec 5) (p : BitVec 4) (s : State) : Result := .next (s.vInt .sll 4 d a (.scalar (s.x b)) p)
/-- vsrl with a vector b (R162). -/
def execVsrlVv (d a b : BitVec 5) (p : BitVec 4) (s : State) : Result := .next (s.vInt .srl 4 d a (.reg b) p)
/-- vsrl with a scalar b (R162). -/
def execVsrlVx (d a b : BitVec 5) (p : BitVec 4) (s : State) : Result := .next (s.vInt .srl 4 d a (.scalar (s.x b)) p)
/-- vsra with a vector b (R162). -/
def execVsraVv (d a b : BitVec 5) (p : BitVec 4) (s : State) : Result := .next (s.vInt .sra 4 d a (.reg b) p)
/-- vsra with a scalar b (R162). -/
def execVsraVx (d a b : BitVec 5) (p : BitVec 4) (s : State) : Result := .next (s.vInt .sra 4 d a (.scalar (s.x b)) p)
/-- vadds with a vector b (R162). -/
def execVaddsVv (d a b : BitVec 5) (p : BitVec 4) (s : State) : Result := .next (s.vInt .adds 4 d a (.reg b) p)
/-- vadds with a scalar b (R162). -/
def execVaddsVx (d a b : BitVec 5) (p : BitVec 4) (s : State) : Result := .next (s.vInt .adds 4 d a (.scalar (s.x b)) p)
/-- vsubs with a vector b (R162). -/
def execVsubsVv (d a b : BitVec 5) (p : BitVec 4) (s : State) : Result := .next (s.vInt .subs 4 d a (.reg b) p)
/-- vsubs with a scalar b (R162). -/
def execVsubsVx (d a b : BitVec 5) (p : BitVec 4) (s : State) : Result := .next (s.vInt .subs 4 d a (.scalar (s.x b)) p)

/-! ## Widening and narrowing (R164, R165) -/

/-- vwadd with a vector b (R164). -/
def execVwaddVv (d a b : BitVec 5) (p : BitVec 4) (s : State) : Result := .next (s.vWide .add d a (.reg b) p)
/-- vwadd with a scalar b (R164). -/
def execVwaddVx (d a b : BitVec 5) (p : BitVec 4) (s : State) : Result := .next (s.vWide .add d a (.scalar (s.x b)) p)
/-- vwmul with a vector b (R164). -/
def execVwmulVv (d a b : BitVec 5) (p : BitVec 4) (s : State) : Result := .next (s.vWide .mul d a (.reg b) p)
/-- vwmul with a scalar b (R164). -/
def execVwmulVx (d a b : BitVec 5) (p : BitVec 4) (s : State) : Result := .next (s.vWide .mul d a (.scalar (s.x b)) p)
/-- vwmacc with a vector b (R164). -/
def execVwmaccVv (d a b : BitVec 5) (p : BitVec 4) (s : State) : Result := .next (s.vWide .macc d a (.reg b) p)
/-- vwmacc with a scalar b (R164). -/
def execVwmaccVx (d a b : BitVec 5) (p : BitVec 4) (s : State) : Result := .next (s.vWide .macc d a (.scalar (s.x b)) p)
/-- vnclip with a vector b (R165). -/
def execVnclipVv (d a b : BitVec 5) (p : BitVec 4) (s : State) : Result := .next (s.vNclip d a (.reg b) p)
/-- vnclip with a scalar b (R165). -/
def execVnclipVx (d a b : BitVec 5) (p : BitVec 4) (s : State) : Result := .next (s.vNclip d a (.scalar (s.x b)) p)
/-- vsel with a vector b (R169). -/
def execVselVv (d a b : BitVec 5) (p : BitVec 4) (s : State) : Result := .next (s.vSelect d a (.reg b) p)
/-- vsel with a scalar b (R169). -/
def execVselVx (d a b : BitVec 5) (p : BitVec 4) (s : State) : Result := .next (s.vSelect d a (.scalar (s.x b)) p)

/-! ## Float forms (R166, R167) -/

/-- vfadd with a vector b (R166). -/
def execVfaddVv (d a b : BitVec 5) (p : BitVec 4) (s : State) : Result := .next (s.vFloat .add 4 d a (.reg b) p)
/-- vfadd with a scalar b (R166). -/
def execVfaddVx (d a b : BitVec 5) (p : BitVec 4) (s : State) : Result := .next (s.vFloat .add 4 d a (.scalar (s.x b)) p)
/-- vfsub with a vector b (R166). -/
def execVfsubVv (d a b : BitVec 5) (p : BitVec 4) (s : State) : Result := .next (s.vFloat .sub 4 d a (.reg b) p)
/-- vfsub with a scalar b (R166). -/
def execVfsubVx (d a b : BitVec 5) (p : BitVec 4) (s : State) : Result := .next (s.vFloat .sub 4 d a (.scalar (s.x b)) p)
/-- vfmul with a vector b (R166). -/
def execVfmulVv (d a b : BitVec 5) (p : BitVec 4) (s : State) : Result := .next (s.vFloat .mul 4 d a (.reg b) p)
/-- vfmul with a scalar b (R166). -/
def execVfmulVx (d a b : BitVec 5) (p : BitVec 4) (s : State) : Result := .next (s.vFloat .mul 4 d a (.scalar (s.x b)) p)
/-- vfdiv with a vector b (R166). -/
def execVfdivVv (d a b : BitVec 5) (p : BitVec 4) (s : State) : Result := .next (s.vFloat .div 4 d a (.reg b) p)
/-- vfdiv with a scalar b (R166). -/
def execVfdivVx (d a b : BitVec 5) (p : BitVec 4) (s : State) : Result := .next (s.vFloat .div 4 d a (.scalar (s.x b)) p)
/-- vfma with a vector b (R166). -/
def execVfmaVv (d a b : BitVec 5) (p : BitVec 4) (s : State) : Result := .next (s.vFloat .fma 4 d a (.reg b) p)
/-- vfma with a scalar b (R166). -/
def execVfmaVx (d a b : BitVec 5) (p : BitVec 4) (s : State) : Result := .next (s.vFloat .fma 4 d a (.scalar (s.x b)) p)
/-- vfnma with a vector b (R166). -/
def execVfnmaVv (d a b : BitVec 5) (p : BitVec 4) (s : State) : Result := .next (s.vFloat .fnma 4 d a (.reg b) p)
/-- vfnma with a scalar b (R166). -/
def execVfnmaVx (d a b : BitVec 5) (p : BitVec 4) (s : State) : Result := .next (s.vFloat .fnma 4 d a (.scalar (s.x b)) p)
/-- vfmin with a vector b (R166). -/
def execVfminVv (d a b : BitVec 5) (p : BitVec 4) (s : State) : Result := .next (s.vFloat .min 4 d a (.reg b) p)
/-- vfmin with a scalar b (R166). -/
def execVfminVx (d a b : BitVec 5) (p : BitVec 4) (s : State) : Result := .next (s.vFloat .min 4 d a (.scalar (s.x b)) p)
/-- vfmax with a vector b (R166). -/
def execVfmaxVv (d a b : BitVec 5) (p : BitVec 4) (s : State) : Result := .next (s.vFloat .max 4 d a (.reg b) p)
/-- vfmax with a scalar b (R166). -/
def execVfmaxVx (d a b : BitVec 5) (p : BitVec 4) (s : State) : Result := .next (s.vFloat .max 4 d a (.scalar (s.x b)) p)
/-- vfsqrt (R166). -/
def execVfsqrt (d a : BitVec 5) (p : BitVec 4) (s : State) : Result := .next (s.vFloat .sqrt 4 d a (.scalar 0#64) p)
/-- vfrsqrt (R167, R168). -/
def execVfrsqrt (d a : BitVec 5) (p : BitVec 4) (s : State) : Result := .next (s.vSpecial .rsqrt d a p)
/-- vfrcp (R167, R168). -/
def execVfrcp (d a : BitVec 5) (p : BitVec 4) (s : State) : Result := .next (s.vSpecial .rcp d a p)
/-- vfexp2 (R167, R168). -/
def execVfexp2 (d a : BitVec 5) (p : BitVec 4) (s : State) : Result := .next (s.vSpecial .exp2 d a p)
/-- vflog2 (R167, R168). -/
def execVflog2 (d a : BitVec 5) (p : BitVec 4) (s : State) : Result := .next (s.vSpecial .log2 d a p)
/-- vftanh (R167, R168). -/
def execVftanh (d a : BitVec 5) (p : BitVec 4) (s : State) : Result := .next (s.vSpecial .tanh d a p)

/-! ## Compares and mask logic (R170 to R172) -/

/-- vcmp (R170). -/
def execVcmp (d a b : BitVec 5) (k : BitVec 1) (c p : BitVec 4) (s : State) : Result := .next (s.vCompare false d a b k c p)
/-- vfcmp (R170). -/
def execVfcmp (d a b : BitVec 5) (k : BitVec 1) (c p : BitVec 4) (s : State) : Result := .next (s.vCompare true d a b k c p)
/-- mand (R171). -/
def execMand (d a b : BitVec 5) (s : State) : Result := .next (s.vMask .and d a b)
/-- mor (R171). -/
def execMor (d a b : BitVec 5) (s : State) : Result := .next (s.vMask .or d a b)
/-- mxor (R171). -/
def execMxor (d a b : BitVec 5) (s : State) : Result := .next (s.vMask .xor d a b)
/-- mnot (R171). -/
def execMnot (d a : BitVec 5) (s : State) : Result := .next (s.vMask .not d a 0#5)
/-- mpop (R172). -/
def execMpop (d a : BitVec 5) (s : State) : Result :=
  .next (s.vFront (s.maskSource a) d (BitVec.ofNat 64 (popNat (vlLen s.me.ctx.vl) (s.maskBelow a))))
/-- mfirst (R172). -/
def execMfirst (d a : BitVec 5) (s : State) : Result :=
  .next (s.vFront (s.maskSource a) d
    (if s.maskBelow a = 0 then 0xFFFFFFFFFFFFFFFF#64 else BitVec.ofNat 64 (ctzNat (vlLen s.me.ctx.vl) (s.maskBelow a))))

/-! ## Conversions (R173 to R177) -/

/-- vcvt (R173 to R175). -/
def execVcvt (d a t : BitVec 5) (p : BitVec 4) (s : State) : Result :=
  .next (
    let src := vtElem s.vt
    let dst := (elemOf t.toNat).getD .e8m0
    let n := vtN s.vt
    let nd := cvtRegs n src.width dst.width
    s.vIssue (s.capture (.cvt t) d a (.scalar 0#64) p) 4
      (decide (t.toNat ≤ 18) && cvtPair src dst && decide (n * dst.width ≤ 8 * src.width) && groupOk d nd && groupOk a n &&
        (if src.width = dst.width then sameOrDisjoint d a n else disjoint d nd a n) && predOk s.vt p)
      (vBits d nd) (.v d) (cvtDraws src dst))

/-- vcvt.mx (R176). It writes the group at d and the scales at b; ldst names d (02_encoding.md R49; log 62). -/
def execVcvtMx (d a b : BitVec 5) (s : State) : Result :=
  .next (
    let n := vtN s.vt
    let na := n * 32 / vtW s.vt
    s.vIssue (s.capture .cvtMx d a (.reg b) 0#4) 4
      (decide (12 ≤ vtEt s.vt) && decide (vtEt s.vt ≤ 16) && decide (vtBlk s.vt = 32) && decide (na ≤ 8) && groupOk d n && groupOk a na &&
        disjoint d n a na && disjoint d n b 1 && disjoint a na b 1)
      (vBits d n ||| vBits b 1) (.v d) true)

/-- A form of the dense packing (R177). -/
def State.vDense (s : State) (op : VOp) (d a : BitVec 5) : State :=
  s.vIssue (s.capture op d a (.scalar 0#64) 0#4) 4
    ((vtEt s.vt == 14 || vtEt s.vt == 15 || vtEt s.vt == 17) && apartOk s.vt d a (vtN s.vt) (vtN s.vt) (.scalar 0#64) 0#4)
    (vBits d (vtN s.vt)) (.v d) false

/-- vpack (R177). -/
def execVpack (d a : BitVec 5) (s : State) : Result := .next (s.vDense .pack d a)
/-- vunpack (R177). -/
def execVunpack (d a : BitVec 5) (s : State) : Result := .next (s.vDense .unpack d a)

/-! ## Reductions and scans (R178 to R181) -/

/-- vred (R178). -/
def execVred (d a b : BitVec 5) (o : BitVec 3) (p : BitVec 4) (s : State) : Result := .next (s.vReduce false d a b o p)
/-- vfred (R178). -/
def execVfred (d a b : BitVec 5) (o : BitVec 3) (p : BitVec 4) (s : State) : Result := .next (s.vReduce true d a b o p)
/-- vscan of integers (R180). -/
def execVscan (d a b : BitVec 5) (o : BitVec 3) (p : BitVec 4) (s : State) : Result := .next (s.vScan false d a b o p)
/-- vscan of floats (R180). -/
def execVscanFloat (d a b : BitVec 5) (o : BitVec 3) (p : BitVec 4) (s : State) : Result := .next (s.vScan true d a b o p)

/-! ## Permutes (R182 to R184) -/

/-- vslide (R182). -/
def execVslide (d a b : BitVec 5) (p : BitVec 4) (s : State) : Result :=
  .next (s.vIssue (s.capture .slide d a (.scalar (s.x b)) p) 4 (apartOk s.vt d a (vtN s.vt) (vtN s.vt) (.scalar 0#64) p)
    (vBits d (vtN s.vt)) (.v d) false)
/-- vrgather (R182). -/
def execVrgather (d a b : BitVec 5) (p : BitVec 4) (s : State) : Result :=
  .next (s.vIssue (s.capture .gather d a (.reg b) p) 4
    (vtEt s.vt != 16 && apartOk s.vt d a (vtN s.vt) (vtN s.vt) (.reg b) p) (vBits d (vtN s.vt)) (.v d) false)
/-- vcompress (R183). -/
def execVcompress (d a b : BitVec 5) (s : State) : Result :=
  .next (s.vIssue (s.capture .compress d a (.reg b) 0#4) 4
    (s.maskSource b && apartOk s.vt d a (vtN s.vt) (vtN s.vt) (.scalar 0#64) 0#4) (vBits d (vtN s.vt)) (.v d) false)
/-- vid (R182). -/
def execVid (d : BitVec 5) (p : BitVec 4) (s : State) : Result :=
  .next (s.vPlain .iota (fun et => decide (et ≤ 7)) false 4 d d (.scalar 0#64) p)
/-- vbcast (R182). -/
def execVbcast (d a : BitVec 5) (p : BitVec 4) (s : State) : Result :=
  .next (s.vPlain .bcast (fun _ => true) false 4 d d (.scalar (s.x a)) p)
/-- vmvx (R184). -/
def execVmvx (d a b : BitVec 5) (s : State) : Result :=
  .next (s.vFront (groupOk a (vtN s.vt)) d
    (if (s.x b).toNat < vlLen s.me.ctx.vl then
      scalarOf (vtElem s.vt) (elemAt (vtW s.vt) (s.me.ctx.vGroup a.toNat (vtN s.vt)) (s.x b).toNat)
    else 0#64))
/-- vmv.vv (R182). -/
def execVmvv (d a : BitVec 5) (p : BitVec 4) (s : State) : Result :=
  .next (s.vPlain .move (fun _ => true) false 4 d a (.scalar 0#64) p)

/-! ## Vector compact forms (02_encoding.md R48, R49) -/

/-- The register that ldst names. -/
def State.ldstReg (s : State) : BitVec 5 := s.me.ctx.ldst.setWidth 5

/-- A compact form on the v register that ldst names; ILLEGAL where ldst names an x register (02_encoding.md R49). -/
def State.compactV (s : State) (f : BitVec 5 → State) : State :=
  if s.me.ctx.ldst.getLsbD 5 then f s.ldstReg else s.illegal

/-- c.vadd (02_encoding.md R48). -/
def execCVadd (a : BitVec 5) (s : State) : Result :=
  .next (s.compactV fun d => s.vInt .add 2 d d (.reg a) 0#4)
/-- c.vsub (02_encoding.md R48). -/
def execCVsub (a : BitVec 5) (s : State) : Result :=
  .next (s.compactV fun d => s.vInt .sub 2 d d (.reg a) 0#4)
/-- c.vmul (02_encoding.md R48). -/
def execCVmul (a : BitVec 5) (s : State) : Result :=
  .next (s.compactV fun d => s.vInt .mul 2 d d (.reg a) 0#4)
/-- c.vfadd (02_encoding.md R48). -/
def execCVfadd (a : BitVec 5) (s : State) : Result :=
  .next (s.compactV fun d => s.vFloat .add 2 d d (.reg a) 0#4)
/-- c.vfsub (02_encoding.md R48). -/
def execCVfsub (a : BitVec 5) (s : State) : Result :=
  .next (s.compactV fun d => s.vFloat .sub 2 d d (.reg a) 0#4)
/-- c.vfmul (02_encoding.md R48). -/
def execCVfmul (a : BitVec 5) (s : State) : Result :=
  .next (s.compactV fun d => s.vFloat .mul 2 d d (.reg a) 0#4)
/-- c.vfmin (02_encoding.md R48). -/
def execCVfmin (a : BitVec 5) (s : State) : Result :=
  .next (s.compactV fun d => s.vFloat .min 2 d d (.reg a) 0#4)
/-- c.vfmax (02_encoding.md R48). -/
def execCVfmax (a : BitVec 5) (s : State) : Result :=
  .next (s.compactV fun d => s.vFloat .max 2 d d (.reg a) 0#4)
/-- c.vand (02_encoding.md R48). -/
def execCVand (a : BitVec 5) (s : State) : Result :=
  .next (s.compactV fun d => s.vInt .and 2 d d (.reg a) 0#4)
/-- c.vor (02_encoding.md R48). -/
def execCVor (a : BitVec 5) (s : State) : Result :=
  .next (s.compactV fun d => s.vInt .or 2 d d (.reg a) 0#4)
/-- c.vxor (02_encoding.md R48). -/
def execCVxor (a : BitVec 5) (s : State) : Result :=
  .next (s.compactV fun d => s.vInt .xor 2 d d (.reg a) 0#4)
/-- c.vmin (02_encoding.md R48). -/
def execCVmin (a : BitVec 5) (s : State) : Result :=
  .next (s.compactV fun d => s.vInt .min 2 d d (.reg a) 0#4)
/-- c.vmax (02_encoding.md R48). -/
def execCVmax (a : BitVec 5) (s : State) : Result :=
  .next (s.compactV fun d => s.vInt .max 2 d d (.reg a) 0#4)
/-- c.vmacc (02_encoding.md R48). -/
def execCVmacc (a b : BitVec 5) (s : State) : Result :=
  .next (s.compactV fun d => s.vInt .macc 2 d a (.reg b) 0#4)
/-- c.vfma (02_encoding.md R48). -/
def execCVfma (a b : BitVec 5) (s : State) : Result :=
  .next (s.compactV fun d => s.vFloat .fma 2 d a (.reg b) 0#4)

end Sys2Proof.Machine
end

