-- ==== Sys2Proof/Machine/VectorMem.lean ====
section
/-!
DEFINITION. The vector memory instructions, vamo.add and vfence.arrive (10_scratchpad_copy.md R300 to R308, 09_visibility.md R288, R294,
R295), and topk (15_complications.md R417 to R422): what each checks at issue and what it puts into the queue.
-/

namespace Sys2Proof.Machine

/-! ## Shared operations -/

/-- Whether vtype.et is a type of whole bytes, as every form but vld, vst and vst.u needs (10_scratchpad_copy.md R300). -/
def wholeBytes (vt : Word) : Bool := vtEt vt != 16

/-- A load of one group at issue (10_scratchpad_copy.md R301, R308). -/
def State.vLoadForm (s : State) (op : VOp) (extra : Bool) (d : BitVec 5) (b : VSrc) (p : BitVec 4) : State :=
  s.vIssue (s.capture op d 0#5 b p) 4 (extra && groupOk d (vtN s.vt) && b.okApart d (vtN s.vt) (vtN s.vt) && predOk s.vt p)
    (vBits d (vtN s.vt)) (.v d) false

/-- A store or vamo.add at issue: it writes no register, and its index group may be its data group (10_scratchpad_copy.md R301, R306,
R308, 09_visibility.md R294). -/
def State.vStoreForm (s : State) (op : VOp) (extra : Bool) (d : BitVec 5) (b : VSrc) (p : BitVec 4) : State :=
  s.vIssue (s.capture op d 0#5 b p) 4
    (extra && groupOk d (vtN s.vt) &&
      (match b with
        | .reg r => groupOk r (vtN s.vt)
        | .scalar _ => true) && predOk s.vt p) 0#64 .none false

/-! ## Loads -/

/-- vld (10_scratchpad_copy.md R301). -/
def execVld (d a : BitVec 5) (p : BitVec 4) (s : State) : Result :=
  .next (s.vLoadForm (.load .unit (s.x a)) true d (.scalar 0#64) p)
/-- vlds (10_scratchpad_copy.md R301). -/
def execVlds (d a b : BitVec 5) (p : BitVec 4) (s : State) : Result :=
  .next (s.vLoadForm (.load (.strided (s.x b)) (s.x a)) (wholeBytes s.vt) d (.scalar 0#64) p)
/-- vldx (10_scratchpad_copy.md R301, R306). -/
def execVldx (d a b : BitVec 5) (p : BitVec 4) (s : State) : Result :=
  .next (s.vLoadForm (.load (.indexed b) (s.x a)) (wholeBytes s.vt) d (.reg b) p)
/-- vld.chase (10_scratchpad_copy.md R307). -/
def execVldChase (d a b : BitVec 5) (p : BitVec 4) (s : State) : Result :=
  .next (s.vLoadForm (.chase (s.x a) ((s.x b).setWidth 2)) (wholeBytes s.vt) d (.scalar 0#64) p)

/-- vldseg (10_scratchpad_copy.md R305); `g` is the function, 8 + n. -/
def execVldseg (d a b : BitVec 5) (g : BitVec 6) (p : BitVec 4) (s : State) : Result :=
  .next (
    let n := vtN s.vt
    let f := g.toNat - 8
    s.vIssue (s.capture (.loadSeg f (s.x a)) d 0#5 (.reg b) p) 4
      (decide (2 ≤ f) && decide (f ≤ 8) && wholeBytes s.vt && decide (f * n ≤ 8) && d.toNat % n == 0 && decide (d.toNat + f * n ≤ 32) &&
        groupOk b n && disjoint d (f * n) b n && predOk s.vt p)
      (vBits d (f * n)) (.v d) false)

/-! ## Stores and atomics -/

/-- vst (10_scratchpad_copy.md R301, 09_visibility.md R277). -/
def execVst (d a : BitVec 5) (p : BitVec 4) (s : State) : Result :=
  .next (s.vStoreForm (.store .unit (s.x a) true) true d (.scalar 0#64) p)
/-- vst.u (10_scratchpad_copy.md R301, 09_visibility.md R278). -/
def execVstU (d a : BitVec 5) (p : BitVec 4) (s : State) : Result :=
  .next (s.vStoreForm (.store .unit (s.x a) false) true d (.scalar 0#64) p)
/-- vsts (10_scratchpad_copy.md R301). -/
def execVsts (d a b : BitVec 5) (p : BitVec 4) (s : State) : Result :=
  .next (s.vStoreForm (.store (.strided (s.x b)) (s.x a) true) (wholeBytes s.vt) d (.scalar 0#64) p)
/-- vstx (10_scratchpad_copy.md R301, R306). -/
def execVstx (d a b : BitVec 5) (p : BitVec 4) (s : State) : Result :=
  .next (s.vStoreForm (.store (.indexed b) (s.x a) true) (wholeBytes s.vt) d (.reg b) p)
/-- vstx.u (10_scratchpad_copy.md R301, 09_visibility.md R278). -/
def execVstxU (d a b : BitVec 5) (p : BitVec 4) (s : State) : Result :=
  .next (s.vStoreForm (.store (.indexed b) (s.x a) false) (wholeBytes s.vt) d (.reg b) p)
/-- vamo.add (09_visibility.md R294, R295). -/
def execVamoAdd (d a b : BitVec 5) (p : BitVec 4) (s : State) : Result :=
  .next (s.vStoreForm (.atomicAdd (s.x a))
    (vtEt s.vt == 2 || vtEt s.vt == 3 || vtEt s.vt == 6 || vtEt s.vt == 7) d (.reg b) p)

/-! ## The fence and the sorter -/

/-- The amount of a token operation: x[b], or 1 where b is 0 (09_visibility.md R288, 08_tokens.md R256). -/
def State.amount (s : State) (b : BitVec 5) : Word := if b = 0#5 then 1#64 else s.x b

/-- vfence.arrive (09_visibility.md R288); no shape and no voff stops it. At U a hardware resource cell traps PRIVILEGE (01_machine.md R27,
08_tokens.md R253). -/
def execVfenceArrive (d a b : BitVec 5) (sc : BitVec 3) (s : State) : Result :=
  .next (
    if !s.sup && isResource (s.x a) then s.privilege
    else s.vMark (s.capture (.fenceArrive (s.x a) (s.amount b) (s.x d) sc) d 0#5 (.reg 0#5) 0#4) 4)

/-- The score types of topk (15_complications.md R417). -/
def topkEt (et : Nat) : Bool := et == 2 || et == 9 || et == 10 || et == 11 || et == 13

/-- topk (15_complications.md R417 to R422). -/
def execTopk (d a b : BitVec 5) (k : BitVec 2) (s : State) : Result :=
  .next (s.vIssue (s.capture (.topk (s.x b) k) d a (.scalar 0#64) 0#4) 4
    (topkEt (vtEt s.vt) && decide (vlLen s.me.ctx.vl ≤ 4096) && groupOk a (vtN s.vt) && d.toNat % 2 == 0 && disjoint d 2 a (vtN s.vt))
    (vBits d 2 ||| shBit k) (.v d) false)

end Sys2Proof.Machine
end

