-- ==== Sys2Proof/Machine/CopyInstr.lean ====
section
/-!
DEFINITION. cp.tile, cp.stream, cp.gather, cp.resume, cp.cancel and cp.status (10_scratchpad_copy.md R318 to R325).
-/

namespace Sys2Proof.Machine

/-! ## Descriptors (R318) -/

/-- A descriptor of `n` doublewords at x[a] read at issue as scalar loads, aligned to its size `align` (R318). -/
def State.withDescriptor (s : State) (a : BitVec 5) (align n : Nat) (k : State → List Word → State) : State :=
  let va := s.x a
  if va.toNat % align ≠ 0 then s.takeFault .misaligned va false s.pc
  else
    match s.loadDws va n with
    | (s1, .error (f, at_)) => s1.takeFault f at_ false s1.pc
    | (s1, .ok d) => k s1 d

/-- A failed command (R318). -/
def State.badArg (s : State) (d : BitVec 5) : State := s.write d (failWord 6)

/-- The breaches of R320 in the fields that every copy command shares, for a barrier and a number of chunks. -/
def badCommon (control barrier : Word) (chunks : Nat) : Bool :=
  decide (5 < bits control 63 61) || (control.getLsbD 59 && barrier == 0#64) || (barrier != 0#64 && hKind barrier != 0#2) ||
    (control.getLsbD 55 && (decide (8 < bits control 51 48) || decide (8 < bits control 47 44) ||
      decide (2048 < bits control 43 33 + chunks * 2 ^ bits control 47 44)))

/-- The number of chunks of a byte count under a control word. -/
def chunkCount (control : Word) (total : Nat) : Nat := (total + 256 * 2 ^ bits control 51 48 - 1) / (256 * 2 ^ bits control 51 48)

/-! ## cp.tile (R319, R320) -/

/-- The lowest and the highest byte of a box in one of its spaces. -/
def boxBounds (base : Word) (strides : Word) (d : List Word) : Int × Int :=
  let span (k : Nat) : Int := ((boxLen d k : Int) - 1) * strideOf strides k
  let b : Int := (base.toNat : Int)
  (b + min 0 (span 1) + min 0 (span 2), b + boxLen d 0 - 1 + max 0 (span 1) + max 0 (span 2))

/-- Whether a box lies outside its space: the scratchpad, or the grant offsets that name rows (R320). -/
def boxOutside (space : Nat) (base strides : Word) (d : List Word) : Bool :=
  let b := boxBounds base strides d
  match space with
  | 0 => false
  | 1 => decide (b.1 < 0) || decide (0xFFFFF < b.2)
  | _ => decide (b.1 < 0) || decide (0x3FFFF < b.2)

/-- Whether a dimension's length or strides breach R320. -/
def badDim (d : List Word) (dims k : Nat) : Bool :=
  boxLen d k == 0 || (decide (dims < k) && (boxLen d k != 1 || strideOf (d.getD 5 0#64) k != 0 || strideOf (d.getD 6 0#64) k != 0))

/-- Whether a chase claim breaches R299. -/
def badChase (control : Word) (d : List Word) : Bool :=
  control.getLsbD 58 && (bits control 29 28 != 1 || bits control 27 26 != 0 || (d.getD 3 0#64).toNat % 256 != 0)

/-- Whether a cp.tile descriptor fails with BADARG (R320). -/
def badTile (d : List Word) : Bool :=
  let c := d.getD 0 0#64
  let total := boxLen d 0 * boxLen d 1 * boxLen d 2
  c.getLsbD 32 || bits c 25 0 != 0 || d.getD 7 0#64 != 0#64 || bits c 31 30 == 3 || bits c 29 28 == 3 || bits c 27 26 == 3 ||
    boxLen d 0 == 0 || badDim d (bits c 27 26) 1 || badDim d (bits c 27 26) 2 || decide (2 ^ 32 < total) ||
    badCommon c (d.getD 1 0#64) (chunkCount c total) ||
    boxOutside (bits c 31 30) (d.getD 2 0#64) (d.getD 5 0#64) d || boxOutside (bits c 29 28) (d.getD 3 0#64) (d.getD 6 0#64) d ||
    badChase c d

/-- Whether the chase slot that a control word claims is still claimed (R299). -/
def Core.chaseBusy (k : Core) (c : CopyCmd) : Bool :=
  match c.chase? with
  | none => false
  | some n => k.copies.any fun e => e.chase? == some n

/-- cp.tile (R319, R320). -/
def execCpTile (d a : BitVec 5) (s : State) : Result :=
  .next (s.withDescriptor a 64 8 fun s1 w =>
    let control := w.getD 0 0#64
    if badTile w then s1.badArg d
    else
      match (tilesReached control w).find? fun k => decide (s1.issueCount ≤ k) with
      | some k => s1.trapHere 0x0B#8 (BitVec.ofNat 64 k) false
      | none =>
        let c := { s1.newCopy .tile control w with units := s1.me.grant }
        if s1.me.chaseBusy c then s1.write d (failWord 5) else s1.submit d c)

/-! ## cp.stream (R321, R322) -/

/-- Whether a cp.stream descriptor fails with BADARG (R321, R322). -/
def badStream (c : CopyCmd) : Bool :=
  let w := c.control
  decide (5 < bits w 63 61) || bits w 54 48 != 0 || bits w 19 0 != 0 || decide (4 < c.inputs) || decide (2 < c.outputs) ||
    (c.inputs == 0 && c.outputs == 0) || c.slen == 0 || decide (16384 < c.slen) || c.avl == 0 || decide (2 ^ 40 < c.avl) ||
    (c.dw 4).toNat % 4096 != 0 || decide ((c.dw 4).toNat < 0x10000) || decide (0x100000 < (c.dw 4).toNat + c.ringBytes) ||
    (c.inputs == 0) != (c.dw 2 == 0#64) || (c.outputs == 0) != (c.dw 3 == 0#64) || hKind (c.dw 2) != 0#2 || hKind (c.dw 3) != 0#2 ||
    (List.range 5).any fun i => c.dw (11 + i) != 0#64

/-- cp.stream (R321, R322). -/
def execCpStream (d a : BitVec 5) (s : State) : Result :=
  .next (s.withDescriptor a 128 16 fun s1 w =>
    let c := s1.newCopy .stream (w.getD 0 0#64) w
    if badStream c then s1.badArg d
    else if s1.me.copies.any fun e => e.kind == .stream && e.sameIssuer c then s1.write d (failWord 5)
    else s1.submit d c)

/-! ## cp.gather (R323) -/

/-- Whether a cp.gather descriptor fails with BADARG (R323). -/
def badGather (w : List Word) (m : BitVec 3) (n : Nat) : Bool :=
  let c := w.getD 0 0#64
  let total := n * 2 ^ bits c 25 24
  c.getLsbD 58 || c.getLsbD 32 || bits c 31 30 != 0 || decide (1 < bits c 29 28) || bits c 27 26 != 0 || bits c 23 0 != 0 ||
    badCommon c (w.getD 1 0#64) (chunkCount c total) || (c.getLsbD 55 && c.extractLsb' 52 3 == m) ||
    (bits c 29 28 == 1 && decide (0x100000 < (w.getD 3 0#64).toNat + total)) || (List.range 4).any fun i => w.getD (4 + i) 0#64 != 0#64

/-- A cp.gather accepted: its marker enters the vector queue (R323). -/
def State.submitGather (s : State) (d b : BitVec 5) (m : BitVec 3) (c : CopyCmd) : State :=
  match s.me.freeEntry with
  | none => s.queueFull
  | some e =>
    if c.expects ∧ s.outqFull then s
    else
      let dirty : Word := 1#64 <<< (32 + m.toNat)
      match s.claimDirty (dirty ||| c.maskDirty) with
      | (s1, false) => s1
      | (s1, true) =>
        match s1.accept e c with
        | (s2, c1) =>
          let s3 := s2.putX d (c1.id s.me.id)
          (s3.enqueue (s3.capture (.gatherMarker e c1.seq) (m.zeroExtend 5) 0#5 (.reg b) 0#4) 4 dirty (.x d) false).sendExpect c1

/-- cp.gather (R323). -/
def execCpGather (d a b : BitVec 5) (c : BitVec 3) (s : State) : Result :=
  .next (
    let vt := s.me.ctx.vtype
    let n := vlReal s.me.ctx.vl
    if s.me.ctx.status.getLsbD 8 then s.vectorOff
    else if !(shapeOk s.me.ctx.vl vt) || b.toNat % vtN vt != 0 || (vtEt vt != 6 && vtEt vt != 7) || decide (2048 < vlLen s.me.ctx.vl) then
      s.illegal
    else s.withDescriptor a 64 8 fun s1 w =>
      if badGather w c n then s1.badArg d
      else s1.submitGather d b c { s1.newCopy .gather (w.getD 0 0#64) w with state := .marker, index := List.replicate n 0 })

/-! ## Control of a command (R324, R325) -/

/-- What a command id names (R311, R324). -/
inductive Named where
  | refused
  | gone
  | held (c : CopyCmd)
  deriving DecidableEq, Repr

/-- The command that an id names for the running coroutine: U reaches those of its crew on its own core, S every one (R311, R324). -/
def State.named (s : State) (id : Word) : Named :=
  if bits id 63 42 ≠ 0 ∨ id.extractLsb' 32 10 ≠ s.me.id then .refused
  else
    match s.me.copy? (id.extractLsb' 29 3) with
    | none => .gone
    | some c =>
      if id.extractLsb' 0 29 ≠ 0x1FFFFFFF#29 ∧ id.extractLsb' 0 29 ≠ c.seq then .gone
      else if !s.sup && c.crew != s.crew then .refused
      else .held c

/-- The state code of Table 10.11; a gather whose marker has not committed is queued. -/
def CopyState.code : CopyState → Nat
  | .marker => 1
  | .queued => 1
  | .running => 2
  | .waiting => 3
  | .stopped => 4

/-- The copy status word (Table 10.11). -/
def CopyCmd.statusWord (c : CopyCmd) : Word :=
  let st := c.state.code
  BitVec.ofNat 64 (st * 2 ^ 60 + (if 3 ≤ st then c.cause.toNat else 0) * 2 ^ 52 + c.lastChan.toNat * 2 ^ 48 + c.slot.toNat * 2 ^ 32 +
    c.done % 2 ^ 32)

/-- cp.status (R324). -/
def execCpStatus (d a : BitVec 5) (s : State) : Result :=
  .next (match s.named (s.x a) with
    | .refused => s.badArg d
    | .gone => s.write d 0#64
    | .held c => s.write d c.statusWord)

/-- cp.resume (R325): the command is queued like any other, which the spec does not say of one that R316 restarts first (log 75). -/
def execCpResume (d a : BitVec 5) (s : State) : Result :=
  .next (match s.named (s.x a) with
    | .refused => s.badArg d
    | .gone => s.write d (failWord 5)
    | .held c =>
      if c.state = .stopped then { s with me := s.me.setCopy { c with state := .queued, cause := 0#8, fetched := [] } }.write d 0#64
      else s.write d (failWord 5))

/-- cp.cancel (R325). -/
def execCpCancel (d a : BitVec 5) (s : State) : Result :=
  .next (match s.named (s.x a) with
    | .refused => s.badArg d
    | .gone => s.write d (failWord 5)
    | .held c => (s.cancelCopy s.me.id c).write d (BitVec.ofNat 64 c.sent))

end Sys2Proof.Machine
end

