-- ==== Sys2Proof/Machine/TokenInstr.lean ====
section
/-!
DEFINITION. The token instructions but send (08_tokens.md R253 to R259, R261).
-/

namespace Sys2Proof.Machine

/-! ## Posted forms (R254, R256, R258) -/

/-- Whether the front end must wait before it posts an operation: the outgoing queue is full (R240). A home on another device
without a route is refused when the operation is sent (16_pod.md R435). -/
def State.postStalls (s : State) : Bool := s.outqFull

/-- A posted form: PRIVILEGE at U for a hardware resource cell (R27, R253), a wait while the outgoing queue is full, then the release
where the form is one, and the operation (R240, R244), which is sent as the instruction completes. -/
def State.posted (s : State) (code : BitVec 8) (d a : BitVec 5) (operand : Word) (scope : Option (BitVec 3)) : State :=
  let h := s.x a
  if !s.sup && isResource h then s.privilege
  else if s.postStalls then s
  else
    match scope with
    | none => (s.adv 4).postOp (s.opOf code h operand 0#3 (s.x d) (d == 0#5))
    | some sc =>
      let sc := maxScope sc (s.reach s.me.id h)
      ((s.adv 4).release sc).postOp (s.opOf code h operand sc (s.x d) (d == 0#5))

/-- tkarrive (R256). -/
def execTkarrive (d a b : BitVec 5) (sc : BitVec 3) (s : State) : Result := .next (s.posted 1#8 d a (s.amount b) (some sc))
/-- tkexpect (R256). -/
def execTkexpect (d a b : BitVec 5) (s : State) : Result := .next (s.posted 2#8 d a (s.x b) none)
/-- tksig (R256). -/
def execTksig (d a b : BitVec 5) (sc : BitVec 3) (s : State) : Result := .next (s.posted 3#8 d a (s.amount b) (some sc))
/-- fut.set (R258). -/
def execFutSet (d a b : BitVec 5) (sc : BitVec 3) (s : State) : Result := .next (s.posted 5#8 d a (s.x b) (some sc))

/-! ## tkinit (R255) -/

/-- Whether an init word is bad for a kind (R255). -/
def badInit (kind : BitVec 2) (w : Word) : Bool :=
  match kind.toNat with
  | 0 => bits w 63 20 != 0 || bits w 19 0 == 0
  | 1 => false
  | 2 => w != 0#64
  | _ =>
    let size := 16 * 2 ^ bits w 51 48
    bits w 63 60 != 0 || bits w 47 1 != 0 || decide (bits w 59 52 < 16) || decide (bits w 51 48 < 1) || decide (12 < bits w 51 48) ||
      decide (bits w 59 52 * 4096 % max size 4096 ≠ 0) || decide (2 ^ 20 < bits w 59 52 * 4096 + size)

/-- The lower doubleword that an init word gives a cell (R255). -/
def initLower (kind : BitVec 2) (w : Word) : Word :=
  match kind.toNat with
  | 0 => BitVec.ofNat 64 (bits w 19 0 * 2 ^ 20 + bits w 19 0)
  | 1 => w
  | 2 => 0#64
  | _ => w &&& 0x0FFF000000000000#64

/-- The low bits of the upper doubleword that an init word gives a cell: a mailbox's notify (R255). -/
def initUpper (kind : BitVec 2) (w : Word) : Word := if kind = 3#2 then w &&& 1#64 else 0#64

/-- tkinit (R255); a home whose movement is in M3 refuses it as STALE (17_host_security_power.md Table 17.5). -/
def execTkinit (d a b : BitVec 5) (s : State) : Result :=
  .next (
    let h := s.x a
    if isResource h then (if s.sup then s.write d (failWord 6) else s.privilege)
    else if !s.eligible s.crew (hCore h) || (!s.sup && decide ((hIndex h).toNat < 256)) then s.write d (failWord 1)
    else if decide (4096 ≤ (hIndex h).toNat) || badInit (hKind h) (s.x b) then s.write d (failWord 6)
    else if s.poweredOff (hCore h) then s.write d (failWord 9)
    else if s.heldByReplay s.crew h || s.behindPosted (mkHandle s.devNo (hCore h) 0#2 0#26 0#16) then s
    else
      match s.initCell (hCore h) (hIndex h) (hKind h) (initLower (hKind h) (s.x b)) (initUpper (hKind h) (s.x b)) with
      | (s1, new) => s1.write d new)

/-! ## tkread and tkpoll (R257) -/

/-- tkread of a cell of another device: its doubleword, WINDOW_CLOSED where it is refused, TOKEN_STALE where its home finds it stale
(16_pod.md R435, R439; log 15). -/
def State.remoteRead (s : State) (d : BitVec 5) (h : Word) (e : BitVec 1) : State :=
  s.askCell .read h (e.zeroExtend 64) (fun s1 v => (s1.acquire 4#3).write d v) (fun s1 => s1.trapHere 0x0A#8 h false)
    (fun s1 => s1.tokenStale h)

/-- A fut.get or recv that is to wait: its destination is named as it issues, and the resume point is past it (02_encoding.md R49, 07_coroutines.md
R491). -/
def State.issuedTo (s : State) (d : BitVec 5) : State := (s.updCtx fun c => { c with ldst := 0#1 ++ d }).adv 4

/-- fut.get of a future of another device: its value where it is full, which its home decides, else a wait (R258, 07_coroutines.md R491;
log 15). -/
def State.remoteGet (s : State) (d b : BitVec 5) (h : Word) : State :=
  s.askCell .value h 0#64
    (fun s1 v =>
      let s2 := { s1 with fresh := s1.fresh + 1 }
      if (Config.freeWord s1.fresh).getLsbD 0 then (s2.acquire 4#3).write d v
      else (s2.issuedTo d).waitVoluntary (s2.x b) h 0#64 (.futGet d))
    (fun s1 => s1.trapHere 0x0A#8 h false) (fun s1 => s1.tokenStale h)

/-- tkread (R257). -/
def execTkread (d a : BitVec 5) (e : BitVec 1) (s : State) : Result :=
  .next (
    let h := s.x a
    if hDev h ≠ s.devNo then s.remoteRead d h e
    else if s.heldByReplay s.crew h || s.behindPosted h then s
    else if s.stale s.crew h then s.tokenStale h
    else
      let c := s.cellOf (hCore h) (hIndex h)
      (s.acquire (s.acquireScope s.me.id h)).write d (if e = 1#1 then c.upper else c.lower))

/-- tkpoll (R257). -/
def execTkpoll (d a b : BitVec 5) (s : State) : Result :=
  .next (
    let h := s.x a
    if hDev h ≠ s.devNo then
      s.askCell .poll h (phaseFor h (s.x b))
        (fun s1 v => if v.getLsbD 0 then (s1.acquire 4#3).write d 1#64 else s1.write d 0#64)
        (fun s1 => s1.write d (failWord 10)) (fun s1 => s1.write d (failWord 9))
    else if s.heldByReplay s.crew h || s.behindPosted h then s
    else if s.stale s.crew h then s.write d (failWord 9)
    else if s.cellCondition h (phaseFor h (s.x b)) then (s.acquire (s.acquireScope s.me.id h)).write d 1#64
    else s.write d 0#64)

/-! ## fut.get, recv and post (R258, R259, R261) -/

/-- fut.get (R258, R491). -/
def execFutGet (d a b : BitVec 5) (s : State) : Result :=
  .next (
    let h := s.x a
    if hKind h ≠ 2#2 then s.tokenStale h
    else if hDev h ≠ s.devNo then s.remoteGet d b h
    else if s.heldByReplay s.crew h || s.behindPosted h then s
    else if s.stale s.crew h then s.tokenStale h
    else if s.cellCondition h 0#64 then (s.getFuture h d).adv 4
    else (s.issuedTo d).waitVoluntary (s.x b) h 0#64 (.futGet d))

/-- Whether a mailbox handle's home is the core that executes (R259, R261). -/
def State.homeHere (s : State) (h : Word) : Bool := hDev h == s.devNo && hCore h == s.me.id

/-- recv (R261, R491); a handle of another home gives BADARG before one of another kind traps TOKEN_STALE, which the spec does not order (log
73). -/
def execRecv (d a b : BitVec 5) (s : State) : Result :=
  .next (
    let h := s.x a
    if !s.homeHere h then s.write d (failWord 6)
    else if hKind h ≠ 3#2 then s.tokenStale h
    else if s.heldByReplay s.crew h || s.behindPosted h then s
    else if s.stale s.crew h then s.tokenStale h
    else if s.cellCondition h 0#64 then (s.receive h d).adv 4
    else (s.issuedTo d).waitVoluntary (s.x b) h 0#64 (.recv d))

/-- A mailbox's buffer posted in the slot after those posted before it (R250, R259). -/
def State.postBuffer (s : State) (h buffer : Word) : State :=
  let c := s.cellOf (hCore h) (hIndex h)
  let pos := c.tail.toNat + c.posted.toNat
  let s1 := s.physWrite (slotAddr (hCore h) c pos) 16 buffer.toNat
  (s1.putCell (hCore h) (hIndex h) { c with lower := setBits c.lower 47 32 (c.posted.toNat + 1) }).cellChanged (hCore h) (hIndex h)

/-- post (R259). -/
def execPost (d a b : BitVec 5) (s : State) : Result :=
  .next (
    let h := s.x a
    let c := s.cellOf (hCore h) (hIndex h)
    if !s.homeHere h || bits (s.x b) 7 0 == 0 then s.write d (failWord 6)
    else if hKind h ≠ 3#2 then s.write d (failWord 0x20)
    else if s.heldByReplay s.crew h || s.behindPosted h then s
    else if s.stale s.crew h then s.write d (failWord 9)
    else if (c.tail - c.head).toNat + c.posted.toNat = 2 ^ c.lsize then s.write d (failWord 2)
    else (s.postBuffer h (s.x b)).write d 0#64)

end Sys2Proof.Machine
end

