-- ==== Sys2Proof/Machine/Mailbox.lean ====
section
/-!
DEFINITION. send and the mailbox's own steps (08_tokens.md R250 to R252, R260), the delivery of arena fault records
(13_address_space.md R388), and the replay of a signal log (08_tokens.md R249).
-/

namespace Sys2Proof.Machine

/-! ## Reservations and deliveries (R260) -/

/-- What a reservation at a mailbox's home finds. -/
inductive Reserved where
  | stale
  | none
  | short
  | ok (pos : Nat) (buffer : Word)
  deriving DecidableEq, Repr

/-- A buffer reserved for a message of `len` bytes of a crew (R260). -/
def State.reserve (s : State) (crew : BitVec 7) (h : Word) (len : Nat) : State × Reserved :=
  if s.stale crew h then (s, .stale)
  else
    let c := s.cellOf (hCore h) (hIndex h)
    let buffer : Word := BitVec.ofNat 64 (s.physRead (slotAddr (hCore h) c c.tail.toNat) 8)
    if c.posted = 0#16 then (s, .none)
    else if 256 * bits buffer 7 0 < len then (s, .short)
    else
      let lower := setBits (setBits c.lower 31 16 (c.tail.toNat + 1)) 47 32 (c.posted.toNat - 1)
      ((s.putCell (hCore h) (hIndex h) { c with lower := lower }).cellChanged (hCore h) (hIndex h), .ok c.tail.toNat (buffer &&& ~~~0xFF#64))

/-- Doubleword 1 of a delivered slot (Table 8.8). -/
def slotWord (scope : BitVec 3) (dev core : BitVec 10) (crew : BitVec 7) (len : Nat) : Word :=
  1#1 ++ scope ++ dev ++ core ++ crew ++ 0#9 ++ BitVec.ofNat 24 len

/-- The crew of a slot word. -/
def slotCrew (w : Word) : BitVec 7 := w.extractLsb' 33 7

/-- The notify add of a delivery: 1 added to the count cell after the mailbox; a cell that is no count cell, and an index past the token
region, drop it (R229, R251). It merges no release scope into the count's, of which the spec says nothing (log 77). -/
def State.notifyAdd (s : State) (h : Word) : State :=
  let c := s.cellOf (hCore h) (hIndex h)
  let n := s.cellOf (hCore h) (hIndex h + 1#16)
  if c.notify ∧ (hIndex h).toNat + 1 < 4096 ∧ n.kind = 1#2 then
    (s.putCell (hCore h) (hIndex h + 1#16) (n.apply 8 1#64 0#3).1).cellChanged (hCore h) (hIndex h + 1#16)
  else s

/-- fut.set of a completion future by a mailbox's home; handle 0 names none. -/
def State.setCompletion (s : State) (home : BitVec 10) (crew : BitVec 7) (future value : Word) : State :=
  if future = 0#64 then s
  else s.launchOp
    { code := 5#8, handle := future, operand := value, scope := s.reach home future, reply := 0#64, toStatus := false, crew := crew,
      isUser := crew != 0#7, srcDev := s.devNo, srcCore := home, srcSlot := 0#8 }

/-- A message delivered: doubleword 1 of its slot written, the notify add applied, and the completion future signalled (R251, R260). A
mailbox that tkinit has renewed takes no message; its sender's future is told STALE. -/
def State.deliverMessage (s : State) (h : Word) (pos : Nat) (word future : Word) : State :=
  if s.stale 0#7 h then s.setCompletion (hCore h) (slotCrew word) future (failWord 9)
  else
    let c := s.cellOf (hCore h) (hIndex h)
    let s1 := (s.physWrite (slotAddr (hCore h) c pos + 8) 8 word.toNat).cellChanged (hCore h) (hIndex h)
    (s1.notifyAdd h).setCompletion (hCore h) (slotCrew word) future 0#64

/-- The crew whose space a mailbox's buffers lie in: crew 0 for its own cells, else the crew bound to the home core (log 22). -/
def State.mailboxCrew (s : State) (h : Word) : BitVec 7 := if (hIndex h).toNat < 256 then 0#7 else (s.coreAt (hCore h)).bound

/-- The answer to a reservation of another device: the ring position and the buffer, or what its send is told (log 22). -/
def State.answerReserve (s : State) (h : Word) (dev : BitVec 10) (value buffer : Word) : State :=
  { s with podOut := s.podOut ++ [⟨.reserve, 0#7, dev, h, 0#9, value, buffer, s.noOp h, 0#2048⟩] }

/-- The send of another device for a mailbox of a crew, as the home sees it: its operand is the message's length (log 22). -/
def awaySend (h : Word) (crew : BitVec 7) (dev core : BitVec 10) (slot : BitVec 8) (len future : Word) : TokenOp :=
  ⟨6#8, h, len, 4#3, future, false, crew, crew != 0#7, dev, core, slot⟩

/-- The answer to a reservation that was logged: its send writes 1 to x[d] (R252; log 22). -/
def loggedWord : Word := 0x4000000000000000#64

/-- A reservation of another device made at its home, or told why not. -/
def State.reserveNow (s : State) (op : TokenOp) : State :=
  match s.reserve op.crew op.handle (bits op.operand 23 0) with
  | (s1, .stale) => s1.answerReserve op.handle op.srcDev (failWord 9) 0#64
  | (s1, .none) => s1.answerReserve op.handle op.srcDev (failWord 0x23) 0#64
  | (s1, .short) => s1.answerReserve op.handle op.srcDev (failWord 6) 0#64
  | (s1, .ok pos buffer) => s1.answerReserve op.handle op.srcDev (BitVec.ofNat 64 pos) buffer

/-- A send of another device at its home (R246, R252, 16_pod.md R441): dropped where its crew has faulted, logged where its crew is not
bound there or the core is replay-pending, else its buffer reserved. -/
def State.reserveFor (s : State) (op : TokenOp) : State :=
  if s.dropsOp op then s
  else
    match s.logs op with
    | some r => (s.logOp r op).answerReserve op.handle op.srcDev loggedWord 0#64
    | none => s.reserveNow op

/-! ## send (R260) -/

/-- The copy command of a send whose buffer is reserved. -/
def State.messageCopy (s : State) (h : Word) (block : List Word) (pos : Nat) (buffer : Word) : CopyCmd :=
  let sc := s.reach s.me.id h
  let crew := s.mailboxCrew h
  let len := bits (block.getD 1 0#64) 23 0
  s.newCopy .send (sc.zeroExtend 64 <<< 61)
    [block.getD 0 0#64, block.getD 1 0#64, block.getD 2 0#64, 0#64, h, BitVec.ofNat 64 pos, buffer, s.crewSpace crew, crew.zeroExtend 64,
      slotWord sc s.devNo s.me.id s.crew len]

/-- The command of a reserved send accepted, with 0 in x[d]. -/
def State.sendAccepted (s : State) (d : BitVec 5) (e : BitVec 3) (c : CopyCmd) : State := (s.accept e c).1.write d 0#64

/-- send to a mailbox of another device (16_pod.md R439; log 15). -/
def State.sendRemote (s : State) (d : BitVec 5) (e : BitVec 3) (h : Word) (block : List Word) : State :=
  if s.remoteWaits (hDev h) then s
  else
    match s.askRemote { s.tokenReq .reserve h (block.getD 1 0#64) with expected := block.getD 2 0#64 } with
    | (s1, .refused) => s1.write d (failWord 0x0A)
    | (s1, .failed _) => s1.write d (failWord 9)
    | (s1, .done v) =>
      match bits v 1 0 with
      | 0 => s1.sendAccepted d e (s1.messageCopy h block 0 0#64)
      | 1 => s1.write d 1#64
      | 2 => s1.badArg d
      | _ => s1.suspendOn h bufferPhase

/-- send to a mailbox of this device. -/
def State.sendLocal (s : State) (d : BitVec 5) (e : BitVec 3) (h at_ : Word) (block : List Word) : State :=
  let op := s.opOf 6#8 h at_ (s.reach s.me.id h) (block.getD 2 0#64) false
  if s.behindPosted h then s
  else match s.logs op with
  | some r => (s.write d 1#64).logOp r op
  | none =>
    match s.reserve s.crew h (bits (block.getD 1 0#64) 23 0) with
    | (s1, .stale) => s1.write d (failWord 9)
    | (s1, .none) => s1.suspendOn h bufferPhase
    | (s1, .short) => s1.badArg d
    | (s1, .ok pos buffer) => s1.sendAccepted d e (s1.messageCopy h block pos buffer)

/-- send (R260). -/
def execSend (d a b : BitVec 5) (s : State) : Result :=
  .next (
    let h := s.x a
    if !s.sup && isResource h then s.privilege
    else s.withDescriptor b 32 4 fun s1 block =>
      if bits (block.getD 1 0#64) 63 24 ≠ 0 ∨ block.getD 3 0#64 ≠ 0#64 then s1.badArg d
      else if hKind h ≠ 3#2 then s1.write d (failWord 0x20)
      else
        match s1.me.freeEntry with
        | none => s1.queueFull
        | some e =>
          let s2 := s1.release (s1.reach s1.me.id h)
          if hDev h ≠ s2.devNo then s2.sendRemote d e h block else s2.sendLocal d e h (s.x b) block)

/-! ## The mailbox's steps (R252, R260) -/

/-- MAILBOX_RESERVATION (R260, 16_pod.md R441): a reservation from another device, checked at the ingress and made at the home. -/
def execMailboxReservation (handle : Word) (len : BitVec 24) (crew : BitVec 7) (issuer : BitVec 20) (s : State) : Result :=
  let dev := issuer.extractLsb' 10 10
  .next (match s.tokenWindow (hCore handle) crew dev with
    | none => s.answerReserve handle dev (failWord 0x0A) 0#64
    | some w => s.reserveFor (awaySend handle w.owner dev (issuer.setWidth 10) 0#8 (len.zeroExtend 64) 0#64))

/-- MAILBOX_DELIVERY (R260). -/
def execMailboxDelivery (handle : Word) (pos : BitVec 16) (word reply : Word) (s : State) : Result :=
  .next (s.deliverMessage handle pos.toNat word reply)

/-! ## Arena fault records (13_address_space.md R388) -/

/-- The doublewords of an arena fault record (13_address_space.md Table 13.7). -/
def FaultEntry.recordDws (e : FaultEntry) : List Word :=
  [e.addr, e.token, e.command.getD (e.coid.zeroExtend 64),
   BitVec.ofNat 64 (0x500 + e.die.toNat * 16 + (if e.command.isSome then 2 else 0) + (if e.store then 1 else 0)),
   (e.arena.getD 0#4).zeroExtend 64, 0#64, 0#64, 0#64]

/-- The user crew whose space a fault entry's address lies in. -/
def FaultEntry.crewRow (e : FaultEntry) (s : State) : Option Crew := s.crews.find? fun r => spaceAsid r.space == e.asid

/-- Doublewords written into a message buffer for a crew; none where one faults. -/
def State.bufferDws (s : State) (w : Who) (va : Word) : List Word → Option State
  | [] => some s
  | v :: r =>
    match s.copyWrite w va 8 v.toNat with
    | (_, .fault _) => none
    | (s1, .ok) => s1.bufferDws w (va + 8#64) r

/-- Where a doubleword of a message buffer waits for the host's translation, the state that has asked for it (13_address_space.md R379). -/
def State.bufferWaits (s : State) (w : Who) (va : Word) : List Word → Option State
  | [] => none
  | v :: r =>
    match s.copyWrite w va 8 v.toNat with
    | (s1, .fault .wait) => some s1
    | (_, .fault _) => none
    | (s1, .ok) => s1.bufferWaits w (va + 8#64) r

/-- A fault entry's record sent. -/
def State.markSent (s : State) (e : FaultEntry) : State :=
  { s with faults := s.faults.map fun f => if f = e then { f with sent := true } else f }

/-- A record that cannot be delivered, given to the core's record queue (13_address_space.md R388). -/
def State.recordInstead (s : State) (e : FaultEntry) : State :=
  let core := coidCore e.coid
  let t := (s.coreAt core).slot? (coidSlot e.coid)
  (s.updCore core fun k => { k with records := k.records ++
    [⟨0x05#8, e.store, e.command.isNone && (t.map fun u => u.ctx.hasFrame).getD false, e.coid, e.addr,
      (t.map fun u => u.ctx.pc).getD 0#19, e.command.map fun c => c.extractLsb' 29 3, e.command.isSome, core⟩] }).markSent e

/-- The coroutine whose arena fault record is delivered: held by it no longer, it waits on the fault token (07_coroutines.md R206). -/
def State.recordDelivered (s : State) (e : FaultEntry) : State :=
  let s1 := s.markSent e
  if e.command.isSome then s1
  else (s1.updCore (coidCore e.coid) fun k => k.updSlot (coidSlot e.coid) Slot.unhold).settle (coidCore e.coid)

/-- The record of an arena fault sent as a message by the device (13_address_space.md R388). -/
def State.sendArenaRecord (s : State) (e : FaultEntry) (i : BitVec 4) : State :=
  match e.crewRow s with
  | none => s.recordInstead e
  | some r =>
    let h := (s.arenaDws r i.toNat).getD 3 0#64
    if hDev h ≠ s.devNo ∨ hKind h ≠ 3#2 ∨ (hIndex h).toNat < 256 then s.recordInstead e
    else if s.heldByReplay r.num h then s
    else
      match s.reserve r.num h 64 with
      | (_, .stale) => s.recordInstead e
      | (_, .none) => s
      | (_, .short) => s.recordInstead e
      | (s1, .ok pos buffer) =>
        match s1.bufferDws ⟨r.space, true, r.num, hCore h⟩ buffer e.recordDws with
        | none =>
          match s1.bufferWaits ⟨r.space, true, r.num, hCore h⟩ buffer e.recordDws with
          | some s2 => { s with atsOut := s2.atsOut }
          | none => s.recordInstead e
        | some s2 => (s2.deliverMessage h pos (slotWord 3#3 s.devNo (coidCore e.coid) r.num 64) 0#64).recordDelivered e

/-- Whether an arena fault record can be delivered, or turned away, now (13_address_space.md R388). -/
def State.recordDue (s : State) (e : FaultEntry) : Bool :=
  match e.arena with
  | none => false
  | some i =>
    !e.sent &&
      match e.crewRow s with
      | none => true
      | some r =>
        let h := (s.arenaDws r i.toNat).getD 3 0#64
        decide (hDev h ≠ s.devNo ∨ hKind h ≠ 3#2 ∨ (hIndex h).toNat < 256) ||
          (!s.heldByReplay r.num h && (s.stale r.num h || (s.cellOf (hCore h) (hIndex h)).posted != 0#16))

/-- ARENA_FAULT_RECORD (13_address_space.md R388): of the entries of the die and page, those of several crews among them, the first whose
record can be delivered. -/
def execArenaFaultRecord (die : BitVec 2) (key : Nat) (s : State) : Result :=
  .next (match (s.faults.find? fun e => e.die == die && e.key == key && s.recordDue e) <|>
      (s.faults.find? fun e => e.die == die && e.key == key && !e.sent) with
    | none => s
    | some e =>
      match e.arena with
      | none => s
      | some i => s.sendArenaRecord e i)

/-! ## The replay of a signal log (R249) -/

/-- A fault of a read by the device at an address: an uncorrectable unit is consumed (14_near_far_memory.md R410). -/
def State.consumed (s : State) (w : Who) (va : Word) (f : MemFault) : State :=
  match f with
  | .uncorrectable _ => s.consumeBad w va
  | _ => s

/-- The doublewords of a send block read for a crew; none where one faults. -/
def State.readBlock (s : State) (w : Who) (va : Word) : Nat → State × Option (List Word)
  | 0 => (s, some [])
  | n + 1 =>
    match s.copyRead w va 8 with
    | (s1, .fault f) => (s1.consumed w va f, none)
    | (s1, .ok v) =>
      match s1.readBlock w (va + 8#64) n with
      | (s2, r) => (s2, r.map fun l => BitVec.ofNat 64 v :: l)

/-- A logged send's bytes copied into its buffer (log 23). -/
def State.replayCopy (s : State) (w dest : Who) (src dst : Word) (len : Nat) : State × Option Halt :=
  (Run.split ⟨src.toNat, dst.toNat, len, 0⟩).foldl (fun acc r => match acc.2 with
    | some h => (acc.1, some h)
    | none =>
      match acc.1.placeRead w (placeOf [] 0 r.src) 0 r.len with
      | (s1, .error h) => (s1, some h)
      | (s1, .ok v) => s1.placeWrite dest (placeOf [] 0 r.dst) r.len v) (s, none)

/-- A logged send of another device replayed: its buffer reserved, into which the device then sends its sectors; its future is told NOBUF
where none is posted (R249, R252; log 22). -/
def State.replayAway (s : State) (op : TokenOp) : State :=
  match s.reserve op.crew op.handle (bits op.operand 23 0) with
  | (s1, .stale) => s1.setCompletion (hCore op.handle) op.crew op.reply (failWord 9)
  | (s1, .none) => s1.setCompletion (hCore op.handle) op.crew op.reply (failWord 0x23)
  | (s1, .short) => s1.setCompletion (hCore op.handle) op.crew op.reply (failWord 6)
  | (s1, .ok pos buffer) => s1.answerReserve op.handle op.srcDev (BitVec.ofNat 64 pos) buffer

/-- What a halt of the device's own copy consumes (14_near_far_memory.md R410). -/
def State.consumedHalt (s : State) (w : Who) (h : Halt) : State :=
  match h with
  | .wait => s
  | .fault c _ va _ => if c = 0x08#8 then s.consumeBad w va else s

/-- A logged send replayed: reserved and delivered, or its future told why not (R249, R252). -/
def State.replaySend (s : State) (op : TokenOp) : State :=
  let home := hCore op.handle
  let w : Who := ⟨s.crewSpace op.crew, op.crew != 0#7, op.crew, op.srcCore⟩
  match s.readBlock w op.operand 4 with
  | (s0, none) => s0.setCompletion home op.crew op.reply (failWord 6)
  | (s0, some block) =>
    let len := bits (block.getD 1 0#64) 23 0
    match s0.reserve op.crew op.handle len with
    | (s1, .stale) => s1.setCompletion home op.crew op.reply (failWord 9)
    | (s1, .none) => s1.setCompletion home op.crew op.reply (failWord 0x23)
    | (s1, .short) => s1.setCompletion home op.crew op.reply (failWord 6)
    | (s1, .ok pos buffer) =>
      let crew := s1.mailboxCrew op.handle
      match s1.replayCopy w ⟨s1.crewSpace crew, crew != 0#7, crew, op.srcCore⟩ (block.getD 0 0#64) buffer len with
      | (s2, some h) => (s2.consumedHalt w h).setCompletion home op.crew op.reply (failWord 6)
      | (s2, none) => s2.deliverMessage op.handle pos (slotWord op.scope op.srcDev op.srcCore op.crew len) op.reply

/-- One logged operation applied as if it had just arrived (R249). -/
def State.replayOp (s : State) (op : TokenOp) : State :=
  if op.code = 6#8 then (if op.srcDev = s.devNo then s.replaySend op else s.replayAway op)
  else
    let r := s.applyAtHome op
    r.1.postedOutcome op r.2

/-- Entry `i` of a crew's signal log as an operation, where it is valid (Table 8.7). An outcome of it goes to its reply handle alone. -/
def State.loggedAt (s : State) (r : Crew) (i : Nat) : Option TokenOp :=
  let l := s.physReadDws (r.entryAddr i) 4
  let w := l.getD 1 0#64
  if w.getLsbD 63 then
    some ⟨w.setWidth 8, l.getD 0 0#64, l.getD 2 0#64, w.extractLsb' 60 3, l.getD 3 0#64, false, r.num, true, w.extractLsb' 50 10,
      w.extractLsb' 40 10, 0#8⟩
  else none

/-- The first valid entry of a crew's log, among `n` entries from `i`, whose handle names a core (R249). -/
def State.nextLogged (s : State) (r : Crew) (core : BitVec 10) : Nat → Nat → Option (Nat × TokenOp)
  | 0, _ => none
  | n + 1, i =>
    match s.loggedAt r i with
    | none => s.nextLogged r core n (i + 1)
    | some op => if hCore op.handle = core then some (i, op) else s.nextLogged r core n (i + 1)

/-- The head of a log's ring moved past entries that are no longer valid (R249). -/
def State.trimLog (s : State) (r : Crew) : Nat → Nat → Nat
  | 0, i => i
  | n + 1, i => if (s.loggedAt r i).isNone then s.trimLog r n (i + 1) else i

/-- Entry `i` taken out of a crew's log (R249). -/
def State.takeLogged (s : State) (r : Crew) (i : Nat) : State :=
  let s1 := s.physWrite (r.entryAddr i + 8) 8 (s.physRead (r.entryAddr i + 8) 8 % 2 ^ 63)
  s1.updCrew r.num fun q => { q with logHead := s1.trimLog r (r.logTail - r.logHead) r.logHead }

/-- LOG_REPLAY (R249): the next valid entry for the core replayed; with none left the core leaves replay-pending. A faulted crew's entries
stay in its log (R248). -/
def execLogReplay (s : State) : Result :=
  .next (
    if !(s.me.replay && s.me.replayEnd) then s
    else
      let done := { s with me := { s.me with replay := false, replayEnd := false } }
      let ended := (done.settle s.me.id).answerAll s.me.id
      match s.crew? s.me.bound with
      | none => ended
      | some r =>
        if r.faulted then ended
        else
          match s.nextLogged r s.me.id (r.logTail - r.logHead) r.logHead with
          | none => ended
          | some (i, op) => (s.takeLogged r i).replayOp op)

end Sys2Proof.Machine
end

