-- ==== Sys2Proof/Machine/Pod.lean ====
section
/-!
DEFINITION. The pod instructions (16_pod.md R443 to R451): windows opened and closed, remote loads, stores and atomics, and the flagged
fence.
-/

namespace Sys2Proof.Machine

/-! ## Window descriptors (R436, R446) -/

/-- A peer of a descriptor (Table 16.2). -/
def peerOf (w : Word) : Peer := ⟨w.getLsbD 63, w.extractLsb' 7 10, w.extractLsb' 17 10, w.extractLsb' 0 7⟩

/-- Whether a peer's doubleword breaks Table 16.2; the crew of one that is not valid names none. -/
def badPeer (w : Word) : Bool := bits w 62 27 != 0 || (w.getLsbD 63 && decide (64 < bits w 6 0))

/-- Whether a descriptor breaks Table 16.2, or its end lies beyond 2^56 (R446). -/
def badWindow (l : List Word) : Bool :=
  let base := (l.getD 0 0#64).toNat
  let len := (l.getD 1 0#64).toNat
  let perm := l.getD 2 0#64
  let cores := l.getD 3 0#64
  base % 4096 != 0 || len % 4096 != 0 || decide (2 ^ 42 < len) || (len == 0 && bits perm 2 0 != 0) || bits perm 63 4 != 0 ||
    (if perm.getLsbD 3 then
      bits cores 63 21 != 0 || bits cores 20 10 == 0 || decide (1024 < bits cores 9 0 + bits cores 20 10)
    else cores != 0#64) ||
    (List.range 4).any (fun j => badPeer (l.getD (4 + j) 0#64)) || decide (2 ^ 56 < base + len)

/-- The window that a descriptor describes (R436). -/
def windowOf (i : BitVec 12) (crew : BitVec 7) (l : List Word) : Window :=
  let perm := l.getD 2 0#64
  let cores := l.getD 3 0#64
  { index := i, state := .opened, owner := crew, base := l.getD 0 0#64, length := (l.getD 1 0#64).toNat, r := perm.getLsbD 0,
    w := perm.getLsbD 1, a := perm.getLsbD 2, t := perm.getLsbD 3, first := cores.extractLsb' 0 10, count := bits cores 20 10,
    peers := (List.range 4).map fun j => peerOf (l.getD (4 + j) 0#64), inflight := 0, completion := 0#64 }

/-- The first free index after the one last allocated, in rising order modulo 4,096 (R437). -/
def State.nextWindow (s : State) : Option (BitVec 12) :=
  ((List.range 4096).map fun k => s.lastWindow + BitVec.ofNat 12 (k + 1)).find? fun i => (s.window? i).isNone

/-- A window opened for a crew: its pointer, or a failure word (R446). -/
def State.openWindow (s : State) (crew : BitVec 7) (l : List Word) : State × Word :=
  if badWindow l then (s, failWord 6)
  else
    match s.nextWindow with
    | none => (s, failWord 2)
    | some i =>
      ({ s with windows := windowOf i crew l :: s.windows, lastWindow := i }, s.devNo ++ i ++ 0#42)

/-- wopen (R446). -/
def execWopen (d a : BitVec 5) (s : State) : Result :=
  .next (s.withDescriptor a 64 8 fun s1 l =>
    match s1.openWindow s1.crew l with
    | (s2, v) => s2.write d v)

/-! ## wclose (R447) -/

/-- wclose (R447); the window is freed by WINDOW_DRAIN_FREE. -/
def execWclose (d a b : BitVec 5) (s : State) : Result :=
  .next (
    let p := s.x a
    match s.window? (ptrWindow p) with
    | none => s.write d (failWord 1)
    | some w =>
      if hDev p ≠ s.devNo ∨ w.owner ≠ s.crew then s.write d (failWord 1)
      else if w.state ≠ .opened then s.write d (failWord 5)
      else (s.updWindow w.index fun v => { v with state := .closing, completion := s.x b }).write d 0#64)

/-! ## Remote loads and atomics (R448, R450) -/

/-- The window of this device that an operation of the running coroutine goes through: the one that admitted it before it had to wait at its
target, or the one that admits it now (R439, R440). -/
def State.passing (s : State) (perm : Window → Bool) (p : Word) (n : Nat) : Option Window :=
  if s.me.passed = some p then s.window? (ptrWindow p) else s.admitted perm p n s.crew s.devNo

/-- An operation that waited at its target is in flight no longer (R439). -/
def State.landed (s : State) : State := if s.me.passed.isSome then { s with me := { s.me with passed := none } } else s

/-- A remote load of `n` bytes, performed through the ingress of the device that the pointer names (R435, R439, R440). -/
def State.remoteLoad (s : State) (p : Word) (n : Nat) : State × Answer :=
  if hDev p = s.devNo then
    match s.passing (·.r) p n with
    | none => (s.countRefusal s.me.id, .refused)
    | some w =>
      match s.landed.endpointLoad w p n with
      | (s1, .error f) => (s1, .failed f.failCode)
      | (s1, .ok v) => (s1, .done v)
  else s.askRemote { s.tokenReq .load p 0#64 with bytes := BitVec.ofNat 9 n }

/-- A remote atomic, performed through the ingress of the device that the pointer names (R435, R439, R440). -/
def State.remoteAtomic (s : State) (p : Word) (function : BitVec 4) (x e : Word) : State × Answer :=
  if hDev p = s.devNo then
    match s.passing (·.a) p 8 with
    | none => (s.countRefusal s.me.id, .refused)
    | some w =>
      match s.landed.endpointAtomic w p function x e with
      | (s1, .error f) => (s1, .failed f.failCode)
      | (s1, .ok v) => (s1, .done v)
  else s.askRemote { s.tokenReq (.atomic function) p x with expected := e }

/-- Where an operation through a window of this device waits for the host's translation at its target, the state that has asked for it, with
the operation in flight (R439, R440, 13_address_space.md R379). -/
def State.hostWait (s : State) (perm : Window → Bool) (p : Word) (n : Nat) (store : Bool) : Option State :=
  if hDev p ≠ s.devNo then none
  else
    match s.passing perm p n with
    | none => none
    | some w =>
      match s.endpointPage w store (w.target p) with
      | (s1, .error .wait) => some { s1 with me := { s1.me with passed := some p } }
      | _ => none

/-- The low `n` bytes of a word. -/
def lowBytes (v : Word) (n : Nat) : Word := BitVec.ofNat 64 (v.toNat % 256 ^ n)

/-- wld (R448); it waits for earlier operations of the coroutine to the same device that pass first (R443). -/
def execWld (d a : BitVec 5) (n : BitVec 2) (q : BitVec 1) (s : State) : Result :=
  .next (
    let p := s.x a
    let k := 2 ^ n.toNat
    if p.toNat % k ≠ 0 then s.takeFault .misaligned p false s.pc
    else if s.remoteWaits (hDev p) then s
    else
      match s.hostWait (·.r) p k false with
      | some s1 => s1
      | none =>
      match s.remoteLoad p k with
      | (s1, .refused) => s1.trapHere 0x0A#8 p false
      | (s1, .failed c) => s1.trapHere c p false
      | (s1, .done v) => (if q = 1#1 then s1.acquire 4#3 else s1).write d (lowBytes v k))

/-- A wamo (R450). -/
def State.wamo (s : State) (d a b : BitVec 5) (q l : BitVec 1) (function : BitVec 4) : State :=
  let p := s.x a
  if p.toNat % 8 ≠ 0 then s.takeFault .misaligned p true s.pc
  else if s.remoteWaits (hDev p) then s
  else
    let s0 := if l = 1#1 then s.release 4#3 else s
    match s0.hostWait (·.a) p 8 true with
    | some s1 => s1
    | none =>
    match s0.remoteAtomic p function (s.x b) (s.x d) with
    | (s1, .refused) => s1.trapHere 0x0A#8 p true
    | (s1, .failed c) => s1.trapHere c p true
    | (s1, .done v) => (if q = 1#1 then s1.acquire 4#3 else s1).write d v

/-- wamo.add (R450, Table 16.4). -/
def execWamoAdd (d a b : BitVec 5) (q l : BitVec 1) (s : State) : Result := .next (s.wamo d a b q l 0#4)
/-- wamo.and (R450, Table 16.4). -/
def execWamoAnd (d a b : BitVec 5) (q l : BitVec 1) (s : State) : Result := .next (s.wamo d a b q l 1#4)
/-- wamo.or (R450, Table 16.4). -/
def execWamoOr (d a b : BitVec 5) (q l : BitVec 1) (s : State) : Result := .next (s.wamo d a b q l 2#4)
/-- wamo.xor (R450, Table 16.4). -/
def execWamoXor (d a b : BitVec 5) (q l : BitVec 1) (s : State) : Result := .next (s.wamo d a b q l 3#4)
/-- wamo.min (R450, Table 16.4). -/
def execWamoMin (d a b : BitVec 5) (q l : BitVec 1) (s : State) : Result := .next (s.wamo d a b q l 4#4)
/-- wamo.max (R450, Table 16.4). -/
def execWamoMax (d a b : BitVec 5) (q l : BitVec 1) (s : State) : Result := .next (s.wamo d a b q l 5#4)
/-- wamo.minn (R450, Table 16.4). -/
def execWamoMinn (d a b : BitVec 5) (q l : BitVec 1) (s : State) : Result := .next (s.wamo d a b q l 6#4)
/-- wamo.maxn (R450, Table 16.4). -/
def execWamoMaxn (d a b : BitVec 5) (q l : BitVec 1) (s : State) : Result := .next (s.wamo d a b q l 7#4)
/-- wamo.swap (R450, Table 16.4). -/
def execWamoSwap (d a b : BitVec 5) (q l : BitVec 1) (s : State) : Result := .next (s.wamo d a b q l 8#4)
/-- wamo.cas (R450, Table 16.4). -/
def execWamoCas (d a b : BitVec 5) (q l : BitVec 1) (s : State) : Result := .next (s.wamo d a b q l 9#4)

/-! ## wst and wfence.flag (R449, R451) -/

/-- wst (R449). -/
def execWst (d a b c : BitVec 5) (s : State) : Result :=
  .next (
    if s.x c = 0#64 ∨ 2 ^ 24 < (s.x c).toNat then s.badArg d
    else s.submit d (s.newCopy .remote 0#64 [s.x a, s.x b, s.x c]))

/-- The signal of a wfence.flag put behind the wst commands of its coroutine to its device; at once where there is none (R451). -/
def State.flagOp (s : State) (op : TokenOp) : State :=
  let dev := hDev op.handle
  let whole := s.me.remoteSeqs op.srcSlot dev true
  if whole.isEmpty then s.sendOp op
  else { s with me := s.me.queueOp op (s.me.remoteSeqs op.srcSlot dev false) whole (s.releasesAfter op) }

/-- wfence.flag (R451). -/
def execWfenceFlag (d a b : BitVec 5) (s : State) : Result :=
  .next (
    let h := s.x a
    if !s.sup && isResource h then s.privilege
    else if s.outqFull then s
    else
      let op := s.opOf 3#8 h (s.amount b) 4#3 (s.x d) (d == 0#5)
      let s1 := (s.adv 4).release 4#3
      if kindFits 3#8 h then s1.flagOp op else s1.postedOutcome op 0x20)

end Sys2Proof.Machine
end

