-- ==== Sys2Proof/Machine/TokenEvents.lean ====
section
/-!
DEFINITION. The steps of the token units and the pod's ingress (08_tokens.md R237 to R243, 16_pod.md R432, R433, R438 to R441, R447).
-/

namespace Sys2Proof.Machine

/-! ## Sending and applying (08_tokens.md R237, R240) -/

/-- Whether the head of an outgoing queue may be sent: the wst commands that it follows have sent their first sector, those that it waits
for have ended, and so have the vector accesses before it (16_pod.md R443, R451, 08_tokens.md R240). -/
def Core.opSendable (k : Core) (o : OutOp) : Bool :=
  (k.copies.all fun c => !(o.whole.contains c.seq) && !(o.first.contains c.seq && c.done == 0)) && k.accessesDone o

/-- TOKEN_OP_SEND (R240): the oldest outgoing operation of the core whose turn it is. -/
def execTokenOpSend (s : State) : Result :=
  .next (match s.me.outq with
    | [] => s
    | o :: rest =>
      if s.me.opSendable o then
        { s with me := { s.me with outq := rest } }.muted s.me.id o.op.srcSlot o.mutes fun t => t.launchOp o.op
      else s)

/-- TOKEN_OP_APPLY (R237): an operation that has arrived at its home on this device. -/
def execTokenOpApply (op : TokenOp) (s : State) : Result := .next (if hDev op.handle = s.devNo then s.deliverOp op else s)

/-! ## Watches (R243) -/

/-- A watch answered: a wake to its waiter, here or on another device (R243 step 1). -/
def State.sendWake (s : State) (w : Watch) : State :=
  if w.dev = s.devNo then { s with inbox := s.inbox ++ [Instr.wake w] }
  else { s with podOut := s.podOut ++ [⟨.watch, 0#7, w.dev, w.handle, 0#9, w.phase, 0#64,
    ⟨0#8, w.handle, w.phase, 0#3, 0#64, false, 0#7, false, s.devNo, hCore w.handle, w.slot⟩, 0#2048⟩] }

/-- A cell's wp bit set. -/
def State.markWp (s : State) (core : BitVec 10) (index : BitVec 16) : State :=
  let c := s.cellOf core index
  s.putCell core index { c with upper := setBits c.upper 23 23 1 }

/-- A watch that finds the table full: the waiter's core or device joins its overflow set (R243 step 3). -/
def Core.overflow (k : Core) (w : Watch) (dev : BitVec 10) : Core :=
  if w.dev = dev then { k with overflowCores := if k.overflowCores.contains w.core then k.overflowCores else w.core :: k.overflowCores }
  else { k with overflowDevs := if k.overflowDevs.contains w.dev then k.overflowDevs else w.dev :: k.overflowDevs }

/-- The wp bit of a cell whose watch found the table full; a hardware resource cell has it in the core (R232, R243 step 3). -/
def State.markOverflow (s : State) (core : BitVec 10) (index : BitVec 16) : State :=
  if index.toNat < 16 then
    s.updCore core fun k => { k with overflowCells := if k.overflowCells.contains index then k.overflowCells else index :: k.overflowCells }
  else s.markWp core index

/-- A watch taken by the home of its cell (R243). -/
def State.takeWatch (s : State) (w : Watch) : State :=
  let h := hCore w.handle
  let k := s.coreAt h
  if s.condition w.crew w.handle w.phase then s.sendWake w
  else if k.watches.contains w then s
  else if k.watches.length < 64 then (s.updCore h fun o => { o with watches := o.watches ++ [w] }).syncWp h (hIndex w.handle)
  else (s.updCore h fun o => o.overflow w s.devNo).markOverflow h (hIndex w.handle)

/-- TOKEN_WATCH (R243). -/
def execTokenWatch (w : Watch) (s : State) : Result := .next (s.takeWatch w)

/-- WAKE (R243 step 6): the slot that waits on the cell is told. -/
def execWake (w : Watch) (s : State) : Result :=
  .next ((s.updCore w.core fun k => k.updSlot w.slot fun t =>
    if t.state ≠ .running ∧ t.waitFor ≠ .nothing ∧ t.handle = w.handle ∧ t.asks = w.phase then { t with woken := true } else t).settle
      w.core)

/-- Whether a slot of core `k` has a watch at a home core of a device (R243 step 5). -/
def Slot.watchesAt (t : Slot) (k : BitVec 10) (dev home here : BitVec 10) : Bool :=
  t.state != .running && (t.waitFor == .token || t.waitFor == .resource) && !t.woken && hDev t.handle == dev &&
    (if dev = here then hCore t.handle == home && k != home else true)

/-- RECHECK (R243 step 5): every core sends its watches for the home again; from another device, those for any home of it. -/
def execRecheck (dev home : BitVec 10) (s : State) : Result :=
  .next (s.cores.foldl (fun acc k => k.slots.foldl (fun acc' t =>
    if t.watchesAt k.id dev home s.devNo then acc'.sendWatch k.id t else acc') acc) s)

/-! ## The ingress (16_pod.md R438 to R441) -/

/-- A window entry brought into the endpoint's cache of 256 (R438). -/
def State.cacheWindow (s : State) (i : BitVec 12) : State :=
  { s with endpoint := (i :: s.endpoint.filter (· ≠ i)).take 256 }

/-- ENDPOINT_CACHE_FETCH (R438). -/
def execEndpointCacheFetch (index : BitVec 12) (s : State) : Result := .next (s.cacheWindow index)

/-- The reply to an arriving operation: its value, and 0 or the cause that it failed with (R439, R440). -/
def State.answerPod (s : State) (r : RemoteReq) (value : Word) (code : BitVec 8) : State :=
  { s with podOut := s.podOut ++ [⟨r.kind, 0#7, r.dev, r.addr, r.bytes, value, code.zeroExtend 64, r.op, 0#2048⟩] }

/-- An admitted sector that waits at the target on an absent arena page, as a copy unit does (R440, 10_scratchpad_copy.md R316). -/
def State.holdSector (s : State) (w : Window) (r : RemoteReq) (a : BitVec 4) : State :=
  match s.claimFault (s.windowWho w) (some a) (w.target r.addr) true (coidOf r.op.srcCore r.op.srcSlot) (some r.expected) with
  | (s1, .joined t) => { s1 with sectorsHeld := s1.sectorsHeld ++ [(r, some t)] }
  | (s1, .claimed t) => { s1 with sectorsHeld := s1.sectorsHeld ++ [(r, some t)] }
  | (s1, .full) => { s1 with sectorsHeld := s1.sectorsHeld ++ [(r, none)] }

/-- An admitted sector performed, or held; `counted` where its window counts it already (R439, R440). -/
def State.sectorAt (s : State) (w : Window) (r : RemoteReq) (counted : Bool) : State :=
  let close (t : State) : State := if counted then t.countInflight r.addr false else t
  match s.endpointStore w r.addr r.bytes.toNat r.data.toNat with
  | (s1, .ok _) => (close s1).answerPod r 0#64 0#8
  | (s1, .error f) =>
    match f with
    | .absent (some a) => (if counted then s1 else s1.countInflight r.addr true).holdSector w r a
    | .wait =>
      let s2 := if counted then s1 else s1.countInflight r.addr true
      { s2 with sectorsHeld := s2.sectorsHeld ++ [(r, none)] }
    | _ => (close s1).answerPod r 0#64 f.failCode

/-- A held sector whose fault token is signalled goes on, or fails with PAGE_PROTECT (R440, 13_address_space.md R385). -/
def State.resumeSector (s : State) (r : RemoteReq) (token : Option Word) : State :=
  let s1 := { s with sectorsHeld := s.sectorsHeld.filter fun p => p.1 ≠ r }
  match s1.window? (ptrWindow r.addr) with
  | none => s1.answerPod r 0#64 0x0A#8
  | some w =>
    match token with
    | none => s1.sectorAt w r true
    | some t =>
      let c := s1.cellOf (hCore t) (hIndex t)
      if c.gen = hGen t ∧ c.lower ≠ 0#64 then (s1.countInflight r.addr false).answerPod r 0#64 0x06#8 else s1.sectorAt w r true

/-- Whether a held sector may go on: its fault token is signalled, the host has answered, or a fault entry is free. -/
def State.sectorFree (s : State) (p : RemoteReq × Option Word) : Bool :=
  match p.2, s.window? (ptrWindow p.1.addr) with
  | some t, _ => s.faultCondition t
  | none, none => true
  | none, some w =>
    match (s.endpointPage w true (w.target p.1.addr)).2 with
    | .error .wait => false
    | .error (.absent (some a)) => (s.claimFault (s.windowWho w) (some a) (w.target p.1.addr) true 0#18 none).2 != .full
    | .error _ => true
    | .ok _ => true

/-- An admitted operation that has to wait at its target, in flight through its window meanwhile (R439). -/
def State.holdReq (s : State) (r : RemoteReq) (w : Window) : State :=
  { s.updWindow w.index fun v => { v with inflight := v.inflight + 1 } with heldReqs := s.heldReqs ++ [(r, w.index)] }

/-- A form of another device that needs its cell at once, dropped where its crew has faulted (08_tokens.md R248), held while replay holds it
(07_coroutines.md R223, R224, 08_tokens.md R246, R257, R258). An answer to fut.get for a future that is not full has code 0x23 (log 15). -/
def State.answerCell (s : State) (r : RemoteReq) (w : Window) : State :=
  let crew := w.owner
  let core := hCore r.addr
  let index := hIndex r.addr
  let c := s.cellOf core index
  if s.crewFaulted crew then s
  else if s.heldByReplay crew r.addr then s.holdReq r w
  else if s.stale crew r.addr then s.answerPod r 0#64 9#8
  else if r.op.code = CellForm.fnext.code then
    (if isResource r.addr ∨ c.kind ≠ 1#2 then s.answerPod r (failWord 6) 0#8
    else if c.count < c.threshold then
      ((s.putCell core index { c with lower := setBits c.lower 31 0 (c.count + 1) }).cellChanged core index).answerPod r
        (BitVec.ofNat 64 c.count) 0#8
    else s.answerPod r 0xFFFFFFFFFFFFFFFF#64 0#8)
  else if r.op.code = CellForm.farm.code then
    (if isResource r.addr ∨ c.kind ≠ 1#2 then s.answerPod r (failWord 6) 0#8
    else (s.farmCounter r.addr r.operand).answerPod r 0#64 0#8)
  else if r.op.code = CellForm.poll.code then s.answerPod r (oneIf (s.cellCondition r.addr (phaseFor r.addr r.operand))) 0#8
  else if r.op.code = CellForm.value.code then s.answerPod r c.lower (if s.cellCondition r.addr r.operand then 0#8 else 0x23#8)
  else s.answerPod r (if r.op.code = CellForm.read.code ∧ r.operand.getLsbD 0 then c.upper else c.lower) 0#8

/-- A token operation of another device, for the crew that owns the window it comes through (R441, 08_tokens.md R246). -/
def State.podOp (s : State) (r : RemoteReq) (w : Window) : State :=
  if r.op.code = 0#8 ∨ 16#8 ≤ r.op.code then s.answerCell r w
  else s.deliverOp { r.op with handle := r.addr, crew := w.owner, isUser := w.owner != 0#7, srcDev := r.dev }

/-- The agent that the sectors of another device's send are written for (log 22). -/
def State.bufferAgent (s : State) (r : RemoteReq) : Who :=
  let crew := s.mailboxCrew r.addr
  ⟨s.crewSpace crew, crew != 0#7, crew, hCore r.addr⟩

/-- A sector of another device's send, written into its reserved buffer (R440, 08_tokens.md R260; log 22). -/
def State.podMessage (s : State) (r : RemoteReq) (w : Window) : State :=
  match s.endpointAt (s.bufferAgent r) true r.op.operand with
  | (s1, .ok pa) => (s1.physWriteCuts pa r.data.toNat (cuts 32 pa r.bytes.toNat)).answerPod r 0#64 0#8
  | (s1, .error .wait) => s1.holdReq r w
  | (s1, .error f) => s1.answerPod r 0#64 f.failCode

/-- A refused operation (R439). -/
def State.refusePod (s : State) (r : RemoteReq) : State := s.answerPod r 0#64 0x0A#8

/-- A remote load, store or atomic checked against its window and performed (R439, R440). -/
def State.ingressAccess (s : State) (r : RemoteReq) (perm : Window → Bool) (f : State → Window → State) : State :=
  if !s.endpoint.contains (ptrWindow r.addr) then
    { s with inbox := Instr.endpointCacheFetch (ptrWindow r.addr) :: Instr.ingressCheck r :: s.inbox }
  else
    match s.admitted perm r.addr r.bytes.toNat r.crew r.dev with
    | none => s.refusePod r
    | some w => f s w

/-- A reservation of another device at its home (R441, 08_tokens.md R252, R260). -/
def State.podReserve (s : State) (r : RemoteReq) (w : Window) : State :=
  s.reserveFor (awaySend r.addr w.owner r.dev r.op.srcCore r.op.srcSlot r.operand r.expected)

/-- A watch of another device, or the end of one, dropped where its crew has faulted (R441, 08_tokens.md R243, R248). -/
def State.podWatch (s : State) (r : RemoteReq) (w : Window) : State :=
  if s.crewFaulted w.owner then s
  else if r.op.code = CellForm.unwatch.code then
    (s.updCore (hCore r.addr) fun k => { k with
      watches := k.watches.filter fun v => !(v.dev == r.dev && v.core == r.op.srcCore && v.slot == r.op.srcSlot) }).syncWp (hCore r.addr)
        (hIndex r.addr)
  else s.takeWatch ⟨r.addr, r.operand, r.dev, r.op.srcCore, r.op.srcSlot, w.owner⟩

/-- Whether a held request of another device may go on: its home is no longer replay-pending, or the host has answered (08_tokens.md R246,
13_address_space.md R379). -/
def State.reqFree (s : State) (p : RemoteReq × BitVec 12) : Bool :=
  let page (store : Bool) : Bool :=
    ((s.window? p.2).map fun w => !hostWaits (s.endpointPage w store (w.target p.1.addr)).2).getD true
  match p.1.kind with
  | .load => page false
  | .atomic _ => page true
  | .store => !hostWaits (s.endpointAt (s.bufferAgent p.1) true p.1.op.operand).2
  | .token => !(s.coreAt (hCore p.1.addr)).replay
  | .watch => true
  | .reserve => true

/-- An admitted operation performed at its target, or held there (R440, R441). -/
def State.performReq (s : State) (r : RemoteReq) (w : Window) : State :=
  match r.kind with
  | .load =>
    (match s.endpointLoad w r.addr r.bytes.toNat with
      | (s1, .ok v) => s1.answerPod r v 0#8
      | (s1, .error .wait) => s1.holdReq r w
      | (s1, .error f) => s1.answerPod r 0#64 f.failCode)
  | .atomic fn =>
    (match s.endpointAtomic w r.addr fn r.operand r.expected with
      | (s1, .ok v) => s1.answerPod r v 0#8
      | (s1, .error .wait) => s1.holdReq r w
      | (s1, .error f) => s1.answerPod r 0#64 f.failCode)
  | .store => if r.op.code = 6#8 then s.podMessage r w else s.sectorAt w r false
  | .token => s.podOp r w
  | .watch => s.podWatch r w
  | .reserve => s.podReserve r w

/-- A held operation tried again: it passed its check when it arrived (R439). -/
def State.retryReq (s : State) (p : RemoteReq × BitVec 12) : State :=
  let s1 := { s.updWindow p.2 fun v => { v with inflight := v.inflight - 1 } with heldReqs := s.heldReqs.filter fun q => q ≠ p }
  match s1.window? p.2 with
  | none => s1.refusePod p.1
  | some w => s1.performReq p.1 w

/-- Whether an operation is admitted by the window that opens its home core: a token operation, a watch, a reservation, or the data of a send
(R439, R441). -/
def reqUsesCells (r : RemoteReq) : Bool :=
  match r.kind with
  | .load => false
  | .atomic _ => false
  | .store => r.op.code == 6#8
  | .token => true
  | .watch => true
  | .reserve => true

/-- The permission that a remote load, store or atomic needs of its window (R439). -/
def reqPermission (r : RemoteReq) : Window → Bool :=
  match r.kind with
  | .load => (·.r)
  | .atomic _ => (·.a)
  | _ => (·.w)

/-- A request as the ingress checks it: an atomic's operand is a doubleword (R450). -/
def reqChecked (r : RemoteReq) : RemoteReq :=
  match r.kind with
  | .atomic _ => { r with bytes := 8#9 }
  | _ => r

/-- INGRESS_CHECK (R438 to R441): an operation of another device checked and performed, or refused; a sector held at this target tried
again once its page is there. -/
def execIngressCheck (req : RemoteReq) (s : State) : Result :=
  .next (match s.sectorsHeld.find? fun p => p.1 = req with
    | some p => if s.sectorFree p then s.resumeSector req p.2 else s
    | none =>
      match s.heldReqs.find? fun p => p.1 = req with
      | some p => if s.reqFree p then s.retryReq p else s
      | none =>
        if reqUsesCells req then
          match s.tokenWindow (hCore req.addr) req.crew req.dev with
          | none => s.refusePod req
          | some w => s.performReq req w
        else s.ingressAccess (reqChecked req) (reqPermission req) fun s1 w => s1.performReq (reqChecked req) w)

/-- The completion future of a closed window set: fut.set of 0 with release at device scope (R447). -/
def State.signalClosed (s : State) (w : Window) : State :=
  if w.completion = 0#64 ∨ hDev w.completion ≠ s.devNo then s
  else s.deliverOp
    { code := 5#8, handle := w.completion, operand := 0#64, scope := 3#3, reply := 0#64, toStatus := false, crew := w.owner,
      isUser := w.owner != 0#7, srcDev := s.devNo, srcCore := hCore w.completion, srcSlot := 0#8 }

/-- WINDOW_DRAIN_FREE (R447): a closing window with no operation in flight is freed. -/
def execWindowDrainFree (index : BitVec 12) (s : State) : Result :=
  .next (match s.window? index with
    | none => s
    | some w => if w.state = .closing ∧ s.inFlight w = 0 then (s.dropWindow index).signalClosed w else s)

/-! ## Links (16_pod.md R432, R433) -/

/-- LINK_LEVEL_RETRY (R433): the flit is replayed, and nothing else changes. -/
def execLinkLevelRetry (_port : BitVec 5) (s : State) : Result := .next s

/-- The port of the route from a movement to a device, where there is a route: the one that the Kerlo ROM filled in, or the one that its
routes moved to since (R433; log 6). -/
def State.portFor (s : State) (dev : BitVec 10) (mov : BitVec 8) : Option Nat :=
  if s.hasRoute dev then
    some (s.portMoves.foldl (fun p m => if p = m.1 then m.2 else p) ((Config.routePort dev mov).toNat % 24))
  else none

/-- The port that a failed port's routes move to: the spare one, or where that cannot serve the lowest that can; none where all are down. -/
def State.sparePort (s : State) (port spare : Nat) : Option Nat :=
  (spare :: List.range 24).find? fun p => decide (p < 24) && p != port && !s.portsDown.contains p

/-- PORT_FAILURE (R433): a drained port's routes move to another, so every device keeps its route; REPAIR_STATUS and ERROR_QUERY report the
port. There are 24 ports (R13). -/
def execPortFailure (port spare : BitVec 5) (s : State) : Result :=
  .next (if 24 ≤ port.toNat ∨ s.portsDown.contains port.toNat then s
    else
      { s with
        portsDown := port.toNat :: s.portsDown
        portMoves := s.portMoves ++ ((s.sparePort port.toNat spare.toNat).map fun p => (port.toNat, p)).toList }.logError 4 port.toNat)

/-- Whether the device number may change to another: no user crew is bound to any core (R17). -/
def State.mayRename (s : State) (dev : BitVec 10) : Bool := dev == s.devNo || s.cores.all fun k => k.bound == 0#7

/-- PORT_CONFIGURATION (R17, R432, R433): the fabric assigns the device number, which stays while a user crew is bound to a core; the Kerlo
ROM fills the route table and reserves the token-signal range. -/
def execPortConfiguration (dev : BitVec 10) (peers : List Nat) (s : State) : Result :=
  let d := if s.mayRename dev then dev else s.devNo
  .next { s with devNo := d, routes := (peers.filter fun p => p < 1024 ∧ p ≠ d.toNat), 
                 signalRange := Config.signalRange.toNat }

end Sys2Proof.Machine
end

