-- ==== Sys2Proof/Machine/EngineEvents.lean ====
section
/-!
DEFINITION. The steps that the escapement and the engines take on their own: quantum and pre-emption switches, spills and refills
(07_coroutines.md R194, R203, R205), the copy engine (10_scratchpad_copy.md R313 to R316), and the gather units
(14_near_far_memory.md R404).
-/

namespace Sys2Proof.Machine

/-! ## Switches (07_coroutines.md R203, R205) -/

/-- left of the running coroutine reloaded (R203). -/
def State.reloadQuantum (s : State) : State := s.updCtx fun c => { c with quantum := quantumReload c.quantum }

/-- QUANTUM_EXPIRY (R203): with a rival ready the running coroutine is switched out, held under a record where tvec.qrec is 1; else its
quantum reloads. -/
def execQuantumExpiry (s : State) : Result :=
  .next (match s.me.run with
    | none => s
    | some n =>
      if bits s.me.ctx.quantum 33 0 ≠ 0 ∨ bits s.me.ctx.quantum 57 34 = 0 then s
      else
        let s1 := s.reloadQuantum
        if !s.me.hasRival n then s1
        else if s.me.tvec.getLsbD 0 then s1.holdBy (coidOf s.me.id n) 0x0C#8 0#64 false none
        else s1.preemptOut s.me.id 0x0C#8)

/-- Whether a crew 0 coroutine is ready on a core. -/
def Core.supReady (k : Core) : Bool := k.slots.any fun t => t.state == .ready && supSlot t.num

/-- PREEMPT_SWITCH (R205). -/
def execPreemptSwitch (s : State) : Result :=
  .next (match s.me.run with
    | none => s
    | some n => if supSlot n || !s.me.supReady then s else s.preemptOut s.me.id 0x0D#8)

/-! ## Spills and refills (07_coroutines.md R194) -/

/-- CONTEXT_SPILL (R194): the least recently ready context, where its reserve can take it. -/
def execContextSpill (s : State) : Result :=
  .next (match s.me.spillOne with
    | none => s
    | some k => { s with me := k })

/-- Whether a slot is spilled, ready, and among the first four of the ready order (R194). -/
def Core.refillable (k : Core) (n : BitVec 8) : Bool := (k.readyOrder.take 4).any fun t => t.num == n && t.spilled

/-- Whether the cache has room for a slot's context without a spill (R194). -/
def Core.hasRoom (k : Core) (t : Slot) : Bool :=
  decide (t.units ≤ k.freeUnits) && (supSlot t.num || decide (1 ≤ k.freeFrames))

/-- CONTEXT_REFILL (R194). -/
def execContextRefill (slot : BitVec 8) (s : State) : Result :=
  .next (match s.me.slot? slot with
    | none => s
    | some t =>
      if s.me.refillable slot && s.me.hasRoom t then { s with me := s.me.updSlot slot fun u => { u with spilled := false } } else s)

/-! ## The copy engine (10_scratchpad_copy.md R313 to R316) -/

/-- COPY_CHANNEL_START (R313). -/
def execCopyChannelStart (chan : BitVec 4) (s : State) : Result := .next (s.startChannel (movOf s.me.id) chan)

/-- COPY_UNIT_COMPLETE (R315). -/
def execCopyUnitComplete (entry : BitVec 3) (s : State) : Result :=
  .next (match s.me.copy? entry with
    | none => s
    | some c => if c.workable then s.copyUnit c else s)

/-- COPY_FAULT (R316). -/
def execCopyFault (entry : BitVec 3) (s : State) : Result :=
  .next (match s.me.copy? entry with
    | none => s
    | some c => if c.workable then s.faultCopy c else s)

/-- COPY_RESTART (R316). -/
def execCopyRestart (entry : BitVec 3) (s : State) : Result :=
  .next (match s.me.copy? entry with
    | none => s
    | some c => s.restartCopy c)

/-- GATHER_UNIT_BURST (14_near_far_memory.md R404): the bursts that the elements of a cp.gather's next unit lie in are read and its
elements packed. -/
def execGatherUnitBurst (entry : BitVec 3) (s : State) : Result :=
  .next (match s.me.copy? entry with
    | none => s
    | some c => if c.kind = .gather ∧ c.workable then s.copyUnit c else s)

end Sys2Proof.Machine
end

