-- ==== Sys2Proof/Machine/GridInstr.lean ====
section
/-!
DEFINITION. cp.mg and mg.check (11_multigrid.md R326 to R330, R339, R340), and the front end's reads of its own scratchpad.
-/

namespace Sys2Proof.Machine

/-! ## The front end's reads of its scratchpad (R339, 15_complications.md R429) -/

/-- The 8-byte chunk of the core's own scratchpad that makes `w` bytes from an offset uncorrectable: the first of them. -/
def State.padChunk (s : State) (o w : Nat) : Nat :=
  (((List.range w).find? fun i => s.isBad (scratchAddr s.me.id (o + i)) 1).map fun i => (o + i) / 8 * 8).getD (o / 8 * 8)

/-- `n` words of `w` bytes from an offset of the core's own scratchpad; the first uncorrectable chunk is named by its window address
(10_scratchpad_copy.md R296). -/
def State.padWords (s : State) (w o : Nat) : Nat → Except Word (List Nat)
  | 0 => .ok []
  | n + 1 =>
    let pa := scratchAddr s.me.id o
    if s.isBad pa w then .error (padEaddr s.me.id (s.padChunk o w))
    else
      match s.padWords w (o + w) n with
      | .error e => .error e
      | .ok r => .ok (s.physRead pa w :: r)

/-- MEM_UNCORRECTABLE at an instruction that reads its scratchpad. -/
def State.padFault (s : State) (e : Word) : State := s.takeFault (.uncorrectable e) e false s.pc

/-! ## Stencil-weight tables (R329) -/

/-- Whether a table's offset lies where tables may (R329). -/
def tableOffsetOk (o : Word) : Bool := decide (o.toNat % 16 = 0) && decide (0x10000 ≤ o.toNat) && decide (o.toNat ≤ 0xFFFF0)

/-- Whether a header's reserved bits are zero, its offsets in range and its weights inside the scratchpad (R329). -/
def headerOk (o : Nat) (h0 h1 : Word) : Bool :=
  let t := stencilOf h0
  bits h0 7 6 == 0 && bits h0 63 32 == 0 && h1 == 0#64 && [t.ox, t.oy, t.oz].all (fun x => decide (-3 ≤ x) && decide (x ≤ 3)) &&
    decide (o + 16 + 4 * (t.tx * t.ty * t.tz) ≤ 0x100000)

/-- Whether an f32 is finite. -/
def finiteF32 (b : Nat) : Bool := (b >>> 23) % 256 != 255

/-- What reading a stencil-weight table gives: its header and weights, a breach of R329, or an uncorrectable chunk. -/
inductive TableRead where
  | ok (header : Word) (weights : List Nat)
  | breach
  | bad (eaddr : Word)
  deriving DecidableEq, Repr

/-- A stencil-weight table read from the core's scratchpad (R329, R339). -/
def State.readTable (s : State) (o : Word) : TableRead :=
  if !tableOffsetOk o then .breach
  else
    match s.padWords 8 o.toNat 2 with
    | .error e => .bad e
    | .ok h =>
      let h0 : Word := BitVec.ofNat 64 (h.getD 0 0)
      if !headerOk o.toNat h0 (BitVec.ofNat 64 (h.getD 1 0)) then .breach
      else
        match s.padWords 4 (o.toNat + 16) (stencilOf h0).taps.length with
        | .error e => .bad e
        | .ok w => if w.all finiteF32 then .ok h0 w else .breach

/-! ## cp.mg (R327, R328, R330, R339) -/

/-- The lowest and the highest byte of a grid (R328). -/
def Grid.bounds (g : Grid) : Int × Int :=
  let y : Int := ((g.ny : Int) - 1) * g.ystride
  let z : Int := ((g.nz : Int) - 1) * g.zstride
  let b : Int := (g.base.toNat : Int)
  (b + min 0 y + min 0 z, b + (g.nx * g.size : Nat) - 1 + max 0 y + max 0 z)

/-- Whether a grid descriptor breaches R327 or R328. -/
def Grid.bad (g : Grid) : Bool :=
  g.reserved || g.nx == 0 || g.ny == 0 || g.nz == 0 || decide (g.type < 8) || decide (13 < g.type) || decide (1 < g.space) ||
    g.base.toNat % g.size != 0 || g.ystride % (g.size : Int) != 0 || g.zstride % (g.size : Int) != 0 ||
    decide (g.ystride.natAbs < g.nx * g.size) || decide (g.zstride.natAbs < g.ny * g.ystride.natAbs) ||
    (g.space == 1 && (g.sparse || decide (g.bounds.1 < 0x10000) || decide (0xFFFFF < g.bounds.2)))

/-- Whether two grids' bounding ranges intersect (R328); ranges of different spaces do not. -/
def gridsMeet (a b : Grid) : Bool := a.space == b.space && decide (a.bounds.1 ≤ b.bounds.2) && decide (b.bounds.1 ≤ a.bounds.2)

/-- Whether a multigrid command fails with BADARG by its descriptor (R328, R330, R339). -/
def badGrid (c : CopyCmd) : Bool :=
  let w := c.control
  let points := c.gridTo.nx * c.gridTo.ny * c.gridTo.nz
  bits w 58 56 != 0 || w.getLsbD 32 || bits w 19 0 != 0 || bits w 29 28 == 3 || bits w 27 26 == 3 || bits w 25 24 == 3 ||
    bits w 23 21 == 6 || bits (c.dw 2) 63 20 != 0 || c.dw 13 != 0#64 || c.dw 14 != 0#64 || c.dw 15 != 0#64 ||
    c.gridTo.bad || c.gridFrom.bad || gridsMeet c.gridTo c.gridFrom || decide (2 ^ 32 < points) ||
    badCommon w (c.dw 1) (chunkCount w (points * c.gridTo.size))

/-- The rounding mode of a multigrid command: code 7 takes fcr.rm as captured at issue (Table 11.4). -/
def gridMode (control fcr : Word) : BitVec 3 := if bits control 23 21 = 7 then fcr.extractLsb' 0 3 else control.extractLsb' 21 3

/-- cp.mg (R339). -/
def execCpMg (d a : BitVec 5) (s : State) : Result :=
  .next (s.withDescriptor a 128 16 fun s1 w =>
    match s1.readTable (w.getD 2 0#64) with
    | .bad e => s1.padFault e
    | .breach => s1.badArg d
    | .ok header weights =>
      let c := { s1.newCopy .grid (w.getD 0 0#64) (w ++ [header, s.x a]) with
        weights := weights, mode := gridMode (w.getD 0 0#64) s.me.ctx.fcr }
      if badGrid c then s1.badArg d else s1.submit d c)

/-! ## mg.check (R340) -/

/-- A finite f32 in units of 2^−149. -/
def f32Units (b : Nat) : Int :=
  match FloatFmt.f32.read false b with
  | .fin n m e => scaled n m e (-149)
  | .inf _ => 0
  | .nan _ => 0

/-- Whether a number is a power of two. -/
def isPow2 (x : Int) : Bool := decide (0 < x) && 2 ^ Nat.log2 x.toNat == x.toNat

/-- The word that mg.check writes for a valid table (R340). -/
def checkWord (weights : List Nat) : Word :=
  let v := weights.map f32Units
  BitVec.ofNat 64 (v.length + (v.filter (· ≠ 0)).length * 2 ^ 8 + (if v.foldl (· + ·) 0 = 2 ^ 149 then 2 ^ 15 else 0) +
    (if v.all fun x => x == 0 || isPow2 x then 2 ^ 16 else 0))

/-- mg.check (R340). -/
def execMgCheck (d a : BitVec 5) (s : State) : Result :=
  .next (match s.readTable (s.x a) with
    | .bad e => s.padFault e
    | .breach => s.badArg d
    | .ok _ weights => s.write d (checkWord weights))

end Sys2Proof.Machine
end

