-- ==== Sys2Proof/Machine/Matrix.lean ====
section
/-!
DEFINITION. The matrix engine and its queue (12_matrix.md R343 to R370, 03_numbers.md R87 to R90). An entry runs as it enters the queue,
or stays in it at a stop (log 24).
-/

namespace Sys2Proof.Machine

/-! ## Shapes (R348, R349, R365) -/

/-- Whether a type is one of the four that pair freely. -/
def narrowPair (t : Nat) : Bool := decide (12 ≤ t) && decide (t ≤ 15)

/-- Whether two types are a pair of Table 12.3. -/
def legalPair (at_ bt : Nat) : Bool := (narrowPair at_ && narrowPair bt) || (at_ == bt && (at_ == 16 || at_ == 17 || at_ == 11 || at_ == 10))

/-- Whether a pair is legal for mma.mx (Table 12.3). -/
def legalMx (at_ bt : Nat) : Bool := (narrowPair at_ && narrowPair bt) || (at_ == 16 && bt == 16)

/-- The element bits of an operand row: byte, nibble or two bytes (Table 12.3). -/
def operandBits (t : Nat) : Nat := if t = 16 then 4 else if t = 10 ∨ t = 11 then 16 else 8

/-- The number of elements of an operand row (R349). -/
def operandK (t : Nat) : Nat := 512 / operandBits t

/-- The type of A in a shape word. -/
def shapeA (shape : Word) : Nat := bits shape 4 0
/-- The type of B in a shape word. -/
def shapeB (shape : Word) : Nat := bits shape 12 8
/-- Whether a shape word's pair is outside Table 12.3. -/
def shapeBad (shape : Word) : Bool := shape.getLsbD 63

/-- The shape that an mshape instruction gives, with mnan and minf zero (R365). -/
def shapeGiven (w : Word) : Word :=
  if bits w 63 13 = 0 ∧ bits w 7 5 = 0 ∧ legalPair (bits w 4 0) (bits w 12 8) then w else 0x8000000000000000#64

/-! ## Accumulation (R367) -/

/-- An operand element's value (R68, R350). -/
def operandNum (t bits : Nat) : Num :=
  match elemOf t with
  | some e => e.read 0#64 bits
  | none => .fin false 0 0

/-- The product of element `k` of a row of A and of a column of B. -/
def mmaProduct (shape : Word) (row col k : Nat) : Num :=
  (mulNum (operandNum (shapeA shape) (elemAt (operandBits (shapeA shape)) row k))
    (operandNum (shapeB shape) (elemAt (operandBits (shapeB shape)) col k))).1

/-- The product of two lns6 elements of a row (03_numbers.md R90). -/
def mmaLns (row col k : Nat) : Num := lnsProduct (elemAt 8 row k % 64) (elemAt 8 col k % 64)

/-- The exact sum of block `q` of a row. -/
def blockSum (shape : Word) (row col q : Nat) : Exact := exactSum ((List.range 32).map fun i => mmaProduct shape row col (32 * q + i))

/-- An exact block sum times the scales of its block; a scale of 0xFF makes it NaN (03_numbers.md R89). -/
def scaledSum (s : Exact) (ea eb : Nat) : Exact :=
  if ea = 255 ∨ eb = 255 then .nan false else (scaleNum s.num (254 - ea - eb)).exact false

/-- An accumulator after a row and a column: `scale` gives the scales of a block for mma.mx (03_numbers.md R88 to R90). -/
def accumulateRow (shape : Word) (row col acc : Nat) (scale : Option (Nat → Nat × Nat)) : Nat :=
  if shapeA shape = 17 then accumulate acc (exactSum ((List.range 64).map (mmaLns row col)))
  else
    (List.range (operandK (shapeA shape) / 32)).foldl (fun a q =>
      match scale with
      | none => accumulate a (blockSum shape row col q)
      | some f => accumulate a (scaledSum (blockSum shape row col q) (f q).1 (f q).2)) acc

/-- Whether an f32 is NaN. -/
def isNan32 (b : Nat) : Bool := (FloatFmt.f32.read false b).isNan
/-- Whether an f32 is infinite. -/
def isInf32 (b : Nat) : Bool := b % 2 ^ 31 == 0x7F800000

/-- A tile after an mma, accumulator by accumulator, with whether a NaN and whether an infinity was written; an uncorrectable
accumulator stays as it is (R360, R367). -/
def mmaTile (shape : Word) (a latch : Nat) (scale : Option (Nat → Nat → Nat → Nat × Nat)) (stuck : Nat → Bool) (tile : Nat) :
    Nat × Bool × Bool :=
  (List.range 8192).foldl (fun acc i =>
    if stuck i then acc
    else
      let r := i / 256
      let j := i % 256
      let v := accumulateRow shape (elemAt 512 a r) (elemAt 512 latch j) (elemAt 32 acc.1 i) (scale.map fun f => f r j)
      (setElem 32 acc.1 i v, acc.2.1 || isNan32 v, acc.2.2 || isInf32 v)) (tile, false, false)

/-! ## Entries (R353, R366 to R370) -/

/-- A matrix entry's end: done, or stopped at an uncorrectable accumulator or chunk that it names (R360, R370). -/
abbrev MStop := Option Word

/-- The tile unit of an entry. -/
def State.unitData (s : State) (u : BitVec 3) : Nat := (s.mov.rows[u.toNat]'(u.isLt)).toNat

/-- A tile unit's rows replaced. -/
def State.setUnit (s : State) (u : BitVec 3) (data : Nat) : State :=
  s.updMov (movOf s.me.id) fun v => { v with rows := v.rows.set u.toNat (BitVec.ofNat 262144 data) u.isLt }

/-- A B latch of the core. -/
def State.latch (s : State) (l : BitVec 1) : Latch := s.me.latches[l.toNat]'(l.isLt)

/-- A B latch replaced. -/
def State.setLatch (s : State) (l : BitVec 1) (x : Latch) : State :=
  { s with me := { s.me with latches := s.me.latches.set l.toNat x l.isLt } }

/-- mnan and minf raised (R359). -/
def State.raiseShape (s : State) (nan inf : Bool) : State :=
  { s with me := { s.me with mshape := s.me.mshape ||| (if nan then 1#64 <<< 62 else 0#64) ||| (if inf then 1#64 <<< 61 else 0#64) } }

/-- mma and mma.mx: the tile accumulated (R367). -/
def State.mAccumulate (s : State) (e : MEntry) (scale : Option (Nat → Nat → Nat → Nat × Nat)) : State :=
  let stuck (i : Nat) : Bool := s.mov.bad.contains (8192 * e.unit.toNat + i)
  let r := mmaTile e.shape (s.me.ctx.vReg e.a.toNat) (s.latch e.latch).data.toNat scale stuck (s.unitData e.unit)
  (s.setUnit e.unit r.1).raiseShape r.2.1 r.2.2

/-- The latch after an mma.mx has loaded its scale set, where it held none (R351). -/
def scaledLatch (l : Latch) (v : Nat) : Latch :=
  if l.valid then l else { l with scales := BitVec.ofNat 8192 (v >>> 2048), valid := true }

/-- The scales of row `r`, column `j`, block `q` (R350). -/
def mxScales (v scales r j q : Nat) : Nat × Nat := (elemAt 8 v (4 * r + q), elemAt 8 scales (4 * j + q))

/-- The first uncorrectable accumulator of a half tile, by its grant offset (R360). -/
def State.badHalf (s : State) (u : BitVec 3) (tile : Nat) (half : Bool) : MStop :=
  let lo := if half then 4096 else 0
  ((List.range 4096).find? fun i => s.mov.bad.contains (8192 * u.toNat + lo + i)).map fun i => tileEaddr (32768 * tile + 4 * (lo + i))

/-- The first uncorrectable chunk of the scratchpad bytes of mload (R370). -/
def State.badChunk (s : State) (o : Nat) : MStop :=
  ((List.range 2048).find? fun i => s.isBad (scratchAddr s.me.id (o + 8 * i)) 8).map fun i => padEaddr s.me.id (o + 8 * i)

/-- The byte of a unit where a half tile starts (R369). -/
def halfStart (half : Bool) : Nat := if half then 16384 else 0

/-- mdetach executed: the copies that touch the units released are cancelled, and the units released (R364). -/
def State.detach (s : State) (units : Word) : State :=
  let keep := s.me.grant.length - min units.toNat s.me.grant.length
  let gone := s.me.grant.drop keep
  ((s.me.copies.filter fun c => c.unitsTouched.any gone.contains).foldl (fun acc c => acc.cancelCopy s.me.id c) s).releaseUnits s.me.id keep

/-- Whether a matrix entry is an mdrain. -/
def MEntry.isDrain (e : MEntry) : Bool :=
  match e.op with
  | .drain _ => true
  | _ => false

/-- The values of an mdrain: held by its marker in the vector queue, or at once architectural where it has none (R353, 07_coroutines.md
R199). -/
def Ctx.drain (c : Ctx) (e : MEntry) (v : Nat) : Ctx :=
  if c.vq.any fun q => q.op == .drained none && q.ord == e.ord then
    { c with vq := c.vq.map fun q =>
        if q.op == .drained none && q.ord == e.ord then { q with op := .drained (some (BitVec.ofNat 131072 v)) } else q }
  else c.setVGroup e.d.toNat 8 v

/-- The shape that the mshape instructions issued so far leave: the newest one still queued, else the register (R353). -/
def State.shapeAhead (s : State) : Word :=
  (s.me.ctx.mq.foldl (fun acc e => match e.op with
    | .shape w => w
    | _ => acc) s.me.mshape)

/-- A matrix entry executed (R365 to R370). -/
def State.mExecute (s : State) (e : MEntry) : State × MStop :=
  match e.op with
  | .detach units => (s.detach units, none)
  | .shape w => ({ s with me := { s.me with mshape := w } }, none)
  | .loadB => (s.setLatch e.latch { s.latch e.latch with data := BitVec.ofNat 131072 (s.me.ctx.vGroup e.b.toNat 8), valid := false }, none)
  | .mma => (s.mAccumulate e none, none)
  | .mmaMx =>
    let v := s.me.ctx.vReg e.b.toNat
    let l := scaledLatch (s.latch e.latch) v
    ((s.setLatch e.latch l).mAccumulate e (some (mxScales v l.scales.toNat)), none)
  | .zero => (s.updMov (movOf s.me.id) fun m => m.writeTile e.unit 0 32768 0, none)
  | .drain half =>
    match s.badHalf e.unit e.a.toNat half with
    | some x => (s, some x)
    | none => (s.updCtx fun c => c.drain e (s.mov.readTile e.unit (halfStart half) 16384), none)
  | .fill half => (s.updMov (movOf s.me.id) fun m => m.writeTile e.unit (halfStart half) 16384 (s.me.ctx.vGroup e.a.toNat 8), none)
  | .save o half =>
    match s.badHalf e.unit e.d.toNat half with
    | some x => (s, some x)
    | none =>
      (s.drained.physWriteCuts (scratchAddr s.me.id o.toNat) (s.mov.readTile e.unit (halfStart half) 16384)
        (cuts 32 (scratchAddr s.me.id o.toNat) 16384), none)
  | .load o half =>
    let s1 := s.drained
    match s1.badChunk o.toNat with
    | some x => (s, some x)
    | none =>
      (s1.updMov (movOf s.me.id) fun m => m.writeTile e.unit (halfStart half) 16384 (memRead s1.mem (scratchAddr s.me.id o.toNat) 16384), none)

/-- Whether the oldest entry of the matrix queue may start: once its registers allow it, an msave or mload follows every earlier vector
access to its scratchpad bytes (R370), which holds at a forced switch too (log 24), and an msave the accesses before a release that is
pending (09_visibility.md R270). -/
def State.matrixReady (s : State) : Bool :=
  s.me.ctx.matrixStarts &&
    match s.me.ctx.mq with
    | [] => false
    | m :: _ =>
      match m.padBytes with
      | none => true
      | some o =>
        (s.me.ctx.vq.all fun e => !(decide (e.ord < m.ord) && s.me.ctx.mayMeet e (s.meetsPad o))) &&
          !(m.op.isSave && s.me.outq.any fun p => p.op.srcSlot == s.slotNum && decide (p.vector < m.ord) && !s.me.accessesDone p)

/-- The oldest entry of the matrix queue started, once it may: executed and gone from the queue, or stopped with MEM_UNCORRECTABLE and held
with the later ones (R354, R360). -/
def State.mStart (s : State) : State :=
  match s.me.ctx.mq with
  | [] => s
  | e :: r =>
    if !s.matrixReady then s
    else
      match s.mExecute e with
      | (s1, none) => s1.updCtx fun c => { c with mq := r }
      | (_, some x) => (s.consumeBad s.who x).trap 0x08#8 x false s.pc

/-- Whether the oldest entry of the matrix queue stops at an uncorrectable unit (R360). -/
def State.mStuck (s : State) : Bool :=
  match s.me.ctx.mq with
  | [] => false
  | e :: _ => (s.mExecute e).2.isSome

/-- Up to `n` entries of the matrix queue started, as far as they may, short of one that stops (R354, 07_coroutines.md R199). -/
def State.mSettle (s : State) : Nat → State
  | 0 => s
  | n + 1 => if s.matrixReady && !s.mStuck then s.mStart.mSettle n else s

/-! ## Draining a core's queues (07_coroutines.md R228, 13_address_space.md R399) -/

/-- What one core does, the turn given to it for the while. -/
def State.asCore (s : State) (c : BitVec 10) (f : State → State) : State := (f (s.giveTurn c)).giveTurn s.me.id

/-- The queues of the running coroutine run on, entry by entry, up to a stop or a wait. -/
def State.drainQueues (s : State) : Nat → State
  | 0 => s
  | n + 1 =>
    if s.me.run.isNone || !s.me.ctx.hasFrame then s
    else (if s.matrixReady then s.mStart else s.vRun).drainQueues n

/-- The queues of a core's running coroutine drained, as far as they may. -/
def State.emptyQueues (s : State) (c : BitVec 10) : State :=
  s.asCore c fun t => t.drainQueues (t.me.ctx.vq.length + t.me.ctx.mq.length)

/-- Whether a core's running coroutine still has entries in its queues. -/
def State.drainsYet (s : State) (c : BitVec 10) : Bool := (s.coreAt c).run.isSome && (s.coreAt c).ctx.hasFrame

/-- The marker of an mdrain in the vector queue (R353). -/
def State.drainMarker (s : State) (e : MEntry) : VEntry :=
  { s.capture (.drained none) e.d 0#5 (.reg 0#5) 0#4 with dirty := vBits e.d 8, ord := e.ord }

/-- A matrix instruction put into the queue, an mdrain behind other entries with its marker in the vector queue (R353), the front end moving
on. -/
def State.mEnqueue (s : State) (e : MEntry) : State :=
  ((s.updCtx fun c =>
    { c with mq := c.mq ++ [e], vq := if e.isDrain && c.hasFrame then c.vq ++ [s.drainMarker e] else c.vq }).adv 4).mStart

/-- An entry of the instruction that executes, with its capture: the shape that earlier mshape instructions leave, and its tile's unit
(R353). -/
def State.mEntry (s : State) (op : MOp) (d a b : BitVec 5) (latch : BitVec 1) (tile : Nat) : MEntry :=
  ⟨op, d, a, b, latch, s.shapeAhead, s.me.grant.getD tile 0#3, s.pc, s.nextOrd, false⟩

/-- An instruction that names a tile: VECTOR_OFF where it touches a vector register while voff is set (R362), then ILLEGAL for its shape,
then GRANT for a tile outside the grant (R343). -/
def State.onTile (s : State) (usesVector legal : Bool) (tile : BitVec 3) (k : State) : State :=
  if usesVector && s.me.ctx.status.getLsbD 8 then s.vectorOff
  else if !legal then s.illegal
  else if s.issueCount ≤ tile.toNat then s.trapHere 0x0B#8 (tile.zeroExtend 64) false
  else k

/-- The base register of a group of 8 (R362). -/
def groupBase (g : BitVec 2) : BitVec 5 := g ++ 0#3

/-- The half that a register selects (R369, R370). -/
def State.half (s : State) (b : BitVec 5) : Bool := (s.x b).getLsbD 0

/-! ## Instructions -/

/-- mattach (R363). -/
def execMattach (a : BitVec 5) (s : State) : Result :=
  .next (
    let want := min (s.x a).toNat (8 - s.me.grant.length)
    let free := ((List.range 8).map (BitVec.ofNat 3)).filter fun u =>
      (s.mov.owner[u.toNat]'(u.isLt)).isNone && !s.mov.freeing.contains u
    let got := free.take want
    let s1 := s.updMov (movOf s.me.id) fun v =>
      { v with owner := Vector.ofFn fun i => if got.contains (BitVec.ofNat 3 i.val) then some s.me.id else v.owner[i] }
    { s1 with me := { s1.me with grant := s1.me.grant ++ got,
                                 rowwait := s1.me.rowwait + (if got.length < want then 1#64 else 0#64) } }.adv 4)

/-- mdetach (R364). -/
def execMdetach (a : BitVec 5) (s : State) : Result := .next (s.mEnqueue (s.mEntry (.detach (s.x a)) 0#5 0#5 0#5 0#1 0))

/-- mshape (R365). -/
def execMshape (a : BitVec 5) (s : State) : Result := .next (s.mEnqueue (s.mEntry (.shape (shapeGiven (s.x a))) 0#5 0#5 0#5 0#1 0))

/-- mldb (R366). -/
def execMldb (l : BitVec 1) (g : BitVec 2) (s : State) : Result :=
  .next (if s.me.ctx.status.getLsbD 8 then s.vectorOff else s.mEnqueue (s.mEntry .loadB 0#5 0#5 (groupBase g) l 0))

/-- mma (R367). -/
def execMma (d : BitVec 3) (a : BitVec 5) (l : BitVec 1) (s : State) : Result :=
  .next (s.onTile true (!shapeBad s.shapeAhead) d (s.mEnqueue (s.mEntry .mma (d.zeroExtend 5) a 0#5 l d.toNat)))

/-- mma.mx (R367). -/
def execMmaMx (d : BitVec 3) (a b : BitVec 5) (l : BitVec 1) (s : State) : Result :=
  .next (s.onTile true (!shapeBad s.shapeAhead && legalMx (shapeA s.shapeAhead) (shapeB s.shapeAhead)) d
    (s.mEnqueue (s.mEntry .mmaMx (d.zeroExtend 5) a b l d.toNat)))

/-- mzero (R368). -/
def execMzero (d : BitVec 3) (s : State) : Result :=
  .next (s.onTile false true d (s.mEnqueue (s.mEntry .zero (d.zeroExtend 5) 0#5 0#5 0#1 d.toNat)))

/-- mdrain (R369). Its destination's vdirty bits are set at issue, after room for its claim (05_lanes.md R134). -/
def execMdrain (g : BitVec 2) (t : BitVec 3) (b : BitVec 5) (s : State) : Result :=
  .next (s.onTile true true t (
    let dirty : Word := 0xFF#64 <<< (8 * g.toNat)
    match s.claimDirty dirty with
    | (s1, false) => s1
    | (s1, true) =>
      let e := s1.mEntry (.drain (s1.half b)) (groupBase g) (t.zeroExtend 5) 0#5 0#1 t.toNat
      ((s1.updCtx fun c => c.mark dirty).nameV (groupBase g)).mEnqueue e))

/-- mfill (R369). -/
def execMfill (t : BitVec 3) (g : BitVec 2) (b : BitVec 5) (s : State) : Result :=
  .next (s.onTile true true t (s.mEnqueue (s.mEntry (.fill (s.half b)) (t.zeroExtend 5) (groupBase g) 0#5 0#1 t.toNat)))

/-- The checks of the scratchpad offset of msave and mload (R370). -/
def State.padHalf (s : State) (o : Word) (st : Bool) (k : State) : State :=
  let e := BitVec.ofNat 64 scratchBase + s.me.id.zeroExtend 64 * 0x100000#64 + o
  if o.toNat % 1024 ≠ 0 then s.trapHere 0x03#8 e st
  else if o.toNat < 0x10000 ∨ 0x100000 < o.toNat + 16384 then s.trapHere 0x06#8 e st
  else k

/-- msave (R370). -/
def execMsave (t : BitVec 3) (a b : BitVec 5) (s : State) : Result :=
  .next (s.onTile false true t (s.padHalf (s.x a) true
    (s.mEnqueue (s.mEntry (.save (s.x a) (s.half b)) (t.zeroExtend 5) 0#5 0#5 0#1 t.toNat))))

/-- mload (R370). -/
def execMload (t : BitVec 3) (a b : BitVec 5) (s : State) : Result :=
  .next (s.onTile false true t (s.padHalf (s.x a) false
    (s.mEnqueue (s.mEntry (.load (s.x a) (s.half b)) (t.zeroExtend 5) 0#5 0#5 0#1 t.toNat))))

/-- MATRIX_ENTRY_START (R354): the oldest entry of the queue, once it may start. -/
def execMatrixEntryStart (s : State) : Result := .next s.mStart

/-- TILE_UNIT_FREE (R346): a released unit is zeroed, its check bits renewed, and free. -/
def execTileUnitFree (mov : BitVec 8) (unit : BitVec 3) (s : State) : Result :=
  .next (if !(s.movAt mov).freeing.contains unit then s
    else s.updMov mov fun v => { v.writeTile unit 0 32768 0 with freeing := v.freeing.filter (· ≠ unit) })

end Sys2Proof.Machine
end

