-- ==== Sys2Proof/Machine/SpaceInstr.lean ====
section
/-!
DEFINITION. The space instructions (13_address_space.md R387, R390 to R399): pools and frames, pcommit, pdecommit, palloc, pfree, tlbinv
and space.
-/

namespace Sys2Proof.Machine

/-! ## Frames (R390) -/

/-- A frame's entry, where it is not in state system. -/
def State.frame? (s : State) (f : Nat) : Option Frame := s.frames.find? fun e => e.num = f

/-- A frame's entry set. -/
def State.setFrame (s : State) (e : Frame) : State := { s with frames := e :: s.frames.filter fun o => o.num ≠ e.num }

/-- The link of a frame that is in no pool, and the bottom of a pool (Table 13.8). -/
def noFrame : BitVec 24 := 0xFFFFFF#24

/-- Whether a frame is in a state and belongs to a crew. -/
def State.frameIs (s : State) (f : Nat) (st : FrameState) (crew : BitVec 7) : Bool :=
  match s.frame? f with
  | none => false
  | some e => e.state = st && e.crew = crew

/-! ## Pools (R391) -/

/-- The physical address of a pool's record (Table 13.9). -/
def Crew.pool (r : Crew) (pool : Nat) : Nat := r.poolTable + 32 * pool

/-- A record's head doubleword after a push or a pop: tag + 1 and the new top (R391). -/
def poolHead (head : Nat) (top : BitVec 24) : Nat := ((head / 2 ^ 48 + 1) % 2 ^ 16) * 2 ^ 48 + top.toNat

/-- tksig of 1 by the device on a handle of crew 0, for the core that has committed a page (R391). -/
def State.deviceSignal (s : State) (h : Word) : State :=
  s.launchOp ⟨3#8, h, 1#64, 3#3, 0#64, false, 0#7, false, s.devNo, s.me.id, 0#8⟩

/-- The top frame popped off a pool, with the low-water signal (R391). -/
def State.popPool (s : State) (r : Crew) (pool : Nat) : Option (State × Nat) :=
  let a := r.pool pool
  let head := s.physRead a 8
  let f := head % 2 ^ 24
  if f = noFrame.toNat then none
  else
    let below := ((s.frame? f).map (·.link)).getD noFrame
    let count := s.physRead (a + 8) 4
    let low := s.physRead (a + 16) 4
    let h : Word := BitVec.ofNat 64 (s.physRead (a + 24) 8)
    let s1 := (s.physWrite a 8 (poolHead head below)).physWrite (a + 8) 4 (count - 1)
    some (if count = low + 1 ∧ h ≠ 0#64 then s1.deviceSignal h else s1, f)

/-- A frame pushed onto a pool of a crew (R391). -/
def State.pushPool (s : State) (r : Crew) (pool f : Nat) : State :=
  let a := r.pool pool
  let head := s.physRead a 8
  let s1 := s.setFrame ⟨f, .pooled, r.num, BitVec.ofNat 24 head⟩
  (s1.physWrite a 8 (poolHead head (BitVec.ofNat 24 f))).physWrite (a + 8) 4 (s1.physRead (a + 8) 4 + 1)

/-- The crew and pool that a pool word names, or the failure code (R393). -/
def State.poolOf (s : State) (w : Word) : Except Nat (Crew × Nat) :=
  let named := bits w 10 4
  if !s.sup && named != 0 then .error 6
  else if s.sup && (named == 0 || decide (64 < named)) then .error 6
  else
    match s.crew? (if s.sup then BitVec.ofNat 7 named else s.crew) with
    | none => .error 1
    | some r => .ok (r, bits w 3 0)

/-! ## The entries of a page (R387, R394) -/

/-- The address of the level-0 entry of an address, in a table of a space. -/
def State.leafAddr (s : State) (hostMode : Bool) (va ppn : Nat) : Nat :=
  (if hostMode then s.hostToPhys (ppn * 4096) else ppn * 4096) + 8 * ((va >>> 12) % 512)

/-- The address of the level-0 entry of a 64 KiB page's address, found down its pointers; none where one of them does not exist, or where one of
them or of the page's 16 entries cannot be read (R387, R393; log 74). -/
def State.level0 (s : State) (hostMode : Bool) (va : Nat) : List Nat → Nat → Option Nat
  | [], ppn => if s.isBad (s.leafAddr hostMode va ppn) 128 then none else some (s.leafAddr hostMode va ppn)
  | level :: rest, ppn =>
    let a := ppn * 4096 + 8 * ((va >>> (12 + 9 * level)) % 512)
    let pa := if hostMode then s.hostToPhys a else a
    if s.isBad pa 8 then none
    else
      let e : Word := BitVec.ofNat 64 (s.physRead pa 8)
      if e.getLsbD 0 && !e.getLsbD 1 && !e.getLsbD 2 then s.level0 hostMode va rest (ptePpn e) else none

/-- The first entry on an address's path, its 16 level-0 entries among them, that cannot be read (14_near_far_memory.md R410). -/
def State.badPath (s : State) (hostMode : Bool) (va : Nat) : List Nat → Nat → Option Nat
  | [], ppn => ((List.range 16).map fun i => s.leafAddr hostMode va ppn + 8 * i).find? fun a => s.isBad a 8
  | level :: rest, ppn =>
    let a := ppn * 4096 + 8 * ((va >>> (12 + 9 * level)) % 512)
    let pa := if hostMode then s.hostToPhys a else a
    if s.isBad pa 8 then some pa
    else
      let e : Word := BitVec.ofNat 64 (s.physRead pa 8)
      if e.getLsbD 0 && !e.getLsbD 1 && !e.getLsbD 2 then s.badPath hostMode va rest (ptePpn e) else none

/-- An uncorrectable entry on the path of an arena's page consumed, where there is one: pcommit and pdecommit have no trap for it (R393,
14_near_far_memory.md R410; log 74). -/
def State.consumePath (s : State) (va : Nat) : State :=
  match (s.crew? s.crew).bind fun r => (s.arenaAt r va).bind fun _ =>
      s.badPath (bits r.space 63 60 == 0xB) (va % 2 ^ 57) [4, 3, 2, 1] (bits r.space 43 0) with
  | none => s
  | some pa => s.consumeAt s.me.id pa va

/-- What pcommit and pdecommit act on: the crew, the arena's descriptor and the address of the page's first entry. -/
def State.arenaPage (s : State) (va : Nat) : Option (Crew × List Word × Nat) :=
  (s.crew? s.crew).bind fun r => (s.arenaAt r va).bind fun p =>
    (s.level0 (bits r.space 63 60 == 0xB) (va % 2 ^ 57) [4, 3, 2, 1] (bits r.space 43 0)).map fun a => (r, p.2, a)

/-- Whether the 16 entries of a page are all zero. -/
def State.entriesZero (s : State) (a : Nat) : Bool := (List.range 16).all fun i => s.physRead (a + 8 * i) 8 == 0

/-- The 16 entries of a page written. -/
def State.setEntries (s : State) (a : Nat) (e : Word) : State := (List.range 16).foldl (fun acc i => acc.physWrite (a + 8 * i) 8 e.toNat) s

/-- Whether a fault entry's page meets a range of an asid (R385). -/
def FaultEntry.meets (e : FaultEntry) (asid : BitVec 16) (lo hi : Nat) : Bool :=
  e.asid == asid && decide (e.key * e.size < hi) && decide (lo < e.key * e.size + e.size)

/-- Every unsignalled entry of a 64 KiB page signalled with 0 (R385). -/
def State.signalPage (s : State) (asid : BitVec 16) (va : Nat) : State := s.signalEntries (fun e => e.meets asid va (va + 65536)) 0#64

/-- The leaf entry of a committed page that lies at a 64 KiB page of its space's physical addresses: N, pbmt, PPN, D, A, U, W, R, V
(R394). -/
def committedPte (pbmt page : Nat) : Word := BitVec.ofNat 64 (2 ^ 63 + pbmt * 2 ^ 61 + (page * 16 + 8) * 2 ^ 10 + 0xD7)

/-- Whether a space's tables hold host addresses (R374). -/
def spaceHost (space : Word) : Bool := bits space 63 60 == 0xB

/-- The 64 KiB page by which a space's tables name a frame: its own number, or in mode 0xB the host page at which BAR2 maps it; none where
BAR2 does not (R374; log 60). -/
def State.framePage (s : State) (space : Word) (f : Nat) : Option Nat :=
  if !spaceHost space then some f
  else if f * 65536 + 65536 ≤ s.barSize ∧ f * 65536 + 65536 ≤ s.romBase then some (s.barBase / 65536 + f)
  else none

/-- The frame that an entry of a space names (R374). -/
def State.frameOf (s : State) (space e : Word) : Nat :=
  if spaceHost space then s.hostToPhys (ptePpn e / 16 * 65536) / 65536 else ptePpn e / 16

/-- A core without the translations of its micro-TLB and slices that `gone` selects (R380). -/
def Core.dropFirst (k : Core) (gone : TlbEntry → Bool) : Core :=
  { k with utlb := k.utlb.filter fun e => !gone e, slices := k.slices.map fun l => l.filter fun e => !gone e }

/-- Every translation of the device that `gone` selects: of a movement's TLB, a micro-TLB or a slice (R380). -/
def State.heldTranslations (s : State) (gone : TlbEntry → Bool) : List TlbEntry :=
  (s.movements.flatMap (fun v => v.tlb) ++ s.cores.flatMap fun k => k.utlb ++ k.slices.toList.flatten).filter gone

/-- The accesses that a translation gave performed at device scope: what every core holds of its page, at the page's place or, for a page of
host addresses, at each 4 KiB of it (R395 and R398 step 3). -/
def State.performPage (s : State) (e : TlbEntry) : State :=
  if !e.host then s.flushRange e.phys (e.phys + e.size)
  else if s.cores.all fun k => k.l1.isEmpty && k.wq.isEmpty then s
  else (List.range (e.size / 4096)).foldl (fun acc i => acc.flushRange (acc.hostToPhys (e.phys + 4096 * i)) (acc.hostToPhys (e.phys + 4096 * i) + 4096)) s

/-- The first address of a pointer entry's part of the space, in canonical form (R372). -/
def PointerEntry.base (e : PointerEntry) : Nat :=
  let a := e.path * 2 ^ (12 + 9 * e.level)
  if 2 ^ 56 ≤ a then a + (2 ^ 64 - 2 ^ 57) else a

/-- The translations and pointer entries selected removed on the whole device, and the accesses that they translated performed (R380,
R398 steps 2 and 3). -/
def State.dropEntries (s : State) (gone : TlbEntry → Bool) (path : PointerEntry → Bool) : State :=
  let held := s.heldTranslations gone
  let s0 : State := { s with
    movements := s.movements.map fun v => { v with tlb := v.tlb.filter fun e => !gone e }
    pointers := s.pointers.filter fun e => !path e }
  let s1 := s0.mapCores fun k => k.dropFirst gone
  held.foldl State.performPage s1

/-- Every translation removed that `covers` selects, on the whole device: asid, base and size (R380, R398). -/
def State.dropTranslations (s : State) (covers : BitVec 16 → Nat → Nat → Bool) : State :=
  let s1 : State := { s with ats := s.ats.filter fun e => !covers e.asid (e.page * 4096) 4096 }
  s1.dropEntries (fun e => covers e.asid e.base e.size)
    fun e => covers e.asid e.base (2 ^ (12 + 9 * e.level))

/-- An address with its offset in a 64 KiB page cleared. -/
def page64 (w : Word) : Nat := w.toNat / 65536 * 65536

/-! ## pcommit and pdecommit (R394, R395) -/

/-- The frame that a pcommit commits: the one given, or one popped and zeroed, at device scope: no core keeps older bytes of it. -/
def State.commitFrame (s : State) (r : Crew) (pool : Nat) (f0 : Word) : Option (State × Nat) :=
  if f0 ≠ 0#64 then some (s.flushRange (f0.toNat / 65536 * 65536) (f0.toNat / 65536 * 65536 + 65536), f0.toNat / 65536)
  else (s.popPool r pool).map fun p =>
    (((p.1.acquire 3#3).flushRange (p.2 * 65536) (p.2 * 65536 + 65536)).physZero (p.2 * 65536) 65536, p.2)

/-- pcommit (R394). -/
def execPcommit (d a b : BitVec 5) (s : State) : Result :=
  .next (
    let va := page64 (s.x a)
    let f0 := s.x b
    match s.arenaPage va with
    | none => (s.consumePath va).write d (failWord 6)
    | some (r, arena, pte) =>
      if f0.toNat % 65536 ≠ 0 ∨ (f0 ≠ 0#64 ∧ !s.frameIs (f0.toNat / 65536) .held r.num) then s.write d (failWord 6)
      else
        let asid := spaceAsid r.space
        let s1 := s.release 3#3
        if !s1.entriesZero pte then (s1.signalPage asid va).write d (failWord 5)
        else
          match s1.commitFrame r (bits (arena.getD 2 0#64) 3 0) f0 with
          | none => s1.write d (failWord 2)
          | some (s2, f) =>
            match s2.framePage r.space f with
            | none => s1.write d (failWord 6)
            | some page =>
              let s3 := (s2.setEntries pte (committedPte (bits (arena.getD 2 0#64) 62 61) page)).setFrame ⟨f, .mapped, r.num, noFrame⟩
              (s3.signalPage asid va).write d (BitVec.ofNat 64 (f * 65536)))

/-- pdecommit (R395): what any core still holds of the frame, through a translation that its TLB keeps no longer too, is performed on it before
it leaves the page (R392). It waits while a swap pair of the page is active (14_near_far_memory.md R414). -/
def execPdecommit (d a b : BitVec 5) (s : State) : Result :=
  .next (
    let va := page64 (s.x a)
    let fl := s.x b
    match s.arenaPage va with
    | none => (s.consumePath va).write d (failWord 6)
    | some (r, arena, pte) =>
      if bits fl 63 1 ≠ 0 then s.write d (failWord 6)
      else if s.swaps.any fun p => p.nearEntry == pte || p.farEntry == pte then s
      else
        let asid := spaceAsid r.space
        let s1 := s.release 3#3
        if s1.entriesZero pte then (s1.signalPage asid va).write d (failWord 5)
        else
          let f := s1.frameOf r.space (BitVec.ofNat 64 (s1.physRead pte 8))
          let s2 := ((s1.setEntries pte 0#64).dropTranslations fun i base size =>
            i == asid && decide (base < va + 65536) && decide (va < base + size)).flushRange (f * 65536) (f * 65536 + 65536)
          let s3 := if fl.getLsbD 0 then s2.pushPool r (bits (arena.getD 2 0#64) 3 0) f else s2.setFrame ⟨f, .held, r.num, noFrame⟩
          (s3.signalPage asid va).write d (BitVec.ofNat 64 (f * 65536)))

/-! ## palloc and pfree (R396, R397) -/

/-- palloc (R396). -/
def execPalloc (d a : BitVec 5) (s : State) : Result :=
  .next (match s.poolOf (s.x a) with
    | .error code => s.write d (failWord code)
    | .ok (r, pool) =>
      match s.popPool r pool with
      | none => s.write d (failWord 2)
      | some (s1, f) => ((s1.setFrame ⟨f, .held, r.num, noFrame⟩).acquire 3#3).write d (BitVec.ofNat 64 (f * 65536)))

/-- pfree (R397). -/
def execPfree (d a b : BitVec 5) (s : State) : Result :=
  .next (match s.poolOf (s.x a) with
    | .error code => s.write d (failWord code)
    | .ok (r, pool) =>
      let s1 := s.release 3#3
      let x := (s.x b).toNat
      let f := x / 65536
      if x % 65536 ≠ 0 ∨ hbmSize ≤ x ∨ s.romBase ≤ x then s1.write d (failWord 6)
      else if ((s1.frame? f).map (·.state)) = some .mapped then s1.write d (failWord 5)
      else if !(s1.frameIs f .held r.num) && !(s1.sup && (s1.frame? f).isNone) then s1.write d (failWord 6)
      else (s1.pushPool r pool f).write d 0#64)

/-! ## tlbinv and space (R398, R399) -/

/-- Whether a tlbinv covers a page (R398). -/
def invCovers (sel base len : Word) (asid : BitVec 16) (page size : Nat) : Bool :=
  match bits sel 1 0 with
  | 0 => asid == sel.extractLsb' 44 16 && decide (page < base.toNat + min len.toNat (2 ^ 47)) && decide (base.toNat < page + size) &&
      len != 0#64
  | 1 => asid == sel.extractLsb' 44 16
  | _ => true

/-- tlbinv (R398). -/
def execTlbinv (d a b c : BitVec 5) (s : State) : Result :=
  .next (
    if !s.sup then s.privilege
    else if bits (s.x a) 1 0 = 3 then s.write d (failWord 6)
    else
      let covers := invCovers (s.x a) (s.x b) (s.x c)
      let s1 := (s.release 3#3).dropTranslations covers
      (s1.signalEntries (fun e => covers e.asid (e.key * e.size) e.size) 0#64).write d 0#64)

/-- The space that a crew records: its own asid in place of the one given (R399, 17_host_security_power.md R456). -/
def crewSpaceWord (crew : BitVec 7) (w : Word) : Word := setBits w 59 44 (0x100 + crew.toNat)

/-- A crew's space replaced, on the cores bound to it as well (R399). -/
def State.setSpace (s : State) (crew : BitVec 7) (w : Word) : State :=
  (s.updCrew crew fun r => { r with space := w }).mapCores fun k => if k.bound = crew then { k with space := w } else k

/-- space (R399): the vector accesses in flight on the other cores bound to the crew are drained first; where one waits, so does the
instruction. -/
def execSpace (d a b : BitVec 5) (s : State) : Result :=
  .next (
    let n := (s.x a).toNat
    let mode := bits (s.x b) 63 60
    if !s.sup then s.privilege
    else if n = 0 ∨ 64 < n then s.write d (failWord 6)
    else
      match s.crew? (BitVec.ofNat 7 n) with
      | none => s.write d (failWord 1)
      | some r =>
        if mode ≠ 0 ∧ mode ≠ 0xA ∧ mode ≠ 0xB then s.write d (failWord 6)
        else
          let bound := (s.others.filter fun k => k.bound == r.num).map (·.id)
          let s1 := bound.foldl State.emptyQueues s
          if bound.any s1.drainsYet then s1
          else (s1.setSpace r.num (crewSpaceWord r.num (s.x b))).write d r.space)

end Sys2Proof.Machine
end

