-- ==== Sys2Proof/Machine/MemoryEvents.lean ====
section
/-!
DEFINITION. The steps of the walkers, caches, HBM stacks, swap unit and host link (13_address_space.md R376, R379, R385, 04_scalar.md R101,
14_near_far_memory.md R406 to R415, 17_host_security_power.md R452, R453).
-/

namespace Sys2Proof.Machine

/-! ## Translation (13_address_space.md R376, R379, R385) -/

/-- PAGE_WALK (13_address_space.md R376): the translation of an address of the running coroutine, into its movement's TLB. -/
def execPageWalk (va : Word) (store : Bool) (s : State) : Result := .next (s.translate s.who store va).1

/-- ATS_TRANSLATION_RESPONSE (13_address_space.md R379): the host's answer for a page that the device asked for. An access that it does not
permit takes its far-page fault when it is tried again. -/
def execAtsTranslationResponse (asid : BitVec 16) (va ha : Word) (perm : BitVec 2) (s : State) : Result :=
  .next (
    let page := va.toNat / 4096
    if !s.atsOut.contains (asid, page) then s
    else
      { s with
        ats := ⟨asid, page, ha.toNat / 4096, perm.getLsbD 0, perm.getLsbD 1⟩ ::
          s.ats.filter fun e => !(e.asid == asid && e.page == page)
        atsOut := s.atsOut.filter fun p => p != (asid, page) })

/-- ATS_INVALIDATE_REQUEST (13_address_space.md R379): the named translations removed, then the Invalidate Completion sent. -/
def execAtsInvalidateRequest (asid : BitVec 16) (va len : Word) (s : State) : Result :=
  .next (
    let s1 := s.dropTranslations fun i base size =>
      i == asid && decide (base < va.toNat + len.toNat) && decide (va.toNat < base + size)
    { s1 with atsDone := s1.atsDone + 1 })

/-- PRI_PAGE_RESPONSE (13_address_space.md R385): the fault entries of the page signalled, with 0 for Success and 1 otherwise. -/
def execPriPageResponse (asid : BitVec 16) (va : Word) (code : BitVec 4) (s : State) : Result :=
  .next (
    let s1 := { s with priOut := s.priOut.filter fun p => !(p.1 == asid && p.2.toNat / 4096 == va.toNat / 4096) }
    s1.signalEntries (fun e => e.asid == asid && e.key == va.toNat / e.size) (if code = 0#4 then 0#64 else 1#64))

/-! ## Write-backs and HBM (04_scalar.md R101, 14_near_far_memory.md R406 to R411) -/

/-- L1_WRITEBACK (04_scalar.md R101). -/
def execL1Writeback (line : Nat) (s : State) : Result := .next (s.cleanLine s.me.id line)

/-- The CRC failures of a burst on a lane of its channel recorded, which of the 72 the device knows (14_near_far_memory.md R407; log 61):
the record starts again where 2^24 bursts have passed since its first. -/
def State.laneFails (s : State) (c n : Nat) : State :=
  let lane := 72 * c + (Config.freeWord s.fresh).toNat % 72
  let kept := if (Config.freeWord (s.fresh + 1)).getLsbD 0 then s.laneErrors else s.laneErrors.filter fun p => p.1 ≠ lane
  { s with laneErrors := addCount kept lane n, fresh := s.fresh + 2 }

/-- The lane of a channel that has recorded 8 CRC failures (14_near_far_memory.md R407). -/
def State.failedLane? (s : State) (c : Nat) : Option Nat :=
  (s.laneErrors.find? fun p => p.1 / 72 == c && decide (8 ≤ p.2.toNat)).map fun p => p.1

/-- A lane of a channel repaired: on a spare of the channel, else on one of its partner, else the channel runs degraded
(14_near_far_memory.md R407, R408). -/
def State.repairLane (s : State) (c : Nat) : State :=
  let partner := c ^^^ 1
  let repaired : State := { s with lanerepair := addCount s.lanerepair c 1 }
  if 768 ≤ c then s
  else if countAt s.sparesUsed c < 2#64 then { repaired with sparesUsed := addCount s.sparesUsed c 1 }
  else if countAt s.sparesUsed partner < 2#64 then
    { repaired with sparesUsed := addCount s.sparesUsed partner 1, lanelend := s.lanelend + 1#64 }
  else { s with degraded := if s.degraded.contains c then s.degraded else c :: s.degraded }

/-- BURST_RESEND (14_near_far_memory.md R406): a burst whose first sending and whose first `fails` resends failed their CRC. A read that fails
all 4 resends is an uncorrectable one, of that read alone; a write is performed after a repair. -/
def execBurstResend (addr : Nat) (fails : BitVec 3) (write : Bool) (s : State) : Result :=
  .next (
    if hbmSize ≤ addr then s
    else
      let c := channelOf s.stripe addr
      let s1 := { s with crcretry := addCount s.crcretry c (min (fails.toNat + 1) 4) }.laneFails c (fails.toNat + 1)
      let unit := addr / 32 * 32
      if fails.toNat < 4 ∨ write ∨ s1.failing.contains unit then s1 else { s1 with failing := unit :: s1.failing })

/-- LIVE_LANE_REPAIR (14_near_far_memory.md R407, R408): a lane of the channel that has recorded 8 CRC failures is repaired, and its record
starts again. -/
def execLiveLaneRepair (chan : BitVec 10) (s : State) : Result :=
  .next (match s.failedLane? chan.toNat with
    | none => s
    | some lane => { s with laneErrors := s.laneErrors.filter fun p => p.1 ≠ lane }.repairLane chan.toNat)

/-- PATROL_SCRUB (14_near_far_memory.md R411): a burst read and, where it held a correctable error, corrected in place and counted. Whether it
held one is open (log 25). -/
def execPatrolScrub (addr : Nat) (s : State) : Result :=
  .next (
    let s1 := s.bump 1
    if hbmSize ≤ addr ∨ s.isBad (addr / 32 * 32) 32 ∨ (Config.freeWord s.fresh).getLsbD 0 = false then s1
    else { s1 with cecount := addCount s.cecount (stackLine s.stripe addr).1 1 })

/-! ## Soft errors (04_scalar.md R103, 10_scratchpad_copy.md R296, 12_matrix.md R360, 14_near_far_memory.md R410; log 57) -/

/-- An error of one bit or symbol met and corrected: counted at its place (Table 14.2). -/
def State.corrected (s : State) (place : Nat) : State := { s with cecount := addCount s.cecount place 1 }

/-- A double-bit error in a unit of a core's L1: a clean line is invalidated, to be fetched again; in a line with dirty bytes a unit with none
is fetched again, and one with dirty bytes is held (04_scalar.md R103). -/
def Core.strike (k : Core) (l : L1Line) (unit : BitVec 3) : Core :=
  let m := byteMask (8 * unit.toNat) 8
  if l.dirty = 0#64 then k.putLine { l with valid := 0#64 }
  else if l.dirty &&& m = 0#64 then k.putLine { l with valid := l.valid &&& ~~~m }
  else k.putLine { l with held := l.held ||| (1#8 <<< unit) }

/-- A double-bit error in a unit of an L2 line: a clean line is fetched again from HBM, and in a dirty one the unit is uncorrectable
(14_near_far_memory.md R410). -/
def State.strikeL2 (s : State) (l : L2Line) (unit : BitVec 5) : State :=
  if !l.dirty then { s with l2 := s.l2.filter fun m => m.line ≠ l.line }
  else { s with l2 := s.l2.map fun m => if m.line = l.line then { m with bad := m.bad ||| (1#32 <<< unit) } else m }

/-- An error beyond correction in the unit of memory at an address. -/
def State.strikeMemory (s : State) (addr : Nat) : State :=
  let u := addr / unitSize addr * unitSize addr
  if s.bad.contains u then s else { s with bad := u :: s.bad }

/-- The core that a tile unit's errors are counted at: the one that holds it, else the movement's first (log 25). -/
def State.tilePlace (s : State) (mov : BitVec 8) (acc : Nat) : Nat :=
  1024 + (((s.movAt mov).owner.toList.getD (acc / 8192) none).getD (mov ++ 0#2)).toNat

/-- A soft error met. -/
def State.upset (s : State) : Upset → State
  | .l1 core line unit double =>
    match (s.coreAt core).line? line with
    | none => s
    | some l =>
      if l.valid &&& byteMask (8 * unit.toNat) 8 = 0#64 then s
      else if double then s.updCore core fun k => k.strike l unit
      else s.corrected (1024 + core.toNat)
  | .l2 line unit double =>
    match s.l2Line? line with
    | none => s
    | some l => if double then s.strikeL2 l unit else s.corrected (2048 + s.l2Die line)
  | .memory addr double =>
    match regionOf addr with
    | .hbm => if double then s.strikeMemory addr else s.corrected (stackLine s.stripe addr).1
    | .scratch c _ => if double then s.strikeMemory addr else s.corrected (1024 + c.toNat)
    | .istore _ _ => s
    | .host _ => s
    | .reserved => s
  | .tile mov acc double =>
    if 65536 ≤ acc then s
    else if double then s.updMov mov fun v => if v.bad.contains acc then v else { v with bad := acc :: v.bad }
    else s.corrected (s.tilePlace mov acc)

/-! ## Swap pairs (14_near_far_memory.md R412 to R415) -/

/-- The swap unit's outcome sent to a completion future (14_near_far_memory.md R412, R414). -/
def State.swapOutcome (s : State) (future value : Word) : State :=
  s.launchOp
    { code := 5#8, handle := future, operand := value, scope := 3#3, reply := 0#64, toStatus := false, crew := 0#7, isUser := false,
      srcDev := s.devNo, srcCore := 0#10, srcSlot := 0#8 }

/-- Whether the tables of an asid hold host addresses (14_near_far_memory.md R412, 13_address_space.md R374). -/
def State.asidHost (s : State) (asid : BitVec 16) : Bool :=
  if spaceAsid s.supSpace = asid then spaceHost s.supSpace
  else ((s.crews.find? fun r => spaceAsid r.space == asid).map fun r => spaceHost r.space).getD false

/-- Whether an entry is a valid Svnapot leaf that names a 64 KiB page: by the device's physical address of it, or the host's where the
tables hold host addresses (14_near_far_memory.md R412, 13_address_space.md R374). -/
def State.namesPage (s : State) (host : Bool) (e : Word) (page : Nat) : Bool :=
  e.getLsbD 0 && (e.getLsbD 1 || e.getLsbD 2) && e.getLsbD 63 && pteLeafOk host 0 e && !e.getLsbD 60 &&
    (if host then s.hostToPhys (ptePpn e / 16 * 65536) == page else ptePpn e / 16 == page / 65536)

/-- Whether the 16 entries at an address name a page. -/
def State.entriesName (s : State) (host : Bool) (a page : Nat) : Bool :=
  (List.range 16).all fun i => s.namesPage host (BitVec.ofNat 64 (s.physRead (a + 8 * i) 8)) page

/-- The 64 KiB page number that an entry takes to name a page. -/
def State.pageName (s : State) (host : Bool) (page : Nat) : Nat :=
  if !host then page / 65536 else if isHost page then (page - hostBase) / 65536 else (s.barBase + page) / 65536

/-- Whether a swap request passes its check (14_near_far_memory.md R412, Table 14.3). -/
def State.swapOk (s : State) (r : List Word) : Bool :=
  let near := (r.getD 0 0#64).toNat
  let far := (r.getD 1 0#64).toNat
  let ne := (r.getD 2 0#64).toNat
  let fe := (r.getD 3 0#64).toNat
  near % 65536 == 0 && decide (near < hbmSize) && far % 65536 == 0 && isHost far && decide (far < 2 ^ 56) && ne % 8 == 0 && fe % 8 == 0 &&
    s.entriesName (s.asidHost ((r.getD 5 0#64).extractLsb' 44 16)) ne near &&
    s.entriesName (s.asidHost ((r.getD 5 0#64).extractLsb' 44 16)) fe far && (r.getD 5 0#64) &&& ~~~0x0FFFF00000000000#64 == 0#64 && r.getD 6 0#64 == 0#64 &&
    r.getD 7 0#64 == 0#64

/-- The lines of a 64 KiB page cleaned and invalidated in every scalar L1 and in L2 (14_near_far_memory.md R413 step 1, R414). -/
def State.flushPage (s : State) (page : Nat) : State := (s.flushRange page (page + 65536)).flushL2 page (page + 65536)

/-- SWAP_REQUEST (14_near_far_memory.md R412, R413): the next request of the ring accepted, or completed with BADARG. -/
def execSwapRequest (s : State) : Result :=
  .next (
    if s.swapRung = 0 ∨ 16 ≤ s.swaps.length then s
    else
      let r := s.physReadDws (Config.swapRing.toNat + 64 * s.swapNext) 8
      let future := r.getD 4 0#64
      let s1 := { s with swapNext := (s.swapNext + 1) % Config.swapEntries.toNat, swapRung := s.swapRung - 1 }
      if !s1.swapOk r then s1.swapOutcome future (failWord 6)
      else
        let near := (r.getD 0 0#64).toNat
        let far := (r.getD 1 0#64).toNat
        let s2 := (s1.flushPage near).flushPage far
        { s2 with swaps := s2.swaps ++
          [⟨near, far, (r.getD 2 0#64).toNat, (r.getD 3 0#64).toNat, future, (r.getD 5 0#64).extractLsb' 44 16, 0#256⟩] })

/-- The lowest line of a pair that is not exchanged. -/
def SwapPair.nextLine (p : SwapPair) : Option Nat := (List.range 256).find? fun j => !p.bitmap.getLsbD j

/-- The offsets of the uncorrectable 8-byte units of a line of 256 bytes, as a reader of it meets them: those of its line of L2, else its bursts
of HBM, each as four units (14_near_far_memory.md R410; log 25). -/
def State.lineBad (s : State) (a : Nat) : List Nat := ((List.range 32).map fun i => 8 * i).filter fun o => s.isBad (a + o) 8

/-- The uncorrectable units after two lines have changed places, which move with their data: into HBM as bursts (R413; log 25). -/
def State.moveBad (s : State) (a b : Nat) : List Nat :=
  (s.bad.filter fun u => u / 256 ≠ a / 256 ∧ u / 256 ≠ b / 256) ++ (s.lineBad a).map (fun o => b + o) ++
    ((s.lineBad b).map fun o => a + o / 32 * 32).eraseDups

/-- SWAP_LINE_EXCHANGE (14_near_far_memory.md R413 step 2): the next line of an active pair exchanged and its bit set; a line of the near page
that L2 has taken again since step 1 leaves it with the exchange. -/
def execSwapLineExchange (pair : BitVec 4) (s : State) : Result :=
  .next (match s.swaps[pair.toNat]? with
    | none => s
    | some p =>
      match p.nextLine with
      | none => s
      | some j =>
        let a := p.near + 256 * j
        let b := p.far + 256 * j
        let va := memRead s.mem a 256
        let vb := memRead s.mem b 256
        { s with
          mem := memWrite (memWrite s.mem a 256 vb) b 256 va
          bad := s.moveBad a b
          failing := s.failing.filter fun u => u / 256 ≠ a / 256
          l2 := s.l2.filter fun l => l.line ≠ a / 256
          swaps := s.swaps.set pair.toNat { p with bitmap := p.bitmap ||| (1#256 <<< j) } })

/-- The PPN of the 16 entries at an address swapped from one page to another, each where it still names its page; whether all did
(14_near_far_memory.md R414). -/
def State.swapEntries (s : State) (host : Bool) (a page dest : Nat) : Nat → State × Bool
  | 0 => (s, true)
  | n + 1 =>
    let e : Word := BitVec.ofNat 64 (s.physRead a 8)
    if s.namesPage host e page then
      (s.physWrite a 8 (setBits e 53 10 (s.pageName host dest * 16 + 8)).toNat).swapEntries host (a + 8) page dest n
    else ((s.swapEntries host (a + 8) page dest n).1, false)

/-- The cached translations of a pair's pages removed and the accesses that they translated performed (14_near_far_memory.md R414). -/
def State.dropPair (s : State) (p : SwapPair) : State :=
  let within (pa page : Nat) : Bool := decide (page ≤ pa) && decide (pa < page + 65536)
  let place (e : TlbEntry) : Nat := if e.host then s.hostToPhys e.phys else e.phys
  s.dropEntries (fun e => within (place e) p.near || within (place e) p.far) fun _ => false

/-- SWAP_PAIR_RETIRE (14_near_far_memory.md R414). -/
def execSwapPairRetire (pair : BitVec 4) (s : State) : Result :=
  .next (match s.swaps[pair.toNat]? with
    | none => s
    | some p =>
      if p.nextLine.isSome then s
      else
        match s.swapEntries (s.asidHost p.asid) p.nearEntry p.near p.far 16 with
        | (s1, ok1) =>
          match s1.swapEntries (s.asidHost p.asid) p.farEntry p.far p.near 16 with
          | (s2, ok2) =>
            let s3 := ((s2.dropPair p).flushPage p.near).flushPage p.far
            { s3 with swaps := s3.swaps.eraseIdx pair.toNat, swapdone := s3.swapdone + 1#64 }.swapOutcome p.future
              (if ok1 && ok2 then 0#64 else failWord 5))

/-! ## The host link (17_host_security_power.md R452, R453) -/

/-- Whether BAR2 reaches HBM at an offset (17_host_security_power.md R452). -/
def State.barReaches (s : State) (offset n : Nat) : Bool := decide (offset + n ≤ s.romBase) && decide (offset + n ≤ hbmSize)

/-- BAR2_ACCESS (17_host_security_power.md R452): `size` bytes from an offset. A read is answered with its value, or with Completer Abort
where it consumes an uncorrectable unit. -/
def execBar2Access (write : Bool) (offset : Nat) (size : BitVec 4) (value : Word) (s : State) : Result :=
  .next (
    let n := min size.toNat 8
    if write then (if s.barReaches offset n then s.physWriteBytes offset n value.toNat else s)
    else if !s.barReaches offset n then { s with barOut := s.barOut ++ [some (lowBytes 0xFFFFFFFFFFFFFFFF#64 n)] }
    else if (List.range n).any fun i => s.isBad (offset + i) 1 then
      { s with barOut := s.barOut ++ [none] }.consumeAt 0#10 (((List.range n).find? fun i => s.isBad (offset + i) 1).getD 0 + offset) offset
    else { s with barOut := s.barOut ++ [some (BitVec.ofNat 64 (s.physReadBytes offset n))] })

/-- BAR2 placed by the host, at a multiple of its size, a power of two from 1 GiB to 1 TiB (17_host_security_power.md R452). -/
def State.placeBar (s : State) (base : Nat) (log : BitVec 4) : State :=
  let size := 2 ^ (30 + log.toNat)
  if s.kerlo.trained && decide (log.toNat ≤ 10) then { s with barBase := base / size * size, barSize := size } else s

/-- PCIE_LINK_TRAINING (17_host_security_power.md R452): the link trains in FLIT mode and BAR2 is placed, or it stays untrained. -/
def execPcieLinkTraining (flit : Bool) (s : State) : Result :=
  .next (
    if !flit then { s with kerlo := { s.kerlo with trained := false }, barSize := 0 }
    else
      { s with kerlo := { s.kerlo with trained := true }, barBase := Config.barBase.toNat * 2 ^ 30,
               barSize := 2 ^ (30 + min Config.barLog.toNat 10) })

/-- IDE_KM (17_host_security_power.md R453): the key of an IDE stream programmed, 0 the link stream and 1 to 4 the selective ones. -/
def execIdeKm (stream : BitVec 3) (key : Word) (s : State) : Result :=
  .next { s with kerlo := { s.kerlo with ideKeys := s.kerlo.ideKeys.setIfInBounds stream.toNat (some key) } }

end Sys2Proof.Machine
end

