-- ==== Sys2Proof/Machine/Power.lean ====
section
/-!
DEFINITION. Boot, movement power states and gating (17_host_security_power.md R459, R465 to R467).
-/

namespace Sys2Proof.Machine

/-! ## Boot (R459) -/

/-- HBM trained: every lane that fails is repaired (14_near_far_memory.md R407, R408). -/
def State.trainLanes (s : State) : State :=
  (List.range 768).foldl (fun acc c => (List.range (Config.lanesFailed c).toNat).foldl (fun a _ => a.repairLane c) acc) s

/-- BOOT (R459): the ROM verifies its patch store, trains HBM with repair, fixes Bs, its own range and the supervisor space, draws a context
key, zeroes the scratchpads, tile stores and instruction stores, whose check bits that renews (10_scratchpad_copy.md R296, 12_matrix.md R360),
and sets ready; the stored patch, which was verified, takes effect (R460). The context caches hold nothing yet. -/
def execBoot (s : State) : Result :=
  .next (
    if s.kerlo.ready then s
    else
      let clear (m : List Host.Cell) : List Host.Cell :=
        memClear (memClear m scratchBase (scratchBase + 2 ^ 30)) istoreBase (istoreBase + 2 ^ 27)
      { s.trainLanes with
        mem := clear s.mem
        bad := s.bad.filter fun u => regionOf u == .hbm
        movements := s.movements.map fun v => { v with rows := Vector.replicate 8 0#262144, bad := [] }
        supSpace := Config.supervisorSpace
        romBase := hbmSize - 65536 * min Config.romFrames.toNat 0xC00000
        stripe := 0x300000000 * min Config.stripeUnits.toNat 64
        contextKey := Config.contextKey s.fresh
        fresh := s.fresh + 1
        kerlo := { s.kerlo with ready := true, patch := if s.kerlo.pendingPatch ≠ 0#16 then s.kerlo.pendingPatch else s.kerlo.patch } })

/-! ## Movements -/

/-- The cores of a movement as they stand. -/
def State.coresOf (s : State) (m : BitVec 8) : List Core := (movCores m).map s.coreAt

/-- Whether a slot of the movement is ready. -/
def State.movReady (s : State) (m : BitVec 8) : Bool := (s.coresOf m).any fun k => k.slots.any fun t => t.state == .ready

/-- Whether no coroutine of the movement runs. -/
def State.movStopped (s : State) (m : BitVec 8) : Bool := (s.coresOf m).all fun k => k.run.isNone

/-- Whether the movement's copy engine and matrix queues are drained: no command is running or startable, and no running coroutine's queue holds
an entry (R466). -/
def State.movDrained (s : State) (m : BitVec 8) : Bool :=
  (s.coresOf m).all fun k => (k.run.isNone || k.ctx.mq.isEmpty) && k.copies.all fun c => !(c.state == .running || c.state == .queued)

/-- A movement's power state set. -/
def State.setPower (s : State) (m : BitVec 8) (p : Power) : State := s.updMov m fun v => { v with power := p, leaving := false }

/-- A clock lowered to a free value, no lower than a floor (R465). -/
def lowered (floor now free : Word) : Word := BitVec.ofNat 64 (min now.toNat (max floor.toNat free.toNat))

/-- POWER_THROTTLE (R465): a movement's clocks lowered, to no less than 200 MHz arithmetic and 400 MHz scalar, and the episode logged. -/
def execPowerThrottle (mov : BitVec 8) (s : State) : Result :=
  .next (((s.bump 2).updMov mov fun v =>
    { v with clock := lowered 200#64 v.clock (Config.freeWord s.fresh),
             scalarClock := lowered 400#64 v.scalarClock (Config.freeWord (s.fresh + 1)) }).logError 5 mov.toNat)

/-- Whether automatic gating may lower a movement: no slot is ready or running, and its engines are drained (R466). -/
def State.idleMov (s : State) (m : BitVec 8) : Bool :=
  s.kerlo.gating == 1#1 && s.movStopped m && !s.movReady m && s.movDrained m

/-- AUTO_GATE_M1 (R466, Table 17.5). -/
def execAutoGateM1 (mov : BitVec 8) (s : State) : Result :=
  .next (if s.idleMov mov && (s.movAt mov).power == .m0 then s.setPower mov .m1 else s)

/-- AUTO_GATE_M2 (R466, Table 17.5). -/
def execAutoGateM2 (mov : BitVec 8) (s : State) : Result :=
  .next (if s.idleMov mov && ((s.movAt mov).power == .m0 || (s.movAt mov).power == .m1) then s.setPower mov .m2 else s)

/-- Whether a gated movement has a slot ready (Table 17.5). -/
def State.mustWake (s : State) (m : BitVec 8) : Bool :=
  ((s.movAt m).power == .m1 || (s.movAt m).power == .m2) && s.movReady m

/-- MOVEMENT_WAKE (R466, Table 17.5): a slot that is ready returns its movement to M0. -/
def execMovementWake (mov : BitVec 8) (s : State) : Result := .next (if s.mustWake mov then s.setPower mov .m0 else s)

/-! ## Entry and exit (R466, R467) -/

/-- The running coroutines of a movement switched out as by PREEMPT without a record (R466). -/
def State.stopMov (s : State) (m : BitVec 8) : State := (movCores m).foldl (fun acc c => acc.preemptOut c 0x0D#8) s

/-- The running coroutines of a movement switched out by force without a record (R467). -/
def State.parkMov (s : State) (m : BitVec 8) : State :=
  (movCores m).foldl (fun acc c =>
    let k := acc.coreAt c
    match k.run with
    | none => acc
    | some n => { acc with fresh := acc.fresh + 44 }.setCore ((k.forceOut acc.fresh fun t => { t with waitFor := .nothing }).stamp n)) s

/-- Whether a movement refuses M3 for good: a core of it is bound to a user crew or holds a grant, a copy command of crew 0 is stopped or
waits on a fault token, or an unsignalled fault entry holds one of its fault cells (R466, R467). -/
def State.refusesM3 (s : State) (m : BitVec 8) : Bool :=
  ((s.coresOf m).any fun k => k.bound != 0#7 || !k.grant.isEmpty ||
    k.copies.any fun c => c.state == .stopped || c.state == .waiting) ||
  s.faults.any fun e => !e.signalled && decide (hCore e.token ∈ movCores m) && decide (0x40 ≤ (hIndex e.token).toNat) &&
    decide ((hIndex e.token).toNat < 0x80)

/-- Whether every copy command of a movement has ended. -/
def State.copiesEnded (s : State) (m : BitVec 8) : Bool := (s.coresOf m).all fun k => k.copies.isEmpty

/-- The scratchpads and the instruction store of a movement zeroed. -/
def State.zeroMov (s : State) (m : BitVec 8) : State :=
  ((movCores m).foldl (fun acc c => acc.physZero (scratchAddr c 0) (2 ^ 20)) s).physZero (istoreAddr m 0) (2 ^ 19)

/-- A movement's entry into M3: its supervisor slots kept, its cores left as a reset leaves them but for their record queues, and its
arrays zeroed (R467; log 26). -/
def State.enterM3 (s : State) (m : BitVec 8) : State :=
  let kept := (s.coresOf m).map fun k => (k.id, k.slots)
  let s1 := (movCores m).foldl (fun acc c => ((acc.drainCore c).cleanL1 c).updCore c fun k => { Core.reset c with records := k.records }) s
  (s1.zeroMov m).setMov { Movement.reset m with power := .m3, kept := kept }

/-- A kept slot back in its core: waiting, ready or held, with a new sequence number (R467). -/
def State.reseat (s : State) (c : BitVec 10) (t : Slot) : State :=
  (s.updCore c fun k => k.putSlot { t with state := if t.state = .held then .held else .waiting, woken := false, spilled := false }).beginWait
    c t.num

/-- A movement's exit from M3: its kept slots restored (R467). -/
def State.leaveM3 (s : State) (m : BitVec 8) : State :=
  let kept := (s.movAt m).kept
  kept.foldl (fun acc p => p.2.foldl (fun a t => a.reseat p.1 t) acc) (s.setMov (Movement.reset m))

end Sys2Proof.Machine
end

