-- ==== Sys2Proof/Machine/System.lean ====
section
/-!
DEFINITION. The system instructions: control registers, svc, tret, brk, ifence, and the front end's trap on a reserved encoding
(04_scalar.md R97 to R100, R120 to R124, 02_encoding.md R39).
-/

namespace Sys2Proof.Machine

/-! ## Control registers as words -/

/-- grant (12_matrix.md Table 12.1). -/
def Core.grantWord (k : Core) : Word :=
  BitVec.ofNat 64 (k.grant.length * 2 ^ 28 + (k.grant.foldr (fun u acc => u.toNat + 8 * acc) 0))

/-- crew (07_coroutines.md Table 7.11). -/
def Core.crewWord (k : Core) : Word := (k.rsv.zeroExtend 64 <<< 16) ||| k.bound.zeroExtend 64

/-- ident (01_machine.md Table 1.5). -/
def identWord (dev core : BitVec 10) : Word := dev ++ core ++ 0x1001400E500#44

/-- The cause of a record held open (07_coroutines.md Table 7.8). -/
def Record.causeWord (r : Record) : Word :=
  0x8000000000000000#64 ||| (r.rcoid.zeroExtend 64 <<< 40) ||| Machine.causeWord r.code r.vec r.st

/-- cause, or the open record's (07_coroutines.md R208). -/
def Ctx.causeReg (c : Ctx) : Word := match c.record with
  | none => c.cause
  | some r => r.causeWord
/-- eaddr, or the open record's (07_coroutines.md R208). -/
def Ctx.eaddrReg (c : Ctx) : Word := match c.record with
  | none => c.eaddr
  | some r => r.eaddr
/-- epc, or the open record's (07_coroutines.md R208). -/
def Ctx.epcReg (c : Ctx) : Word := match c.record with
  | none => c.epc.zeroExtend 64
  | some r => r.epc.zeroExtend 64

/-- The value of control register `n` (02_encoding.md Table 2.10). -/
def State.creg (s : State) (n : BitVec 12) : Word :=
  let c := s.me.ctx
  match n.toNat with
  | 0x000 => c.vl
  | 0x001 => c.vtype
  | 0x002 => c.vstart.zeroExtend 64
  | 0x003 => c.pc.zeroExtend 64
  | 0x004 => c.ldst.zeroExtend 64
  | 0x005 => c.fcr
  | 0x006 => c.prng
  | 0x007 => c.status
  | 0x008 => c.vdirty
  | 0x010 => s.me.grantWord
  | 0x011 => s.me.mshape
  | 0x020 => s.coid.zeroExtend 64
  | 0x021 => s.me.crewWord
  | 0x022 => c.quantum
  | 0x030 => c.causeReg
  | 0x031 => c.eaddrReg
  | 0x032 => c.epcReg
  | 0x033 => s.me.tvec
  | 0x040 => s.me.space
  | 0xC00 => s.me.cyc
  | 0xC01 => identWord s.devNo s.me.id
  | 0xC10 => s.me.spills
  | 0xC11 => s.me.cpqwait
  | 0xC12 => s.me.rowwait
  | 0xC13 => s.me.tlbmiss
  | 0xC14 => s.me.logappend
  | 0xC15 => s.me.winrefuse
  | 0xC16 => s.lanelend
  | _ => 0#64

/-! ## Writes -/

/-- A write of cause by its holder or its own coroutine at S (07_coroutines.md Table 7.8). -/
def Ctx.writeCause (c : Ctx) (w : Word) : Ctx := match c.record with
  | none => { c with cause := w &&& 0x3FF#64 }
  | some r => { c with record := some { r with code := w.extractLsb' 0 8, vec := w.getLsbD 8, st := w.getLsbD 9 } }
/-- A write of eaddr at S (07_coroutines.md R208). -/
def Ctx.writeEaddr (c : Ctx) (w : Word) : Ctx := match c.record with
  | none => { c with eaddr := w }
  | some r => { c with record := some { r with eaddr := w } }
/-- A write of epc (07_coroutines.md R208). -/
def Ctx.writeEpc (c : Ctx) (w : Word) : Ctx := match c.record with
  | none => { c with epc := w.truncate 19 }
  | some r => { c with record := some { r with epc := w.truncate 19 } }

/-- A write of quantum at S, whose class the escapement ranks by (07_coroutines.md R187, Table 7.7). -/
def State.writeQuantum (s : State) (w : Word) : State :=
  let k := s.me.updSlot s.slotNum fun t => { t with cls := w.extractLsb' 62 2 }
  { s with me := { k with ctx := { k.ctx with quantum := w &&& 0xC3FFFFFFFFFFFFFF#64 } } }

/-- A write of control register `n` at the running coroutine's level; a register that is RO there keeps its value
(Table 4.2, R98, R120). -/
def State.writeCreg (s : State) (n : BitVec 12) (w : Word) : State :=
  match n.toNat with
  | 0x000 => if s.sup then s.updCtx fun c => { c with vl := w &&& 0xFFFFFFFF#64 } else s
  | 0x001 => if s.sup then s.updCtx fun c => { c with vtype := w &&& 0x8000000000000FFF#64 } else s
  | 0x002 => if s.sup then s.updCtx fun c => { c with vstart := w.truncate 16 } else s
  | 0x004 => s.updCtx fun c => { c with ldst := w.truncate 6 }
  | 0x005 => s.updCtx fun c => { c with fcr := fcrWrite c.fcr w }
  | 0x006 => s.updCtx fun c => { c with prng := prngWrite w }
  | 0x007 => s.updCtx fun c => { c with status := statusWrite s.sup c.status w }
  | 0x008 => if s.sup then { s with me := { s.me with ctx := s.me.ctx.setDirty (w &&& 0xFFFFFFFFFFF#64) }.fit 256 } else s
  | 0x022 => if s.sup then s.writeQuantum w else s
  | 0x030 => if s.sup then s.updCtx fun c => c.writeCause w else s
  | 0x031 => if s.sup then s.updCtx fun c => c.writeEaddr w else s
  | 0x032 => s.updCtx fun c => c.writeEpc w
  | 0x033 => if s.sup then { s with me := { s.me with tvec := w &&& 1#64 } } else s
  | _ => s

/-- The flags that a write of fcr or status settles, of the instructions before it whose flags are still to come: those in `sel` are as the
write leaves them (03_numbers.md R84, R100). -/
def State.settleFlags (s : State) (n : BitVec 12) (sel : Word) : State :=
  match n.toNat with
  | 0x005 => s.updCtx fun c => { c with vq := c.vq.map fun e => { e with pins := e.pins ||| sel } }
  | 0x007 =>
    let s1 := s.updCtx fun c => { c with vq := c.vq.map fun e => { e with statusPins := e.statusPins ||| sel } }
    { s1 with me := { s1.me with outq := s1.me.outq.map fun o =>
        if o.op.srcSlot = s.slotNum then { o with mutes := o.mutes ||| sel } else o } }
  | _ => s

/-- Whether an access of control register `n` traps PRIVILEGE (Table 4.2). -/
def State.cregDenied (s : State) (n : BitVec 12) : Bool := n == 0x033#12 && !s.sup

/-- An access of control register `n`: ILLEGAL where no register has the number, PRIVILEGE where the level has no access, else its
effect (R120). -/
def State.cregAccess (s : State) (n : BitVec 12) (f : State → State) : State :=
  if !assignedCreg n then s.illegal else if s.cregDenied n then s.privilege else f s

/-- crd (R120). -/
def execCrd (d : BitVec 5) (n : BitVec 12) (s : State) : Result :=
  .next (s.cregAccess n fun s => if n = 0x007#12 ∧ s.statusPending s.slotNum then s else s.write d (s.creg n))
/-- cwr (R120). -/
def execCwr (n : BitVec 12) (a : BitVec 5) (s : State) : Result :=
  .next (s.cregAccess n fun s => ((s.writeCreg n (s.x a)).settleFlags n (BitVec.allOnes 64)).adv 4)
/-- cset (R120). -/
def execCset (n : BitVec 12) (a : BitVec 5) (s : State) : Result :=
  .next (s.cregAccess n fun s => ((s.writeCreg n (s.creg n ||| s.x a)).settleFlags n (s.x a)).adv 4)
/-- cclr (R120). -/
def execCclr (n : BitVec 12) (a : BitVec 5) (s : State) : Result :=
  .next (s.cregAccess n fun s => ((s.writeCreg n (s.creg n &&& ~~~s.x a)).settleFlags n (s.x a)).adv 4)

/-! ## svc, tret, brk, ifence -/

/-- The live set of an svc: x8 to x31 and the dirty v and m registers (R121, 07_coroutines.md R197). -/
def svcLive (vdirty : Word) : Word := 0xFFFFFF0000000000#64 ||| (vdirty &&& 0xFFFFFFFFFF#64)

/-- A service request: a voluntary switch, the coroutine held, and a SERVICE record (R121, 07_coroutines.md R197, R206, R209). -/
def State.service (s : State) (n : BitVec 12) : State :=
  let epc := s.pc + 4#19
  let k := { s.me with ctx := s.me.ctx.stopped 0#8 (n.zeroExtend 64) false epc }
  let k1 := k.volunteer (svcLive s.me.ctx.vdirty) fun t => { t with state := .held, records := t.records + 1 }
  { s with me := { k1 with records := k1.records ++ [⟨0#8, false, false, s.coid, n.zeroExtend 64, epc, none, false, s.me.id⟩] } }

/-- svc (R121). -/
def execSvc (n : BitVec 12) (s : State) : Result := .next (s.service n)

/-- tret (R122). -/
def execTret (s : State) : Result :=
  .next (match s.me.ctx.record with
    | none => s.illegal
    | some r => (s.trapReturn r).adv 4)

/-- brk (R123). -/
def execBrk (n : BitVec 12) (s : State) : Result := .next (s.trapHere 0x0F#8 (n.zeroExtend 64) false)

/-- ifence: earlier stores performed at movement scope; a later fetch reads the instruction store as it stands (R124). -/
def execIfence (s : State) : Result := .next ((s.release 1#3).adv 4)

/-- A reserved or unassigned encoding traps ILLEGAL with no effect (02_encoding.md R39). -/
def execReservedEncoding (s : State) : Result := .next s.illegal

end Sys2Proof.Machine
end

