-- ==== Sys2Proof/Machine/Kerlo.lean ====
section
/-!
DEFINITION. The Kerlo command set (17_host_security_power.md R454 to R468, R492): each command acts on the oldest queued one.
-/

namespace Sys2Proof.Machine

/-! ## Commands and their completion (R454, R455) -/

/-- Parameter doubleword `i` of a command; 0 is its header. -/
def KerloCmd.p (c : KerloCmd) (i : Nat) : Word := c.dw.getD i 0#64
/-- The opcode of a command (R454). -/
def KerloCmd.op (c : KerloCmd) : Nat := bits (c.p 0) 7 0

/-- What a command that has run to its end answers: its error code (Table 17.2), its result and the reply area's doublewords. -/
structure Done where
  code : BitVec 8
  result : Word
  reply : List (Nat × Word)
  deriving DecidableEq, Repr

/-- A crown doubleword set. -/
def putDw (l : List (Nat × Word)) (key : Nat) (v : Word) : List (Nat × Word) := (key, v) :: l.filter fun p => p.1 ≠ key

/-- Whether IDE is on: a stream has a key (R453). -/
def Kerlo.ide (k : Kerlo) : Bool := k.ideKeys.toList.any Option.isSome

/-- Doubleword `i` of the MSI-X table: a vector's address, then its data and its control word, whose bit 32 masks it (R452; log 64). -/
def Kerlo.msixWord (k : Kerlo) (i : Nat) : Word :=
  ((k.msix.find? fun p => p.1 = i).map fun p => p.2).getD (if i % 2 = 1 then 0x100000000#64 else 0#64)

/-- Whether an MSI-X vector is masked (log 64). -/
def Kerlo.masked (k : Kerlo) (v : Nat) : Bool := (k.msixWord (2 * v + 1)).getLsbD 32

/-- The crown's first doubleword (Table 17.1). -/
def Kerlo.head (k : Kerlo) : Word := 0x0001#16 ++ 0#15 ++ BitVec.ofBool k.ready ++ k.patch ++ k.dbg ++ k.life

/-- The doubleword that a host read of BAR0 gives (Table 17.1, R452): the doorbell is write-only, and what is not named reads zero
(log 54); the MSI-X table has two doublewords for each of its 64 vectors, which a reset leaves masked, and the pending bits one for all
(log 64). -/
def Kerlo.crownWord (k : Kerlo) (o : Nat) : Word :=
  if o % 8 ≠ 0 then 0#64
  else if o = 0 then k.head
  else if 0x400 ≤ o ∧ o < 0x800 then
    (if o % 16 = 0 then countAt k.status ((o - 0x400) / 16) else countAt k.result ((o - 0x400) / 16))
  else if 0x8000 ≤ o ∧ o < 0x10000 then countAt k.slots ((o - 0x8000) / 8)
  else if 0x10000 ≤ o ∧ o < 0x10400 then k.msixWord ((o - 0x10000) / 8)
  else if o = 0x10800 then k.pba
  else 0#64

/-- A doorbell write for slot `j`: ignored while the slot holds a command that is not done, else done is cleared and a snapshot of dw 0 to
31 is queued (R455). -/
def Kerlo.doorbell (k : Kerlo) (j : BitVec 6) : Kerlo :=
  if k.queue.any fun c => c.slot == j then k
  else
    { k with
      status := putDw k.status j.toNat (setBits (countAt k.status j.toNat) 63 63 0)
      queue := k.queue ++ [⟨j, (List.range 32).map fun i => countAt k.slots (64 * j.toNat + i)⟩] }

/-- A host write of a BAR0 doubleword: the doorbell, a slot or the MSI-X table; every other offset ignores it (Table 17.1, R452; log 54). -/
def Kerlo.crownWrite (k : Kerlo) (o : Nat) (v : Word) : Kerlo :=
  if o = 8 then k.doorbell (v.extractLsb' 0 6)
  else if o % 8 = 0 ∧ 0x8000 ≤ o ∧ o < 0x10000 then { k with slots := putDw k.slots ((o - 0x8000) / 8) v }
  else if o % 8 = 0 ∧ 0x10000 ≤ o ∧ o < 0x10400 then { k with msix := putDw k.msix ((o - 0x10000) / 8) v }
  else k

/-- An MSI-X message requested: sent, or pending while its vector is masked (R455; log 64). -/
def State.sendMsix (s : State) (v : Nat) : State :=
  if s.kerlo.masked v then { s with kerlo := { s.kerlo with pba := s.kerlo.pba ||| (1#64 <<< v) } }
  else { s with msixOut := s.msixOut ++ [v] }

/-- The pending messages of vectors that are no longer masked sent (log 64). -/
def State.sendPending (s : State) : State :=
  let due := (List.range 64).filter fun v => s.kerlo.pba.getLsbD v && !s.kerlo.masked v
  { s with
    msixOut := s.msixOut ++ due
    kerlo := { s.kerlo with pba := due.foldl (fun acc v => acc &&& ~~~(1#64 <<< v)) s.kerlo.pba } }

/-- A package reset: the device as State.reset has it, but for the lifecycle state and the patch store, which persist (R460, R461), what the
outside has still to send, and what the device has sent (log 65). -/
def State.packageReset (s : State) : State :=
  { State.reset with
    kerlo := { Kerlo.reset with access := s.kerlo.access, life := s.kerlo.life, pendingPatch := s.kerlo.pendingPatch,
                                patchStore := s.kerlo.patchStore }
    upsets := s.upsets, lag := s.lag, inbox := s.inbox, atsOut := s.atsOut, atsDone := s.atsDone, priOut := s.priOut,
    msixOut := s.msixOut, barOut := s.barOut, podOut := s.podOut, fresh := s.fresh }

/-- What the host does to the function (R452, R454, R455, R459); what a read gives leaves through barOut. -/
def State.crownAccess (s : State) (a : CrownAccess) : State :=
  match a with
  | .read o => { s with barOut := s.barOut ++ [some (s.kerlo.crownWord o)] }
  | .write o v => { s with kerlo := s.kerlo.crownWrite o v }.sendPending
  | .placeBar base log => s.placeBar base log
  | .packageReset => s.packageReset

/-- The oldest command completed: its reply and result, then its status, then the message that its header requests (R455). -/
def State.finishCmd (s : State) (c : KerloCmd) (r : Done) : State :=
  let j := c.slot.toNat
  let s1 : State := { s with
    kerlo := { s.kerlo with
      slots := r.reply.foldl (fun acc p => putDw acc (64 * j + p.1) p.2) s.kerlo.slots
      result := putDw s.kerlo.result j r.result
      status := putDw s.kerlo.status j (0x8000000000000000#64 ||| r.code.zeroExtend 64)
      queue := s.kerlo.queue.drop 1 } }
  if (c.p 0).getLsbD 8 then s1.sendMsix (bits (c.p 0) 14 9) else s1

/-- Whether a command's reserved fields are zero: its header above bit 14, and every parameter bit outside `mask` (R454, R455). -/
def KerloCmd.clean (c : KerloCmd) (mask : Nat → Word) : Bool :=
  bits (c.p 0) 63 15 == 0 && (List.range 31).all fun i => c.p (i + 1) &&& ~~~mask (i + 1) == 0#64

/-- Every bit of parameters `lo` to `hi`. -/
def allOf (lo hi : Nat) (i : Nat) : Word := if lo ≤ i ∧ i ≤ hi then 0xFFFFFFFFFFFFFFFF#64 else 0#64

/-- A command that completes. -/
def State.done (s : State) (code : BitVec 8) (result : Word) : State × Option Done := (s, some ⟨code, result, []⟩)

/-- The oldest command run, where it is the one that `own` tells (R455). One that has to wait leaves no answer. -/
def State.runCmd (s : State) (own : KerloCmd → Bool) (mask : Nat → Word) (f : KerloCmd → State × Option Done) : State :=
  match s.kerlo.queue with
  | [] => s
  | c :: _ =>
    if !own c then s
    else if !c.clean mask then s.finishCmd c ⟨0x01#8, 0#64, []⟩
    else
      match f c with
      | (s1, none) => s1
      | (s1, some r) => s1.finishCmd c r

/-- A command of an unknown opcode completed with BADCMD, and one of an unknown op field with BADARG unless a reserved field is not zero
(R455, Table 17.2). -/
def State.refuseCmd (s : State) : State :=
  match s.kerlo.queue with
  | [] => s
  | c :: _ =>
    let last : Nat := if c.op = 0x02 then 19 else if c.op = 0x0B then 6 else if c.op = 0x0C then 14 else 0
    s.finishCmd c ⟨if last = 0 || !c.clean (allOf 1 last) then 0x01#8 else 0x02#8, 0#64, []⟩

/-- The error code for an instruction's failure word, which has its code in its lowest byte and else bit 63 alone (R492, 07_coroutines.md
R217); 0 for a result. -/
def failureCode (w : Word) : BitVec 8 :=
  if !w.getLsbD 63 || bits w 62 8 != 0 || bits w 7 0 == 0 then 0#8
  else
    match bits w 7 0 with
    | 1 => 0x03#8
    | 2 => 0x05#8
    | 5 => 0x04#8
    | _ => 0x02#8

/-- A command that fails as an instruction does (R492). -/
def State.failed (s : State) (code : Nat) : State × Option Done := s.done (failureCode (failWord code)) (failWord code)

/-! ## IDENTIFY and ATTEST (R456, R461, R462) -/

/-- The mask of movements not in M3, as four doublewords. -/
def State.liveMovements (s : State) (i : Nat) : Word :=
  BitVec.ofNat 64 ((List.range 64).foldl (fun acc b =>
    if (s.movAt (BitVec.ofNat 8 (64 * i + b))).power = .m3 then acc else acc + 2 ^ b) 0)

/-- The state word of IDENTIFY (Table 17.3). -/
def Kerlo.stateWord (k : Kerlo) : Word :=
  BitVec.ofNat 64 (k.life.toNat + 2 ^ 8 * k.dbg.toNat + 2 ^ 16 * k.patch.toNat + (if k.ide then 2 ^ 32 else 0) + 2 ^ 33 * k.gating.toNat)

/-- IDENTIFY (Table 17.3). -/
def execIdentify (s : State) : Result :=
  .next (s.runCmd (fun c => c.op == 0x01) (fun _ => 0#64) fun _ =>
    let rma := s.kerlo.life = 2#8
    let s1 := if rma then { s with kerlo := { s.kerlo with challenge := s.fresh }, fresh := s.fresh + 6 } else s
    (s1, some ⟨0#8, 0#64,
      [(32, identWord s.devNo 0#10), (33, BitVec.ofNat 64 s.stripe), (34, Config.swapRing.zeroExtend 64), (35, s.kerlo.stateWord),
        (36, s.liveMovements 0), (37, s.liveMovements 1), (38, s.liveMovements 2), (39, s.liveMovements 3)] ++
      ((List.range 12).map fun i => (40 + i, Config.identityKey i)) ++
      ((List.range 6).map fun i => (52 + i, if rma then Config.freeWord (s.fresh + i) else 0#64)) ++
      [(58, BitVec.ofNat 64 s.romBase), (59, BitVec.ofNat 64 (hbmSize - s.romBase))]⟩))

/-- The attestation report's doublewords (Table 17.4). -/
def State.report32 (s : State) (nonce : List Word) : List Word :=
  [1#64, identWord s.devNo 0#10,
    BitVec.ofNat 64 (s.kerlo.life.toNat + 2 ^ 8 * s.kerlo.dbg.toNat + 2 ^ 16 * s.kerlo.gating.toNat + (if s.kerlo.ide then 2 ^ 17 else 0) +
      2 ^ 32 * s.kerlo.patch.toNat)] ++ nonce ++
    (List.range 6).map (fun i => Config.cipherWord 0 s.kerlo.patchStore 0#64 i) ++
    [Config.uniqueId 0, Config.uniqueId 1, 0#64]

/-- Whether a command is an op of an opcode. -/
def KerloCmd.isOp (c : KerloCmd) (op sub : Nat) : Bool := c.op == op && (c.p 1).toNat == sub

/-- ATTEST op 0 (R461). -/
def execAttestReport (s : State) : Result :=
  .next (s.runCmd (fun c => c.isOp 0x02 0) (allOf 1 7) fun c =>
    let body := s.report32 ((List.range 6).map fun i => c.p (2 + i))
    (s, some ⟨0#8, 0#64, ((body ++ (List.range 12).map fun i => Config.cipherWord 1 body 0#64 i).zipIdx).map fun p => (32 + p.2, p.1)⟩))

/-- ATTEST op 1 (R462). -/
def execAttestWrap (s : State) : Result :=
  .next (s.runCmd (fun c => c.isOp 0x02 1) (allOf 1 13) fun c =>
    (s.bump 1, some ⟨0#8, 0#64,
      (List.range 18).map fun i => (32 + i, Config.cipherWord 2 (BitVec.ofNat 64 s.fresh :: c.dw.drop 2) s.contextKey i)⟩))

/-- ATTEST op 2 (R462). -/
def execAttestUnwrap (s : State) : Result :=
  .next (s.runCmd (fun c => c.isOp 0x02 2) (allOf 1 19) fun c =>
    let blob := (List.range 18).map fun i => c.p (2 + i)
    if !s.crews.isEmpty then s.done 0x04#8 0#64
    else if !Config.signatureOk 2 blob 0#64 then s.done 0x0A#8 0#64
    else ({ s with contextKey := Config.unwrapKey blob }).done 0#8 0#64)

/-! ## Crews (R456, R458) -/

/-- How many frames a crew's signal log takes (08_tokens.md R247). -/
def ringFrames (k : BitVec 5) : Nat := (32 * 2 ^ k.toNat + 65535) / 65536

/-- The first frame of a crew's signal log, and the first behind it. -/
def Crew.ring (r : Crew) : Nat × Nat := (r.logBase / 65536, r.logBase / 65536 + ringFrames r.logSize)

/-- Whether `n` frames from `f` on are in state system below the range that the ROM holds, and no signal log has one. -/
def State.framesFree (s : State) (total n f : Nat) : Bool :=
  decide (f + n ≤ total) && (s.frames.all fun e => decide (e.num < f) || decide (f + n ≤ e.num)) &&
    s.crews.all fun r => decide (r.ring.2 ≤ f) || decide (f + n ≤ r.ring.1)

/-- `n` neighbouring system frames that the ROM takes: from the one that it would choose, or behind one that is taken, or the first
(Table 17.3; log 17). -/
def State.systemFrames (s : State) (total n : Nat) : Option Nat :=
  (((Config.chosenFrame s.fresh).toNat % total :: 0 :: s.frames.map fun e => e.num + 1) ++ s.crews.map fun r => r.ring.2).find?
    (s.framesFree total n)

/-- How many frames below the ROM's range are in state system and in no signal log. -/
def State.framesLeft (s : State) (total : Nat) : Nat :=
  total - (s.frames.length + s.crews.foldl (fun acc r => acc + ringFrames r.logSize) 0)

/-- `n` frames of state system, which the ROM chooses, pushed onto pool 0 of a crew (Table 17.3; log 17). -/
def State.givePool (s : State) (r : Crew) : Nat → State
  | 0 => s
  | n + 1 =>
    let total := s.romBase / 65536
    match s.systemFrames total 1 with
    | none => s
    | some f => ((s.bump 1).pushPool r 0 f).givePool r n

/-- The 16 pools of a new crew, empty (13_address_space.md R391). -/
def State.emptyPools (s : State) (r : Crew) : State :=
  (List.range 16).foldl (fun acc i => (acc.physWrite (r.pool i) 8 noFrame.toNat).physWrite (r.pool i + 8) 4 0) s

/-- Whether a physical address is one of Table 13.1 that is not reserved. -/
def mapped (pa : Nat) : Bool := regionOf pa != .reserved

/-- The lowest crew number that is free. -/
def State.lowestCrew (s : State) : Option Nat := ((List.range 64).map (· + 1)).find? fun n => (s.crew? (BitVec.ofNat 7 n)).isNone

/-- The crew that a CREW_CREATE describes, with its signal log from a frame on. -/
def crewOfCmd (c : KerloCmd) (n ring : Nat) : Crew where
  num := BitVec.ofNat 7 n
  space := crewSpaceWord (BitVec.ofNat 7 n) (c.p 3)
  reserve := (c.p 2).extractLsb' 0 5
  logSize := (c.p 2).extractLsb' 8 5
  logBase := 65536 * ring
  logHead := 0
  logTail := 0
  faulted := false
  consent := (c.p 2).getLsbD 16
  pasid := (c.p 4).extractLsb' 0 20
  arenaTable := (c.p 5).toNat
  poolTable := (c.p 6).toNat

/-- Whether a field of a CREW_CREATE is outside its range (Table 17.3). -/
def badCrew (c : KerloCmd) : Bool :=
  let mode := bits (c.p 3) 63 60
  decide (64 < (c.p 1).toNat) || bits (c.p 2) 4 0 == 0 || decide (16 < bits (c.p 2) 4 0) || decide (bits (c.p 2) 12 8 < 8) ||
    decide (20 < bits (c.p 2) 12 8) || !(mode == 0 || mode == 0xA || mode == 0xB) || !mapped (c.p 5).toNat || !mapped (c.p 6).toNat

/-- The parameter bits of CREW_CREATE. -/
def crewMask (i : Nat) : Word :=
  match i with
  | 2 => 0x11F1F#64
  | 4 => 0xFFFFF#64
  | _ => allOf 1 7 i

/-- CREW_CREATE (Table 17.3, Table 17.6). -/
def execCrewCreate (s : State) : Result :=
  .next (s.runCmd (fun c => c.op == 0x03) crewMask fun c =>
    if s.kerlo.life = 2#8 then s.done 0x07#8 0#64
    else if badCrew c then s.done 0x02#8 0#64
    else
      let n := if c.p 1 = 0#64 then s.lowestCrew.getD 0 else (c.p 1).toNat
      if n = 0 then s.done 0x05#8 0#64
      else if (s.crew? (BitVec.ofNat 7 n)).isSome then s.done 0x03#8 0#64
      else
        let total := s.romBase / 65536
        let k : BitVec 5 := (c.p 2).extractLsb' 8 5
        if s.framesLeft total < (c.p 7).toNat + ringFrames k then s.done 0x05#8 0#64
        else
          match s.systemFrames total (ringFrames k) with
          | none => s.done 0x05#8 0#64
          | some f =>
            let r := crewOfCmd c n f
            (({ s with crews := r :: s.crews, fresh := s.fresh + 1 }.emptyPools r).givePool r (c.p 7).toNat).done 0#8 (BitVec.ofNat 64 n))

/-- Whether a record names a user coroutine of a core. -/
def Record.ofUser (r : Record) (c : BitVec 10) : Bool := coidCore r.rcoid == c && !supSlot (coidSlot r.rcoid)

/-- The user slots of a core emptied, with the records that name them (R458 step 1). -/
def State.emptyUsers (s : State) (c : BitVec 10) : State :=
  let strip (x : Ctx) : Ctx := { x with record := x.record.map fun r => if r.ofUser c then { r with detached := true } else r }
  let s1 := s.updCore c fun k =>
    let k1 := { k with slots := k.slots.filter fun t => supSlot t.num }
    if k.run.isSome && !supSlot (k.run.getD 0#8) then { k1 with run := none, ctx := Ctx.reset, passed := none } else k1
  s1.mapCores fun k =>
    { k with
      records := k.records.filter fun r => !r.ofUser c
      watches := k.watches.filter fun w => !(w.dev == s.devNo && w.core == c && !supSlot w.slot)
      ctx := strip k.ctx
      slots := k.slots.map fun t => { t with ctx := strip t.ctx } }

/-- A crew's copy commands cancelled (R458 step 2). -/
def State.cancelCrew (s : State) (n : BitVec 7) : State :=
  s.cores.foldl (fun acc k => (k.copies.filter fun c => c.crew = n).foldl (fun a c => a.cancelCopy k.id c) acc) s

/-- A crew's windows set closing, and those freed that are drained (R458 step 4, 16_pod.md R447). -/
def State.closeWindows (s : State) (n : BitVec 7) : State :=
  { s with windows := (s.windows.map fun w => if w.owner = n then { w with state := .closing } else w).filter fun w =>
      !(w.owner == n && s.inFlight w == 0) }

/-- Every queued write of the device performed. -/
def State.drainAll (s : State) : State := s.cores.foldl (fun acc k => acc.drainCore k.id) s

/-- A crew's frames zeroed and returned to state system, after every store to them (R458 step 5). -/
def State.freeFrames (s : State) (n : BitVec 7) : State :=
  let mine := s.frames.filter fun f => f.crew = n
  let s1 := mine.foldl (fun acc f => (acc.flushPage (f.num * 65536)).physZero (f.num * 65536) 65536) s.drainAll
  { s1 with frames := s1.frames.filter fun f => f.crew ≠ n }

/-- The first four steps of a crew's destruction (R458). -/
def State.tearDown (s : State) (n : BitVec 7) : State :=
  let bound := (s.cores.filter fun k => k.bound = n).map fun k => k.id
  let s1 := bound.foldl (fun acc c => acc.emptyUsers c) s
  (bound.foldl (fun acc c => acc.bindCore c 0#7) (s1.cancelCrew n)).closeWindows n

/-- The last steps of a crew's destruction: its frames, translations, fault entries, watch ranges and signal log gone (R458). -/
def State.forget (s : State) (n : BitVec 7) : State :=
  let asid : BitVec 16 := 0x100#16 + n.zeroExtend 16
  let s1 := (s.freeFrames n).dropTranslations fun i _ _ => i == asid
  { s1 with crews := s1.crews.filter (fun r => r.num ≠ n), faults := s1.faults.filter (fun e => e.asid ≠ asid),
            watchRanges := s1.watchRanges.filter fun w => w.crew ≠ n }

/-- A crew destroyed (R458); none while operations admitted to its windows are in flight. -/
def State.destroyCrew (s : State) (n : BitVec 7) : State × Bool :=
  let s1 := s.tearDown n
  if s1.windows.any fun w => w.owner = n then (s1, false) else (s1.forget n, true)

/-- CREW_DESTROY (R458). -/
def execCrewDestroy (s : State) : Result :=
  .next (s.runCmd (fun c => c.op == 0x04) (allOf 1 1) fun c =>
    let n := (c.p 1).toNat
    if n = 0 ∨ 64 < n then s.done 0x02#8 0#64
    else if (s.crew? (BitVec.ofNat 7 n)).isNone then s.done 0x03#8 0#64
    else
      match s.destroyCrew (BitVec.ofNat 7 n) with
      | (s1, true) => s1.done 0#8 0#64
      | (s1, false) => (s1, none))

/-! ## CODE_LOAD and BIND (R456) -/

/-- The movements that four mask doublewords name. -/
def maskMovs (c : KerloCmd) (lo : Nat) : List (BitVec 8) :=
  ((List.range 256).filter fun m => (c.p (lo + m / 64)).getLsbD (m % 64)).map (BitVec.ofNat 8)

/-- The number that pieces of a physical range hold, from the lowest byte. -/
def State.physReadCuts (s : State) (pa : Nat) : List (Nat × Nat) → Nat
  | [] => 0
  | (o, n) :: r => s.physRead (pa + o) n + 256 ^ n * s.physReadCuts pa r

/-- Whether a physical range can be read: every byte lies in one region that is not reserved, and none is uncorrectable. -/
def State.readable (s : State) (pa n : Nat) : Bool := mapped pa && mapped (pa + n - 1) && !s.isBad pa n

/-- A command whose operand cannot be read completed with FAULT; an uncorrectable unit of it is consumed (14_near_far_memory.md R410). -/
def State.refuseRead (s : State) (pa n : Nat) : State × Option Done :=
  (if mapped pa && mapped (pa + n - 1) then
    match (List.range n).find? fun i => s.isBad (pa + i) 1 with
    | none => s
    | some i => s.consumeAt 0#10 (pa + i) (pa + i)
  else s).done 0x0C#8 0#64

/-- CODE_LOAD (Table 17.3). -/
def execCodeLoad (s : State) : Result :=
  .next (s.runCmd (fun c => c.op == 0x05) (allOf 1 8) fun c =>
    let src := (c.p 1).toNat
    let n := (c.p 2).toNat
    let off := (c.p 3).toNat
    let movs := maskMovs c 4
    if n = 0 ∨ n % 2 = 1 ∨ off % 2 = 1 ∨ 64 < (c.p 8).toNat then s.done 0x02#8 0#64
    else if 524288 < off + n then s.done 0x06#8 0#64
    else if movs.any fun m => (s.coresOf m).any fun k => k.bound != 0#7 && k.bound.toNat != (c.p 8).toNat then s.done 0x04#8 0#64
    else if movs.any fun m => (s.movAt m).power == .m3 then s.done 0x09#8 0#64
    else if !s.readable src n then s.refuseRead src n
    else
      let v := s.physReadCuts src (cuts 8 src n)
      (movs.foldl (fun acc m => acc.physWriteCuts (istoreAddr m off) v (cuts 8 (istoreAddr m off) n)) s).done 0#8 0#64)

/-- Why a BIND stops at a core. -/
inductive BindStop where
  | noPower | busy
  deriving DecidableEq, Repr

/-- A crew bound to cores in ascending order, up to the first failure: how many are bound, and what stopped it (R456). -/
def State.bindAll (s : State) (n : BitVec 7) (keep : Bool) (bound : Nat) : List (BitVec 10) → State × Nat × Option BindStop
  | [] => (s, bound, none)
  | c :: r =>
    if s.poweredOff c then (s, bound, some .noPower)
    else if (s.coreAt c).bindBusy then (s, bound, some .busy)
    else
      let s1 := s.bindCore c n
      (if keep then s1 else s1.endReplay c).bindAll n keep (bound + 1) r

/-- The parameter bits of BIND. -/
def bindMask (i : Nat) : Word := if i = 4 then 1#64 else allOf 1 3 i

/-- The cores of a BIND that it will bind, as they stand: those before the first that refuses (R456). -/
def State.bindable (s : State) (cores : List (BitVec 10)) : List (BitVec 10) :=
  cores.takeWhile fun c => !s.poweredOff c && !(s.coreAt c).bindBusy

/-- BIND (Table 17.3, R492): the vector accesses in flight and the matrix queues of the cores are drained first, and the command waits while one
of them is not (07_coroutines.md R228 step 1, 12_matrix.md R346). -/
def execBind (s : State) : Result :=
  .next (s.runCmd (fun c => c.op == 0x06) bindMask fun c =>
    let first := (c.p 2).toNat
    let count := (c.p 3).toNat
    if 64 < (c.p 1).toNat ∨ 1024 < first + count then s.failed 6
    else if !s.crewExists ((c.p 1).setWidth 7) then s.failed 1
    else
      let cores := (List.range count).map fun i => BitVec.ofNat 10 (first + i)
      let s0 := (s.bindable cores).foldl State.emptyQueues s
      if (s.bindable cores).any s0.drainsYet then (s0, none)
      else
      match s0.bindAll ((c.p 1).setWidth 7) ((c.p 4).getLsbD 0) 0 cores with
      | (s1, k, none) => s1.done 0#8 (BitVec.ofNat 64 k)
      | (s1, k, some .noPower) => s1.done 0x09#8 (BitVec.ofNat 64 k)
      | (s1, _, some .busy) => s1.failed 5)

/-! ## Commands that act for a crew (R456, R457, R492) -/

/-- A failure of an operand's read by a command (R492); an answer of the host that is still to come leaves the command waiting. -/
def State.operandFault (s : State) (f : MemFault) : State × Option Done :=
  if f = .wait then (s, none) else s.done 0x0C#8 0#64

/-- Doublewords read through a crew's space at their homes; an uncorrectable unit is consumed (14_near_far_memory.md R410). -/
def State.crewDws (s : State) (w : Who) (va : Word) : Nat → State × Except MemFault (List Word)
  | 0 => (s, .ok [])
  | n + 1 =>
    match s.translateDirect w false va with
    | (s1, .fault (.uncorrectable u)) => (s1.consumeAt w.core (s1.walkError w va) va.toNat, .error (.uncorrectable u))
    | (s1, .fault f) => (s1, .error f)
    | (s1, .ok pa _) =>
      match s1.homeRead va pa 8 with
      | .fault f => (s1.consumeAt w.core pa va.toNat, .error f)
      | .ok v =>
        match s1.crewDws w (va + 8#64) n with
        | (s2, .error f) => (s2, .error f)
        | (s2, .ok r) => (s2, .ok (BitVec.ofNat 64 v :: r))

/-- The workers of a FARM_LAUNCH placed (R457); a faulted crew's cell is left as it is (08_tokens.md R248). -/
def State.launchFarm (s : State) (r : Crew) (l : List Word) (h : Word) : State × Option Done :=
  let cls := (l.getD 5 0#64).toNat
  if hDev h ≠ s.devNo then s.failed 9
  else if s.heldByReplay r.num h then (s, none)
  else if s.stale r.num h then s.failed 9
  else if isResource h ∨ hKind h ≠ 1#2 ∨ 4 < cls then s.failed 6
  else
    match (if s.crewFaulted r.num then s else s.farmCounter h (l.getD 1 0#64)).farmOver r.num ⟨l.getD 0 0#64, l.getD 4 0#64, h, 0#64, BitVec.ofNat 2 (cls - 1), 0, 3#3⟩
        (farmCores (l.getD 2 0#64) (l.getD 3 0#64)) with
    | (s1, n) => s1.done 0#8 (BitVec.ofNat 64 n)

/-- FARM_LAUNCH (R457). -/
def execFarmLaunch (s : State) : Result :=
  .next (s.runCmd (fun c => c.op == 0x07) (allOf 1 3) fun c =>
    let n := (c.p 1).toNat
    if n = 0 ∨ 64 < n ∨ (c.p 2).toNat % 64 ≠ 0 then s.failed 6
    else
      match s.crew? (BitVec.ofNat 7 n) with
      | none => s.failed 1
      | some r =>
        match s.crewDws ⟨r.space, true, r.num, 0#10⟩ (c.p 2) 8 with
        | (s1, .error f) => s1.operandFault f
        | (s1, .ok l) => s1.launchFarm r l (c.p 3))

/-- The outcome of a SIGNAL's operation at its home: applied, logged, or dropped where its crew has faulted (08_tokens.md R234, R246, R248). -/
def State.signalHere (s : State) (op : TokenOp) : State × Nat :=
  if isResource op.handle then
    (if (s.applyAtHome op).2 = 0 then (s.applyAtHome op).1.resourceSignal op else (s.applyAtHome op).1, (s.applyAtHome op).2)
  else if s.dropsOp op then (s, 0)
  else
    match s.logs op with
    | some r => (s.logOp r op, 0)
    | none => s.applyAtHome op

/-- A SIGNAL of another device's cell (16_pod.md R435, R441; log 15). -/
def State.signalAway (s : State) (op : TokenOp) : State × Nat :=
  if !s.hasRoute (hDev op.handle) then (s, 0x0A)
  else
    let s1 := { s with podOut := s.podOut ++ [⟨.token, op.crew, s.devNo, op.handle, 8#9, op.operand, 0#64, op, 0#2048⟩], fresh := s.fresh + 1 }
    match (Config.remoteOutcome s.fresh).toNat % 4 with
    | 0 => (s1, 0)
    | 1 => (s1, 0x0A)
    | 2 => (s1, 9)
    | _ => (s1, if op.code = 5#8 then 0x21 else 0)

/-- SIGNAL (Table 17.3): it completes with OK and reports its outcome. -/
def execSignal (s : State) : Result :=
  .next (s.runCmd (fun c => c.op == 0x08) (allOf 1 4) fun c =>
    let code := (c.p 2).toNat
    if !(code == 1 || code == 2 || code == 3 || code == 5) || decide (64 < (c.p 4).toNat) then s.done 0x02#8 0#64
    else
      let crew : BitVec 7 := (c.p 4).setWidth 7
      let op : TokenOp :=
        { code := BitVec.ofNat 8 code, handle := c.p 1, operand := c.p 3, scope := 5#3, reply := 0#64, toStatus := false, crew := crew,
          isUser := crew != 0#7, srcDev := s.devNo, srcCore := 0#10, srcSlot := 0#8 }
      if !kindFits op.code op.handle then s.done 0#8 0x20#64
      else
        match if hDev op.handle = s.devNo then s.signalHere op else s.signalAway op with
        | (s1, n) => s1.done 0#8 (BitVec.ofNat 64 n))

/-- The parameter bits of PREEMPT. -/
def preemptMask (i : Nat) : Word := if i = 2 then 1#64 else allOf 1 1 i

/-- PREEMPT (Table 17.3, 07_coroutines.md R227). -/
def execPreemptCommand (s : State) : Result :=
  .next (s.runCmd (fun c => c.op == 0x09) preemptMask fun c =>
    let i : BitVec 18 := (c.p 1).setWidth 18
    if bits (c.p 1) 63 18 ≠ 0 then s.failed 6
    else
      match (s.coreAt (coidCore i)).slot? (coidSlot i) with
      | none => s.failed 3
      | some t =>
        (s.preemptCoroutine i (t.state == .running) ((c.p 2).getLsbD 0)).done 0#8 (oneIf (t.state == .running)))

/-- WINDOW_REGISTER (Table 17.3, 16_pod.md R446). -/
def execWindowRegister (s : State) : Result :=
  .next (s.runCmd (fun c => c.op == 0x0A) (allOf 1 2) fun c =>
    let n : BitVec 7 := (c.p 1).setWidth 7
    let pa := (c.p 2).toNat
    if 64 < (c.p 1).toNat ∨ pa % 64 ≠ 0 then s.failed 6
    else if !s.crewExists n then s.failed 1
    else if !s.readable pa 64 then s.refuseRead pa 64
    else
      match s.openWindow n (s.physReadDws pa 8) with
      | (s1, v) => s1.done (failureCode v) v)

/-! ## POWER_SET (R465 to R467) -/

/-- POWER_SET op 0 (R465). -/
def execPowerSetCap (s : State) : Result :=
  .next (s.runCmd (fun c => c.isOp 0x0B 0) (allOf 1 6) fun c =>
    let w := (c.p 2).toNat
    if w < 1000 ∨ 4400 < w then s.done 0x02#8 0#64
    else ({ s with kerlo := { s.kerlo with cap := BitVec.ofNat 16 w } }).done 0#8 0#64)

/-- Whether a movement is to leave M0 or stay out of it: no coroutine of it is selected while it is. -/
def State.setLeaving (s : State) (m : BitVec 8) (b : Bool) : State :=
  if (s.movAt m).leaving = b then s else s.updMov m fun v => { v with leaving := b }

/-- A movement of a POWER_SET op 1 made ready for its state: its running coroutines switched out, and none selected again (R466, R467). -/
def State.powerReady (s : State) (p : Power) (m : BitVec 8) : State :=
  match p with
  | .m0 => s
  | .m1 => (s.stopMov m).setLeaving m true
  | .m2 => (s.stopMov m).setLeaving m true
  | .m3 => if (s.movAt m).power = .m3 then s else (s.parkMov m).setLeaving m true

/-- Whether a movement that is ready can take its state: its engines are drained, or its copy commands have ended (R466, R467). -/
def State.mayPower (s : State) (p : Power) (m : BitVec 8) : Bool :=
  match p with
  | .m0 => true
  | .m1 => s.movDrained m
  | .m2 => s.movDrained m
  | .m3 => (s.movAt m).power == .m3 || s.copiesEnded m

/-- A movement that is ready given its state (R466, R467). -/
def State.powerTo (s : State) (p : Power) (m : BitVec 8) : State :=
  match p with
  | .m0 => if (s.movAt m).power = .m3 then s.leaveM3 m else s.setPower m .m0
  | .m1 => s.setPower m .m1
  | .m2 => s.setPower m .m2
  | .m3 => if (s.movAt m).power = .m3 then s else s.enterM3 m

/-- The power state of a number. -/
def powerOf (n : Nat) : Power :=
  match n with
  | 0 => .m0
  | 1 => .m1
  | 2 => .m2
  | _ => .m3

/-- Whether a movement refuses a power state (R466, R467). -/
def State.refusesPower (s : State) (p : Power) (m : BitVec 8) : Bool :=
  match p with
  | .m0 => false
  | .m1 => (s.movAt m).power == .m3
  | .m2 => (s.movAt m).power == .m3
  | .m3 => (s.movAt m).power != .m3 && s.refusesM3 m

/-- POWER_SET op 1 (R466, R467): every movement of the mask is made ready before one of them changes its state. Where one refuses the state,
those made ready run on. -/
def execPowerSetState (s : State) : Result :=
  .next (s.runCmd (fun c => c.isOp 0x0B 1) (allOf 1 6) fun c =>
    let movs := maskMovs c 3
    let p := powerOf (c.p 2).toNat
    if 3 < (c.p 2).toNat then s.done 0x02#8 0#64
    else if movs.any fun m => s.refusesPower p m then (movs.foldl (fun acc m => acc.setLeaving m false) s).done 0x04#8 0#64
    else
      let s1 := movs.foldl (fun acc m => acc.powerReady p m) s
      if movs.all fun m => s1.mayPower p m then (movs.foldl (fun acc m => acc.powerTo p m) s1).done 0#8 0#64
      else (s1, none))

/-- POWER_SET op 2 (R465). -/
def execPowerSetGating (s : State) : Result :=
  .next (s.runCmd (fun c => c.isOp 0x0B 2) (allOf 1 6) fun c =>
    if 1 < (c.p 2).toNat then s.done 0x02#8 0#64
    else ({ s with kerlo := { s.kerlo with gating := (c.p 2).setWidth 1 } }).done 0#8 0#64)

/-! ## DEBUG_SET (R463, R464, Table 17.6) -/

/-- The debug level set; below D1 every watch range is disarmed (R464). -/
def State.setDebug (s : State) (n : BitVec 8) : State :=
  { s with kerlo := { s.kerlo with dbg := n }, watchRanges := if n = 0#8 then [] else s.watchRanges }

/-- The crew keys cleared (R463, Table 17.6). -/
def State.clearKeys (s : State) : State :=
  { s with contextKey := 0#64, kerlo := { s.kerlo with ideKeys := Vector.replicate 5 none } }

/-- The token of a D3 request with the challenge that it answers (R463). -/
def State.unlockWords (s : State) (c : KerloCmd) : List Word :=
  [Config.uniqueId 0, Config.uniqueId 1] ++ ((List.range 6).map fun i => Config.freeWord (s.kerlo.challenge + i)) ++
    (List.range 12).map fun i => c.p (3 + i)

/-- DEBUG_SET op 0 (R463, Table 17.6). -/
def execDebugSetLevel (s : State) : Result :=
  .next (s.runCmd (fun c => c.isOp 0x0C 0) (allOf 1 14) fun c =>
    let n := (c.p 2).toNat
    let rma := s.kerlo.life = 2#8
    if 3 < n then s.done 0x02#8 0#64
    else if (n = 3 ∧ ¬rma) ∨ (n = 1 ∧ rma) then s.done 0x07#8 0#64
    else if n = 3 then
      (if Config.signatureOk 3 (s.unlockWords c) 0#64 then (s.clearKeys.setDebug 3#8).done 0#8 0#64 else s.done 0x0A#8 0#64)
    else (s.setDebug (BitVec.ofNat 8 n)).done 0#8 0#64)

/-- Whether the present debug level reaches a crew (R463, Table 17.6). -/
def State.debugReaches (s : State) (n : BitVec 7) : Bool :=
  match s.kerlo.dbg.toNat with
  | 0 => false
  | 1 => n != 0#7 && ((s.crew? n).map fun r => r.consent).getD false
  | _ => if s.kerlo.life = 2#8 then n == 0#7 else true

/-- The parameter bits of DEBUG_SET op 1. -/
def watchMask (i : Nat) : Word := if i = 6 then 3#64 else allOf 1 5 i

/-- DEBUG_SET op 1 (R464). -/
def execDebugSetWatch (s : State) : Result :=
  .next (s.runCmd (fun c => c.isOp 0x0C 1) watchMask fun c =>
    let n : BitVec 7 := (c.p 2).setWidth 7
    if 64 < (c.p 2).toNat ∨ 3 < (c.p 3).toNat then s.done 0x02#8 0#64
    else if !s.crewExists n then s.done 0x03#8 0#64
    else if !s.debugReaches n then s.done 0x08#8 0#64
    else
      let r : WatchRange := ⟨(c.p 3).setWidth 2, n, (c.p 4).toNat, (c.p 5).toNat, (c.p 6).getLsbD 0, (c.p 6).getLsbD 1⟩
      ({ s with watchRanges := r :: s.watchRanges.filter fun o => !(o.num == r.num && o.crew == n) }).done 0#8 0#64)

/-- A context image written at a physical address, as vctx.save lays it out (07_coroutines.md R201). -/
def State.physImage (s : State) (k : Core) (t : Slot) (pa : Nat) : State :=
  let serial := k.saveCount
  let blocks := (0, t.frame k.id (k.crewOf t.num) serial) :: (if t.deferred.isSome then [] else t.parts (queueImage s.fresh))
  let s1 := blocks.foldl (fun acc b => acc.physWriteDws (pa + b.1) b.2) s
  let s2 : State := if t.ctx.hasFrame then
      { s1 with savedFrames := s1.savedFrames ++ [⟨s.fresh, serial, s.contextKey, t.ctx.vq, t.ctx.mq⟩], fresh := s1.fresh + 1 }
    else s1
  s2.updCore k.id fun o => { o with saveCount := serial + 1#32 }

/-- DEBUG_SET op 2 (R463). -/
def execDebugSetCopy (s : State) : Result :=
  .next (s.runCmd (fun c => c.isOp 0x0C 2) (allOf 1 3) fun c =>
    let i : BitVec 18 := (c.p 2).setWidth 18
    let k := s.coreAt (coidCore i)
    let pa := (c.p 3).toNat
    if bits (c.p 2) 63 18 ≠ 0 ∨ pa % 4096 ≠ 0 then s.done 0x02#8 0#64
    else if s.poweredOff k.id then s.done 0x09#8 0#64
    else if !s.debugReaches (k.crewOf (coidSlot i)) then s.done 0x08#8 0#64
    else
      match k.slot? (coidSlot i) with
      | none => s.done 0x02#8 0#64
      | some t =>
        if t.state ≠ .held then s.done 0x02#8 0#64
        else if !(mapped pa && mapped (pa + 73727)) then s.done 0x0C#8 0#64
        else (s.physImage k t pa).done 0#8 0#64)

/-! ## ERROR_QUERY, REPAIR_STATUS and PATCH_APPLY (R456, R460) -/

/-- ERROR_QUERY (Table 17.3). -/
def execErrorQuery (s : State) : Result :=
  .next (s.runCmd (fun c => c.op == 0x0D) (fun _ => 0#64) fun _ =>
    let rest := s.kerlo.errors.drop 31
    ({ s with kerlo := { s.kerlo with errors := rest } }, some ⟨0#8, 0#64,
      (32, BitVec.ofNat 64 rest.length) :: ((s.kerlo.errors.take 31).zipIdx.map fun p => (33 + p.2, p.1))⟩))

/-- The counters of channels summed over a stack, which REPAIR_STATUS answers for it: how a reply holds the counters of its 64 channels is not
stated (log 76). -/
def stackSum (l : List (Nat × Word)) (stack : Nat) : Word :=
  (l.filter fun p => p.1 / 64 = stack).foldl (fun acc p => acc + p.2) 0#64

/-- A mask of the members of a list that a function numbers. -/
def maskOf (l : List Nat) (f : Nat → Option Nat) : Word :=
  BitVec.ofNat 64 ((l.filterMap f).eraseDups.foldl (fun acc i => acc + 2 ^ i) 0)

/-- REPAIR_STATUS (Table 17.3, 14_near_far_memory.md Table 14.2): the order of the reply's counters is the model's (log 25). -/
def execRepairStatus (s : State) : Result :=
  .next (s.runCmd (fun c => c.op == 0x0E) (allOf 1 1) fun c =>
    let n := (c.p 1).toNat
    if 12 < n then s.done 0x02#8 0#64
    else if n = 12 then (s, some ⟨0#8, 0#64, [(32, maskOf s.portsDown fun p => some p)]⟩)
    else
      (s, some ⟨0#8, 0#64,
        [(32, countAt s.cecount n), (33, countAt s.uecount n), (34, stackSum s.crcretry n), (35, stackSum s.lanerepair n),
          (36, s.lanelend), (37, s.swapdone),
          (38, maskOf s.degraded fun ch => if ch / 64 = n then some (ch % 64) else none)]⟩))

/-- Every crew destroyed (R458, R460); none while operations admitted to their windows are in flight. -/
def State.destroyAll (s : State) : State × Bool :=
  let s1 := s.crews.foldl (fun acc r => acc.tearDown r.num) s
  if s1.crews.any fun r => s1.windows.any fun w => w.owner = r.num then (s1, false)
  else (s1.crews.foldl (fun acc r => acc.forget r.num) s1, true)

/-- PATCH_APPLY (R460). -/
def execPatchApply (s : State) : Result :=
  .next (s.runCmd (fun c => c.op == 0x0F) (allOf 1 2) fun c =>
    let pa := (c.p 1).toNat
    let n := (c.p 2).toNat
    if n = 0 ∨ !s.readable pa n then s.refuseRead pa n
    else
      let image := s.physReadDws pa ((n + 7) / 8)
      if !Config.signatureOk 0xF image 0#64 then s.done 0x0A#8 0#64
      else if Config.imageIsPatch image then
        (if Config.imageLevel image ≤ s.kerlo.patch then s.done 0x0B#8 0#64
        else ({ s with kerlo := { s.kerlo with pendingPatch := Config.imageLevel image, patchStore := image } }).done 0#8 0#64)
      else if Config.imageTarget image = 1#8 ∧ s.kerlo.life = 0#8 then
        ({ s with kerlo := { s.kerlo with life := 1#8 } }).done 0#8 0#64
      else if Config.imageTarget image = 2#8 ∧ s.kerlo.life = 1#8 then
        (match s.destroyAll with
          | (s1, false) => (s1, none)
          | (s1, true) => ({ s1 with kerlo := { s1.kerlo with life := 2#8 } }.setDebug 0#8).done 0#8 0#64)
      else s.done 0x07#8 0#64)

end Sys2Proof.Machine
end

