-- ==== Sys2Proof/Machine/ScalarFloat.lean ====
section
/-!
DEFINITION. The scalar float instructions (04_scalar.md R116 to R119, Tables 4.12, 4.13, 02_encoding.md Table 2.6).
-/

namespace Sys2Proof.Machine

/-! ## Shared operations -/

/-- The rounding that fcr and prng give a scalar instruction for a destination format (R116, 03_numbers.md R78). -/
def Ctx.rounding (c : Ctx) (f : FloatFmt) : Rounding :=
  ⟨fcrRm c.fcr, fcrSat c.fcr, fcrFtz c.fcr f, drawBits (xorshift c.prng)⟩

/-- Flags merged into fcr (03_numbers.md R84). -/
def State.raise (s : State) (f : FFlags) : State := s.updCtx fun c => { c with fcr := fcrMerge c.fcr f }

/-- prng after a scalar instruction that rounds: one step in SR mode (03_numbers.md R78). -/
def State.drawn (s : State) : State :=
  if fcrRm s.me.ctx.fcr = 5 then s.updCtx fun c => { c with prng := xorshift c.prng } else s

/-- An operand of a format, with daz (R116). -/
def State.operand (s : State) (f : FloatFmt) (a : BitVec 5) : Num := f.read (fcrDaz s.me.ctx.fcr f) (s.x a).toNat

/-- A result with its flags, by an instruction that draws. -/
def State.floatWrite (s : State) (d : BitVec 5) (r : Nat × FFlags) : State :=
  ((s.drawn).raise r.2).write d (BitVec.ofNat 64 r.1)

/-- An exact result rounded into x[d] (R116). -/
def State.floatResult (s : State) (f : FloatFmt) (d : BitVec 5) (x : Exact) : State :=
  s.floatWrite d (f.finish (s.me.ctx.rounding f) x)

/-- fadd in a format (R116). -/
def State.fadd (s : State) (f : FloatFmt) (d a b : BitVec 5) : State :=
  s.floatResult f d (addNum (fcrRm s.me.ctx.fcr) (s.operand f a) (s.operand f b))
/-- fsub in a format (R116). -/
def State.fsub (s : State) (f : FloatFmt) (d a b : BitVec 5) : State :=
  s.floatResult f d (addNum (fcrRm s.me.ctx.fcr) (s.operand f a) (s.operand f b).negate)
/-- fmul in a format (R116). -/
def State.fmul (s : State) (f : FloatFmt) (d a b : BitVec 5) : State :=
  s.floatResult f d ((mulNum (s.operand f a) (s.operand f b)).1.exact (mulNum (s.operand f a) (s.operand f b)).2)
/-- fdiv in a format (R116). -/
def State.fdiv (s : State) (f : FloatFmt) (d a b : BitVec 5) : State :=
  s.floatResult f d (divNum (s.operand f a) (s.operand f b))
/-- fsqrt in a format (R116). -/
def State.fsqrt (s : State) (f : FloatFmt) (d a : BitVec 5) : State := s.floatResult f d (sqrtNum (s.operand f a))
/-- fmadd in a format (R116). -/
def State.fmadd (s : State) (f : FloatFmt) (d a b c : BitVec 5) : State :=
  s.floatResult f d (fmaNum (fcrRm s.me.ctx.fcr) (s.operand f a) (s.operand f b) (s.operand f c))

/-- fmin and fmax in a format (R117). -/
def State.fminmax (s : State) (f : FloatFmt) (wantMax : Bool) (d a b : BitVec 5) : State :=
  let r := f.minmax (fcrDaz s.me.ctx.fcr f) wantMax (s.x a).toNat (s.x b).toNat
  (s.raise r.2).write d (BitVec.ofNat 64 r.1)

/-- The condition of Table 6.8 that an fcmp code names (Table 2.6): eq, lt, le, unord. -/
def fcmpCond (c : Nat) : Nat :=
  match c with
  | 0 => 0
  | 1 => 2
  | 2 => 3
  | _ => 6

/-- fcmp in a format (R117); c from 4 upward traps ILLEGAL (Table 2.6). -/
def State.fcmp (s : State) (f : FloatFmt) (d a b c : BitVec 5) : State :=
  if 4 ≤ c.toNat then s.illegal
  else
    let r := floatCond (fcmpCond c.toNat) (s.operand f a) (s.operand f b)
    (s.raise r.2).write d (oneIf r.1)

/-- fcvt between a format and the integers or the other format (R118); c from 5 upward traps ILLEGAL (Table 2.6). -/
def State.fcvt (s : State) (f other : FloatFmt) (d a c : BitVec 5) : State :=
  let r := s.me.ctx.rounding f
  match c.toNat with
  | 0 => s.floatWrite d ((Elem.float f).convert r (intNum (s.x a).toInt))
  | 1 => s.floatWrite d ((Elem.float f).convert r (intNum (s.x a).toNat))
  | 2 => s.floatWrite d ((Elem.int true 64).convert r (s.operand f a))
  | 3 => s.floatWrite d ((Elem.int false 64).convert r (s.operand f a))
  | 4 => s.floatWrite d ((Elem.float f).convert r (s.operand other a))
  | _ => s.illegal

/-- The class bit of an encoding (Table 4.13). -/
def fclassBit (f : FloatFmt) (bits : Nat) : Nat :=
  match f.read false bits with
  | .nan sig => if sig then 8 else 9
  | .inf neg => if neg then 0 else 7
  | .fin neg m e =>
    if m = 0 then (if neg then 3 else 4)
    else if Mag.log ⟨m, e, false⟩ < f.emin then (if neg then 2 else 5)
    else if neg then 1 else 6

/-- fclass in a format (R118). -/
def State.fclass (s : State) (f : FloatFmt) (d a : BitVec 5) : State :=
  s.write d (BitVec.ofNat 64 (2 ^ fclassBit f (s.x a).toNat))

/-! ## .f32 -/

/-- fadd.f32 (R116). -/
def execFaddF32 (d a b : BitVec 5) (s : State) : Result := .next (s.fadd .f32 d a b)
/-- fsub.f32 (R116). -/
def execFsubF32 (d a b : BitVec 5) (s : State) : Result := .next (s.fsub .f32 d a b)
/-- fmul.f32 (R116). -/
def execFmulF32 (d a b : BitVec 5) (s : State) : Result := .next (s.fmul .f32 d a b)
/-- fdiv.f32 (R116). -/
def execFdivF32 (d a b : BitVec 5) (s : State) : Result := .next (s.fdiv .f32 d a b)
/-- fsqrt.f32 (R116). -/
def execFsqrtF32 (d a : BitVec 5) (s : State) : Result := .next (s.fsqrt .f32 d a)
/-- fmadd.f32 (R116). -/
def execFmaddF32 (d a b c : BitVec 5) (s : State) : Result := .next (s.fmadd .f32 d a b c)
/-- fmin.f32 (R117). -/
def execFminF32 (d a b : BitVec 5) (s : State) : Result := .next (s.fminmax .f32 false d a b)
/-- fmax.f32 (R117). -/
def execFmaxF32 (d a b : BitVec 5) (s : State) : Result := .next (s.fminmax .f32 true d a b)
/-- fcmp.f32 (R117). -/
def execFcmpF32 (d a b c : BitVec 5) (s : State) : Result := .next (s.fcmp .f32 d a b c)
/-- fcvt.f32 (R118). -/
def execFcvtF32 (d a c : BitVec 5) (s : State) : Result := .next (s.fcvt .f32 .f64 d a c)
/-- fclass.f32 (R118). -/
def execFclassF32 (d a : BitVec 5) (s : State) : Result := .next (s.fclass .f32 d a)

/-! ## .f64 -/

/-- fadd.f64 (R116). -/
def execFaddF64 (d a b : BitVec 5) (s : State) : Result := .next (s.fadd .f64 d a b)
/-- fsub.f64 (R116). -/
def execFsubF64 (d a b : BitVec 5) (s : State) : Result := .next (s.fsub .f64 d a b)
/-- fmul.f64 (R116). -/
def execFmulF64 (d a b : BitVec 5) (s : State) : Result := .next (s.fmul .f64 d a b)
/-- fdiv.f64 (R116). -/
def execFdivF64 (d a b : BitVec 5) (s : State) : Result := .next (s.fdiv .f64 d a b)
/-- fsqrt.f64 (R116). -/
def execFsqrtF64 (d a : BitVec 5) (s : State) : Result := .next (s.fsqrt .f64 d a)
/-- fmadd.f64 (R116). -/
def execFmaddF64 (d a b c : BitVec 5) (s : State) : Result := .next (s.fmadd .f64 d a b c)
/-- fmin.f64 (R117). -/
def execFminF64 (d a b : BitVec 5) (s : State) : Result := .next (s.fminmax .f64 false d a b)
/-- fmax.f64 (R117). -/
def execFmaxF64 (d a b : BitVec 5) (s : State) : Result := .next (s.fminmax .f64 true d a b)
/-- fcmp.f64 (R117). -/
def execFcmpF64 (d a b c : BitVec 5) (s : State) : Result := .next (s.fcmp .f64 d a b c)
/-- fcvt.f64 (R118). -/
def execFcvtF64 (d a c : BitVec 5) (s : State) : Result := .next (s.fcvt .f64 .f32 d a c)
/-- fclass.f64 (R118). -/
def execFclassF64 (d a : BitVec 5) (s : State) : Result := .next (s.fclass .f64 d a)

end Sys2Proof.Machine
end

