-- ==== Sys2Proof/Machine/Selection.lean ====
section
/-!
DEFINITION. cp.kvs, um.round and um.dirty (15_complications.md R423, R424, R429 to R431).
-/

namespace Sys2Proof.Machine

/-! ## cp.kvs (R423, R424) -/

/-- Whether `n` bytes from a scratchpad offset run outside the data region. -/
def outsideData (o n : Nat) : Bool := decide (o < 0x10000) || decide (0x100000 < o + n)

/-- Whether a margin is below zero, infinite or NaN (R424). -/
def badMargin (b : Nat) : Bool := !finiteF32 b || (decide (2 ^ 31 < b))

/-- Whether a cp.kvs descriptor fails with BADARG (R424). -/
def badKvs (c : CopyCmd) : Bool :=
  let w := c.control
  let nsel := bits (c.dw 4) 41 32
  let prune := w.getLsbD 29
  bits w 58 56 != 0 || bits w 51 48 != 0 || w.getLsbD 32 || decide (1 < bits w 31 30) || bits w 28 0 != 0 ||
    (c.dw 2).toNat % 8 != 0 || bits (c.dw 3) 63 41 != 0 || bits (c.dw 3) 40 32 == 0 || decide (256 < bits (c.dw 3) 40 32) ||
    bits (c.dw 4) 31 20 != 0 || bits (c.dw 4) 63 42 != 0 || bits (c.dw 4) 19 0 % 4 != 0 || nsel == 0 || decide (512 < nsel) ||
    bits (c.dw 5) 63 10 != 0 || decide (nsel ≤ c.firstEntry) ||
    bits (c.dw 6) 15 9 != 0 || bits (c.dw 6) 31 23 != 0 || bits (c.dw 6) 63 48 != 0 || bits (c.dw 6) 8 0 == 0 ||
    decide (256 < bits (c.dw 6) 8 0) || c.heads == 0 || decide (64 < c.heads) ||
    bits (c.dw 7) 63 32 != 0 || bits (c.dw 7) 31 0 % 256 != 0 || (c.dw 8).toNat % 256 != 0 || (c.dw 9).toNat % 256 != 0 ||
    bits (c.dw 10) 63 20 != 0 || (c.dw 10).toNat % 64 != 0 || bits (c.dw 11) 63 20 != 0 || (c.dw 11).toNat % 4 != 0 ||
    bits (c.dw 12) 31 20 != 0 || bits (c.dw 12) 19 0 % 4 != 0 || c.dw 13 != 0#64 || c.dw 14 != 0#64 || c.dw 15 != 0#64 ||
    outsideData (bits (c.dw 4) 19 0) (4 * nsel) || outsideData (c.dw 10).toNat 64 ||
    (prune && (outsideData (c.dw 11).toNat (4 * nsel) || outsideData (bits (c.dw 12) 19 0) 4 || badMargin (bits (c.dw 12) 63 32))) ||
    (!prune && (c.dw 11 != 0#64 || c.dw 12 != 0#64)) ||
    (bits w 31 30 == 1 && outsideData ((c.dw 9).toNat + c.firstEntry * c.entryBytes) (c.entries * c.entryBytes)) ||
    decide (256 * bits (c.dw 3) 40 32 < (c.dw 8).toNat + (c.firstHead + c.heads - 1) * bits (c.dw 7) 31 0 + c.headBytes) ||
    badCommon w (c.dw 1) c.entries

/-- cp.kvs (R423, R424). -/
def execCpKvs (d a : BitVec 5) (s : State) : Result :=
  .next (s.withDescriptor a 128 16 fun s1 w =>
    let c := s1.newCopy .kvs (w.getD 0 0#64) w
    if badKvs c then s1.badArg d else s1.submit d c)

/-! ## The unmasking engine (R429) -/

/-- Values stored one after another in the core's own scratchpad. -/
def State.padStores (s : State) (w : Nat) : List (Nat × Nat) → State
  | [] => s
  | (o, v) :: r => (s.physWrite (scratchAddr s.me.id o) w v).padStores w r

/-- Arrays of the scratchpad read in order, as offset, element size and length; the first uncorrectable chunk ends it. -/
def State.padArrays (s : State) : List (Nat × Nat × Nat) → Except Word (List (List Nat))
  | [] => .ok []
  | (o, w, n) :: r =>
    match s.padWords w o n with
    | .error e => .error e
    | .ok a =>
      match s.padArrays r with
      | .error e => .error e
      | .ok b => .ok (a :: b)

/-- A block of 8 doublewords at x[a] read from the scratchpad: malformed where its offset is (R429). -/
def State.padBlock (s : State) (a : BitVec 5) : Except Word (Option (List Word)) :=
  if (s.x a).toNat % 64 ≠ 0 ∨ outsideData (s.x a).toNat 64 then .ok none
  else
    match s.padWords 8 (s.x a).toNat 8 with
    | .error e => .error e
    | .ok l => .ok (some (l.map (BitVec.ofNat 64)))

/-! ## um.round (R430) -/

/-- The positions that um.round reads, from its block: n, and whether confidences are f16 (Table 15.7). -/
def roundN (b : List Word) : Nat := bits (b.getD 0 0#64) 12 0
/-- The size of a confidence. -/
def confSize (b : List Word) : Nat := if (b.getD 0 0#64).getLsbD 16 then 2 else 4

/-- Whether a um.round block is malformed (R429, Table 15.7). -/
def badRound (b : List Word) : Bool :=
  let n := roundN b
  let o (i : Nat) : Nat := (b.getD i 0#64).toNat
  bits (b.getD 0 0#64) 15 13 != 0 || bits (b.getD 0 0#64) 63 17 != 0 || n == 0 || decide (4096 < n) ||
    o 1 % 4 != 0 || o 2 % 4 != 0 || o 3 % 8 != 0 || o 4 % 4 != 0 || o 5 % 4 != 0 || o 6 != 0 || o 7 != 0 ||
    outsideData (o 1) (confSize b * n) || outsideData (o 2) (4 * n) || outsideData (o 3) ((n + 7) / 8) || outsideData (o 4) (4 * n) ||
    outsideData (o 5) (4 * n)

/-- Whether bit `p` of a bitmap of bytes is set. -/
def bitmapBit (m : List Nat) (p : Nat) : Bool := (m.getD (p / 8) 0).testBit (p % 8)

/-- The number of positions that a round commits (R430). -/
def roundCount (ctl : Word) (r : Nat) : Nat :=
  if r = 0 then 0
  else if ctl.getLsbD 31 then min r (bits ctl 12 0)
  else min r (max 1 ((bits ctl 15 0 * r + 65535) / 65536))

/-- The masked positions in order of rank (R416, R430). -/
def roundOrder (conf mask : List Nat) (t : Elem) (n : Nat) : List Nat :=
  (bestOf n ((List.range n).filterMap fun p =>
    if bitmapBit mask p then some ⟨conf.getD p 0, rankKey t (conf.getD p 0), p, false⟩ else none)).map (·.index)

/-- A mask byte with the bits of committed positions cleared. -/
def clearedByte (q : List Nat) (b i : Nat) : Nat :=
  q.foldl (fun acc p => if p / 8 = i then acc - (acc &&& 2 ^ (p % 8)) else acc) b

/-- The writes of a round, array by array (R430). -/
def State.commitRound (s : State) (b : List Word) (cand mask q : List Nat) : State :=
  let o (i : Nat) : Nat := (b.getD i 0#64).toNat
  let changed := (List.range mask.length).filterMap fun i =>
    let v := clearedByte q (mask.getD i 0) i
    if v = mask.getD i 0 then none else some (o 3 + i, v)
  ((s.padStores 4 (q.map fun p => (o 4 + 4 * p, cand.getD p 0))).padStores 1 changed).padStores 4
    ((List.range q.length).map fun j => (o 5 + 4 * j, q.getD j 0))

/-- um.round (R430). -/
def execUmRound (d a b : BitVec 5) (s : State) : Result :=
  .next (match s.padBlock a with
    | .error e => s.padFault e
    | .ok none => s.badArg d
    | .ok (some w) =>
      if badRound w then s.badArg d
      else
        let n := roundN w
        match s.padArrays [((w.getD 1 0#64).toNat, confSize w, n), ((w.getD 2 0#64).toNat, 4, n), ((w.getD 3 0#64).toNat, 1, (n + 7) / 8)] with
        | .error e => s.padFault e
        | .ok arrays =>
          let conf := arrays.getD 0 []
          let mask := arrays.getD 2 []
          let order := roundOrder conf mask (.float (if confSize w = 2 then .f16 else .f32)) n
          let c := roundCount (s.x b) order.length
          (s.commitRound w (arrays.getD 1 []) mask (order.take c)).write d (BitVec.ofNat 64 c))

/-! ## um.dirty (R431) -/

/-- Dilate(H, r) over `nb` blocks (R431). -/
def dilate (nb h r : Nat) : Nat :=
  if r = 0xFF then (if h = 0 then 0 else 2 ^ nb - 1)
  else (List.range nb).foldl (fun acc b =>
    if (List.range nb).any fun b' => h.testBit b' && decide (b ≤ b' + r) && decide (b' ≤ b + r) then acc + 2 ^ b else acc) 0

/-- The blocks that committed positions make dirty (R431). -/
def dirtyBlocks (nb : Nat) (list : List Nat) : Nat :=
  list.foldl (fun acc p => if p / 64 < nb then acc ||| 2 ^ (p / 64) else acc) 0

/-- The dirty map of each layer in turn, from the blocks dirty before it (R431). -/
def dirtyMaps (nb : Nat) (merge : Bool) : Nat → List Nat → List Nat → List Nat
  | _, _, [] => []
  | h, reach, m :: ms => (if merge then m ||| h else h) :: dirtyMaps nb merge (dilate nb h (reach.headD 0)) (reach.drop 1) ms

/-- Whether a um.dirty block is malformed (R429, Table 15.8). The offset of an empty list lies at or above 0x1_0000, and may be the scratchpad's
end (log 80). -/
def badDirty (b : List Word) : Bool :=
  let s := b.getD 0 0#64
  let o (i : Nat) : Nat := (b.getD i 0#64).toNat
  bits s 15 9 != 0 || s.getLsbD 23 || bits s 63 25 != 0 || bits s 8 0 == 0 || decide (256 < bits s 8 0) || bits s 22 16 == 0 ||
    decide (64 < bits s 22 16) || decide (4096 < o 3) || o 4 % 8 != 0 || o 5 != 0 || o 6 != 0 || o 7 != 0 ||
    outsideData (o 1) (bits s 8 0) || outsideData (o 2) (4 * o 3) || outsideData (o 4) (8 * bits s 8 0)

/-- um.dirty (R431). -/
def execUmDirty (d a : BitVec 5) (s : State) : Result :=
  .next (match s.padBlock a with
    | .error e => s.padFault e
    | .ok none => s.badArg d
    | .ok (some w) =>
      if badDirty w then s.badArg d
      else
        let nl := bits (w.getD 0 0#64) 8 0
        let nb := bits (w.getD 0 0#64) 22 16
        let merge := (w.getD 0 0#64).getLsbD 24
        let o (i : Nat) : Nat := (w.getD i 0#64).toNat
        match s.padArrays [(o 1, 1, nl), (o 2, 4, o 3), (o 4, 8, if merge then nl else 0)] with
        | .error e => s.padFault e
        | .ok arrays =>
          let old := if merge then arrays.getD 2 [] else List.replicate nl 0
          let maps := dirtyMaps nb merge (dirtyBlocks nb (arrays.getD 1 [])) (arrays.getD 0 []) old
          (s.padStores 8 ((List.range nl).map fun l => (o 4 + 8 * l, maps.getD l 0))).write d
            (BitVec.ofNat 64 (maps.foldl (fun acc m => acc + popNat 64 m) 0)))

end Sys2Proof.Machine
end

