-- ==== Sys2Proof/Machine/VectorCtl.lean ====
section
/-!
DEFINITION. The vector control instructions (05_lanes.md R151 to R155) and the vector queue's own steps (R145, R146, R150, 09_visibility.md
R288).
-/

namespace Sys2Proof.Machine

/-- vl, vtype and x[d] for a requested type and length (R151). -/
def State.setShape (s : State) (d : BitVec 5) (req : Word) (avl : Nat) : State :=
  if bits req 63 12 ≠ 0 ∨ 18 < vtEt req then
    (s.updCtx fun c => { c with vtype := 0x8000000000000000#64, vl := 0#64 }).putX d 0#64
  else
    let nreal := min avl (vlMax req)
    let blk := vtBlk req
    let len := blk * ((nreal + blk - 1) / blk)
    (s.updCtx fun c => { c with vtype := req, vl := BitVec.ofNat 64 (nreal * 65536 + len) }).putX d (BitVec.ofNat 64 nreal)

/-- The requested length: 2^64 where a is 0 (R151). -/
def State.avl (s : State) (a : BitVec 5) : Nat := if a = 0#5 then 2 ^ 64 else (s.x a).toNat

/-- vset and vseti: the shape set at issue, then a marker in the queue (R143, R151). -/
def State.setShapeMarked (s : State) (d : BitVec 5) (req : Word) (avl : Nat) : State :=
  let s1 := s.setShape d req avl
  s1.vMark (s1.capture .shape 0#5 0#5 (.reg 0#5) 0#4) 4

/-- vset (R151). -/
def execVset (d a b : BitVec 5) (s : State) : Result := .next (s.setShapeMarked d (s.x b) (s.avl a))

/-- vseti (R151, R152); an element type above 18 traps ILLEGAL. -/
def execVseti (d a : BitVec 5) (i : BitVec 12) (s : State) : Result :=
  .next (if 18 < (i.extractLsb' 0 5).toNat then s.illegal else s.setShapeMarked d (i.zeroExtend 64) (s.avl a))

/-- vrel (R153, R135). It zeroes every v register and leaves ldst as it is (02_encoding.md R49; log 62). -/
def execVrel (s : State) : Result :=
  .next (if s.me.ctx.status.getLsbD 8 then s.vectorOff
    else s.vMark (s.capture .release 0#5 0#5 (.reg 0#5) 0#4) 4)

/-- vsync: it issues once the vector and the matrix queue are empty, which the front end waits for (State.wordWaits), and moves on (R155). -/
def execVsync (s : State) : Result := .next (s.adv 4)

/-- VECTOR_MICRO_OP (R145): one micro-operation of the oldest instruction, an element group or a part of a memory access (log 21). -/
def execVectorMicroOp (s : State) : Result := .next s.vStep

/-- VECTOR_COMMIT (R146). -/
def execVectorCommit (s : State) : Result := .next s.vCommit

/-- VFENCE_SIGNAL (09_visibility.md R288): a vfence.arrive marker at the head of the queue commits, and as every earlier vector access
has been performed at its home its signal is sent. -/
def execVfenceSignal (s : State) : Result :=
  .next (match s.me.ctx.vq with
    | [] => s
    | e :: _ => match e.op with
      | .fenceArrive _ _ _ _ => s.vRun
      | _ => s)

/-- SORTER_SERVICE (15_complications.md R421): a topk at the head of the queue is served by the movement's sorter. -/
def execSorterService (s : State) : Result :=
  .next (match s.me.ctx.vq with
    | [] => s
    | e :: _ => match e.op with
      | .topk _ _ => s.vRun
      | _ => s)

end Sys2Proof.Machine
end

