-- ==== Sys2Proof/Machine/Dispatch.lean ====
section
/-!
DEFINITION. One arm for each instruction and device step, each a call of its meaning.
-/

namespace Sys2Proof.Machine

/-- What an instruction or device step does. -/
def exec (i : Instr) (s : State) : Host.Outcome State Fault Refusal :=
  match i with
  | .quantumExpiry => Sys2Proof.Machine.execQuantumExpiry s
  | .preemptSwitch => Sys2Proof.Machine.execPreemptSwitch s
  | .contextSpill => Sys2Proof.Machine.execContextSpill s
  | .contextRefill slot => Sys2Proof.Machine.execContextRefill slot s
  | .vectorMicroOp => Sys2Proof.Machine.execVectorMicroOp s
  | .vectorCommit => Sys2Proof.Machine.execVectorCommit s
  | .vfenceSignal => Sys2Proof.Machine.execVfenceSignal s
  | .sorterService => Sys2Proof.Machine.execSorterService s
  | .matrixEntryStart => Sys2Proof.Machine.execMatrixEntryStart s
  | .tileUnitFree mov unit => Sys2Proof.Machine.execTileUnitFree mov unit s
  | .copyChannelStart chan => Sys2Proof.Machine.execCopyChannelStart chan s
  | .copyUnitComplete entry => Sys2Proof.Machine.execCopyUnitComplete entry s
  | .copyFault entry => Sys2Proof.Machine.execCopyFault entry s
  | .copyRestart entry => Sys2Proof.Machine.execCopyRestart entry s
  | .gatherUnitBurst entry => Sys2Proof.Machine.execGatherUnitBurst entry s
  | .tokenOpSend => Sys2Proof.Machine.execTokenOpSend s
  | .tokenOpApply op => Sys2Proof.Machine.execTokenOpApply op s
  | .logReplay => Sys2Proof.Machine.execLogReplay s
  | .tokenWatch w => Sys2Proof.Machine.execTokenWatch w s
  | .wake w => Sys2Proof.Machine.execWake w s
  | .recheck dev home => Sys2Proof.Machine.execRecheck dev home s
  | .mailboxReservation handle len crew issuer => Sys2Proof.Machine.execMailboxReservation handle len crew issuer s
  | .mailboxDelivery handle pos word reply => Sys2Proof.Machine.execMailboxDelivery handle pos word reply s
  | .pageWalk va store => Sys2Proof.Machine.execPageWalk va store s
  | .arenaFaultRecord die key => Sys2Proof.Machine.execArenaFaultRecord die key s
  | .atsTranslationResponse asid va ha perm => Sys2Proof.Machine.execAtsTranslationResponse asid va ha perm s
  | .atsInvalidateRequest asid va len => Sys2Proof.Machine.execAtsInvalidateRequest asid va len s
  | .priPageResponse asid va code => Sys2Proof.Machine.execPriPageResponse asid va code s
  | .l1Writeback line => Sys2Proof.Machine.execL1Writeback line s
  | .burstResend addr fails write => Sys2Proof.Machine.execBurstResend addr fails write s
  | .liveLaneRepair chan => Sys2Proof.Machine.execLiveLaneRepair chan s
  | .patrolScrub addr => Sys2Proof.Machine.execPatrolScrub addr s
  | .swapRequest => Sys2Proof.Machine.execSwapRequest s
  | .swapLineExchange pair => Sys2Proof.Machine.execSwapLineExchange pair s
  | .swapPairRetire pair => Sys2Proof.Machine.execSwapPairRetire pair s
  | .ingressCheck req => Sys2Proof.Machine.execIngressCheck req s
  | .endpointCacheFetch index => Sys2Proof.Machine.execEndpointCacheFetch index s
  | .windowDrainFree index => Sys2Proof.Machine.execWindowDrainFree index s
  | .linkLevelRetry port => Sys2Proof.Machine.execLinkLevelRetry port s
  | .portFailure port spare => Sys2Proof.Machine.execPortFailure port spare s
  | .bar2Access write offset size value => Sys2Proof.Machine.execBar2Access write offset size value s
  | .pcieLinkTraining flit => Sys2Proof.Machine.execPcieLinkTraining flit s
  | .ideKm stream key => Sys2Proof.Machine.execIdeKm stream key s
  | .boot => Sys2Proof.Machine.execBoot s
  | .powerThrottle mov => Sys2Proof.Machine.execPowerThrottle mov s
  | .autoGateM1 mov => Sys2Proof.Machine.execAutoGateM1 mov s
  | .autoGateM2 mov => Sys2Proof.Machine.execAutoGateM2 mov s
  | .movementWake mov => Sys2Proof.Machine.execMovementWake mov s
  | .identify => Sys2Proof.Machine.execIdentify s
  | .attestReport => Sys2Proof.Machine.execAttestReport s
  | .attestWrap => Sys2Proof.Machine.execAttestWrap s
  | .attestUnwrap => Sys2Proof.Machine.execAttestUnwrap s
  | .crewCreate => Sys2Proof.Machine.execCrewCreate s
  | .crewDestroy => Sys2Proof.Machine.execCrewDestroy s
  | .codeLoad => Sys2Proof.Machine.execCodeLoad s
  | .bind => Sys2Proof.Machine.execBind s
  | .farmLaunch => Sys2Proof.Machine.execFarmLaunch s
  | .signal => Sys2Proof.Machine.execSignal s
  | .preemptCommand => Sys2Proof.Machine.execPreemptCommand s
  | .windowRegister => Sys2Proof.Machine.execWindowRegister s
  | .powerSetCap => Sys2Proof.Machine.execPowerSetCap s
  | .powerSetState => Sys2Proof.Machine.execPowerSetState s
  | .powerSetGating => Sys2Proof.Machine.execPowerSetGating s
  | .debugSetLevel => Sys2Proof.Machine.execDebugSetLevel s
  | .debugSetWatch => Sys2Proof.Machine.execDebugSetWatch s
  | .debugSetCopy => Sys2Proof.Machine.execDebugSetCopy s
  | .errorQuery => Sys2Proof.Machine.execErrorQuery s
  | .repairStatus => Sys2Proof.Machine.execRepairStatus s
  | .patchApply => Sys2Proof.Machine.execPatchApply s
  | .portConfiguration dev peers => Sys2Proof.Machine.execPortConfiguration dev peers s
  | .reservedEncoding => Sys2Proof.Machine.execReservedEncoding s
  | .add d a b => Sys2Proof.Machine.execAdd d a b s
  | .sub d a b => Sys2Proof.Machine.execSub d a b s
  | .and d a b => Sys2Proof.Machine.execAnd d a b s
  | .or d a b => Sys2Proof.Machine.execOr d a b s
  | .xor d a b => Sys2Proof.Machine.execXor d a b s
  | .sll d a b => Sys2Proof.Machine.execSll d a b s
  | .srl d a b => Sys2Proof.Machine.execSrl d a b s
  | .sra d a b => Sys2Proof.Machine.execSra d a b s
  | .slt d a b => Sys2Proof.Machine.execSlt d a b s
  | .sltn d a b => Sys2Proof.Machine.execSltn d a b s
  | .mul d a b => Sys2Proof.Machine.execMul d a b s
  | .mulh d a b => Sys2Proof.Machine.execMulh d a b s
  | .mulhn d a b => Sys2Proof.Machine.execMulhn d a b s
  | .div d a b => Sys2Proof.Machine.execDiv d a b s
  | .divn d a b => Sys2Proof.Machine.execDivn d a b s
  | .rem d a b => Sys2Proof.Machine.execRem d a b s
  | .remn d a b => Sys2Proof.Machine.execRemn d a b s
  | .min d a b => Sys2Proof.Machine.execMin d a b s
  | .max d a b => Sys2Proof.Machine.execMax d a b s
  | .minn d a b => Sys2Proof.Machine.execMinn d a b s
  | .maxn d a b => Sys2Proof.Machine.execMaxn d a b s
  | .clz d a => Sys2Proof.Machine.execClz d a s
  | .ctz d a => Sys2Proof.Machine.execCtz d a s
  | .popc d a => Sys2Proof.Machine.execPopc d a s
  | .addi d a n_i => Sys2Proof.Machine.execAddi d a n_i s
  | .andi d a n_i => Sys2Proof.Machine.execAndi d a n_i s
  | .ori d a n_i => Sys2Proof.Machine.execOri d a n_i s
  | .xori d a n_i => Sys2Proof.Machine.execXori d a n_i s
  | .slli d a n_i => Sys2Proof.Machine.execSlli d a n_i s
  | .srli d a n_i => Sys2Proof.Machine.execSrli d a n_i s
  | .srai d a n_i => Sys2Proof.Machine.execSrai d a n_i s
  | .slti d a n_i => Sys2Proof.Machine.execSlti d a n_i s
  | .sltni d a n_i => Sys2Proof.Machine.execSltni d a n_i s
  | .lim d n_i => Sys2Proof.Machine.execLim d n_i s
  | .ipc d n_i => Sys2Proof.Machine.execIpc d n_i s
  | .ldI8 d a n_i => Sys2Proof.Machine.execLdI8 d a n_i s
  | .ldN8 d a n_i => Sys2Proof.Machine.execLdN8 d a n_i s
  | .ldI16 d a n_i => Sys2Proof.Machine.execLdI16 d a n_i s
  | .ldN16 d a n_i => Sys2Proof.Machine.execLdN16 d a n_i s
  | .ldI32 d a n_i => Sys2Proof.Machine.execLdI32 d a n_i s
  | .ldN32 d a n_i => Sys2Proof.Machine.execLdN32 d a n_i s
  | .ld64 d a n_i => Sys2Proof.Machine.execLd64 d a n_i s
  | .st8 d a n_i => Sys2Proof.Machine.execSt8 d a n_i s
  | .st16 d a n_i => Sys2Proof.Machine.execSt16 d a n_i s
  | .st32 d a n_i => Sys2Proof.Machine.execSt32 d a n_i s
  | .st64 d a n_i => Sys2Proof.Machine.execSt64 d a n_i s
  | .beq a b o => Sys2Proof.Machine.execBeq a b o s
  | .bne a b o => Sys2Proof.Machine.execBne a b o s
  | .blt a b o => Sys2Proof.Machine.execBlt a b o s
  | .bge a b o => Sys2Proof.Machine.execBge a b o s
  | .bltn a b o => Sys2Proof.Machine.execBltn a b o s
  | .bgen a b o => Sys2Proof.Machine.execBgen a b o s
  | .jal o => Sys2Proof.Machine.execJal o s
  | .jalr d a n_i => Sys2Proof.Machine.execJalr d a n_i s
  | .faddF32 d a b => Sys2Proof.Machine.execFaddF32 d a b s
  | .fsubF32 d a b => Sys2Proof.Machine.execFsubF32 d a b s
  | .fmulF32 d a b => Sys2Proof.Machine.execFmulF32 d a b s
  | .fdivF32 d a b => Sys2Proof.Machine.execFdivF32 d a b s
  | .fsqrtF32 d a => Sys2Proof.Machine.execFsqrtF32 d a s
  | .fmaddF32 d a b c => Sys2Proof.Machine.execFmaddF32 d a b c s
  | .fminF32 d a b => Sys2Proof.Machine.execFminF32 d a b s
  | .fmaxF32 d a b => Sys2Proof.Machine.execFmaxF32 d a b s
  | .fcmpF32 d a b c => Sys2Proof.Machine.execFcmpF32 d a b c s
  | .fcvtF32 d a c => Sys2Proof.Machine.execFcvtF32 d a c s
  | .fclassF32 d a => Sys2Proof.Machine.execFclassF32 d a s
  | .faddF64 d a b => Sys2Proof.Machine.execFaddF64 d a b s
  | .fsubF64 d a b => Sys2Proof.Machine.execFsubF64 d a b s
  | .fmulF64 d a b => Sys2Proof.Machine.execFmulF64 d a b s
  | .fdivF64 d a b => Sys2Proof.Machine.execFdivF64 d a b s
  | .fsqrtF64 d a => Sys2Proof.Machine.execFsqrtF64 d a s
  | .fmaddF64 d a b c => Sys2Proof.Machine.execFmaddF64 d a b c s
  | .fminF64 d a b => Sys2Proof.Machine.execFminF64 d a b s
  | .fmaxF64 d a b => Sys2Proof.Machine.execFmaxF64 d a b s
  | .fcmpF64 d a b c => Sys2Proof.Machine.execFcmpF64 d a b c s
  | .fcvtF64 d a c => Sys2Proof.Machine.execFcvtF64 d a c s
  | .fclassF64 d a => Sys2Proof.Machine.execFclassF64 d a s
  | .crd d n => Sys2Proof.Machine.execCrd d n s
  | .cwr n a => Sys2Proof.Machine.execCwr n a s
  | .cset n a => Sys2Proof.Machine.execCset n a s
  | .cclr n a => Sys2Proof.Machine.execCclr n a s
  | .svc n => Sys2Proof.Machine.execSvc n s
  | .tret => Sys2Proof.Machine.execTret s
  | .brk n => Sys2Proof.Machine.execBrk n s
  | .ifence => Sys2Proof.Machine.execIfence s
  | .amoAdd d a b q l n_s => Sys2Proof.Machine.execAmoAdd d a b q l n_s s
  | .amoAnd d a b q l n_s => Sys2Proof.Machine.execAmoAnd d a b q l n_s s
  | .amoOr d a b q l n_s => Sys2Proof.Machine.execAmoOr d a b q l n_s s
  | .amoXor d a b q l n_s => Sys2Proof.Machine.execAmoXor d a b q l n_s s
  | .amoMin d a b q l n_s => Sys2Proof.Machine.execAmoMin d a b q l n_s s
  | .amoMax d a b q l n_s => Sys2Proof.Machine.execAmoMax d a b q l n_s s
  | .amoMinn d a b q l n_s => Sys2Proof.Machine.execAmoMinn d a b q l n_s s
  | .amoMaxn d a b q l n_s => Sys2Proof.Machine.execAmoMaxn d a b q l n_s s
  | .amoSwap d a b q l n_s => Sys2Proof.Machine.execAmoSwap d a b q l n_s s
  | .amoCas d a b q l n_s => Sys2Proof.Machine.execAmoCas d a b q l n_s s
  | .ldAq d a n_s => Sys2Proof.Machine.execLdAq d a n_s s
  | .stRl d a n_s => Sys2Proof.Machine.execStRl d a n_s s
  | .fenceAcq n_s => Sys2Proof.Machine.execFenceAcq n_s s
  | .fenceRel n_s => Sys2Proof.Machine.execFenceRel n_s s
  | .fence n_s => Sys2Proof.Machine.execFence n_s s
  | .vfenceArrive d a b n_s => Sys2Proof.Machine.execVfenceArrive d a b n_s s
  | .cclean a b => Sys2Proof.Machine.execCclean a b s
  | .cinval a b => Sys2Proof.Machine.execCinval a b s
  | .vset d a b => Sys2Proof.Machine.execVset d a b s
  | .vseti d a n_i => Sys2Proof.Machine.execVseti d a n_i s
  | .vrel => Sys2Proof.Machine.execVrel s
  | .vsync => Sys2Proof.Machine.execVsync s
  | .vaddVv d a b p => Sys2Proof.Machine.execVaddVv d a b p s
  | .vaddVx d a b p => Sys2Proof.Machine.execVaddVx d a b p s
  | .vsubVv d a b p => Sys2Proof.Machine.execVsubVv d a b p s
  | .vsubVx d a b p => Sys2Proof.Machine.execVsubVx d a b p s
  | .vmulVv d a b p => Sys2Proof.Machine.execVmulVv d a b p s
  | .vmulVx d a b p => Sys2Proof.Machine.execVmulVx d a b p s
  | .vmulhVv d a b p => Sys2Proof.Machine.execVmulhVv d a b p s
  | .vmulhVx d a b p => Sys2Proof.Machine.execVmulhVx d a b p s
  | .vmaccVv d a b p => Sys2Proof.Machine.execVmaccVv d a b p s
  | .vmaccVx d a b p => Sys2Proof.Machine.execVmaccVx d a b p s
  | .vnmsacVv d a b p => Sys2Proof.Machine.execVnmsacVv d a b p s
  | .vnmsacVx d a b p => Sys2Proof.Machine.execVnmsacVx d a b p s
  | .vdivVv d a b p => Sys2Proof.Machine.execVdivVv d a b p s
  | .vdivVx d a b p => Sys2Proof.Machine.execVdivVx d a b p s
  | .vremVv d a b p => Sys2Proof.Machine.execVremVv d a b p s
  | .vremVx d a b p => Sys2Proof.Machine.execVremVx d a b p s
  | .vminVv d a b p => Sys2Proof.Machine.execVminVv d a b p s
  | .vminVx d a b p => Sys2Proof.Machine.execVminVx d a b p s
  | .vmaxVv d a b p => Sys2Proof.Machine.execVmaxVv d a b p s
  | .vmaxVx d a b p => Sys2Proof.Machine.execVmaxVx d a b p s
  | .vandVv d a b p => Sys2Proof.Machine.execVandVv d a b p s
  | .vandVx d a b p => Sys2Proof.Machine.execVandVx d a b p s
  | .vorVv d a b p => Sys2Proof.Machine.execVorVv d a b p s
  | .vorVx d a b p => Sys2Proof.Machine.execVorVx d a b p s
  | .vxorVv d a b p => Sys2Proof.Machine.execVxorVv d a b p s
  | .vxorVx d a b p => Sys2Proof.Machine.execVxorVx d a b p s
  | .vsllVv d a b p => Sys2Proof.Machine.execVsllVv d a b p s
  | .vsllVx d a b p => Sys2Proof.Machine.execVsllVx d a b p s
  | .vsrlVv d a b p => Sys2Proof.Machine.execVsrlVv d a b p s
  | .vsrlVx d a b p => Sys2Proof.Machine.execVsrlVx d a b p s
  | .vsraVv d a b p => Sys2Proof.Machine.execVsraVv d a b p s
  | .vsraVx d a b p => Sys2Proof.Machine.execVsraVx d a b p s
  | .vaddsVv d a b p => Sys2Proof.Machine.execVaddsVv d a b p s
  | .vaddsVx d a b p => Sys2Proof.Machine.execVaddsVx d a b p s
  | .vsubsVv d a b p => Sys2Proof.Machine.execVsubsVv d a b p s
  | .vsubsVx d a b p => Sys2Proof.Machine.execVsubsVx d a b p s
  | .vwaddVv d a b p => Sys2Proof.Machine.execVwaddVv d a b p s
  | .vwaddVx d a b p => Sys2Proof.Machine.execVwaddVx d a b p s
  | .vwmulVv d a b p => Sys2Proof.Machine.execVwmulVv d a b p s
  | .vwmulVx d a b p => Sys2Proof.Machine.execVwmulVx d a b p s
  | .vwmaccVv d a b p => Sys2Proof.Machine.execVwmaccVv d a b p s
  | .vwmaccVx d a b p => Sys2Proof.Machine.execVwmaccVx d a b p s
  | .vnclipVv d a b p => Sys2Proof.Machine.execVnclipVv d a b p s
  | .vnclipVx d a b p => Sys2Proof.Machine.execVnclipVx d a b p s
  | .vselVv d a b p => Sys2Proof.Machine.execVselVv d a b p s
  | .vselVx d a b p => Sys2Proof.Machine.execVselVx d a b p s
  | .vfaddVv d a b p => Sys2Proof.Machine.execVfaddVv d a b p s
  | .vfaddVx d a b p => Sys2Proof.Machine.execVfaddVx d a b p s
  | .vfsubVv d a b p => Sys2Proof.Machine.execVfsubVv d a b p s
  | .vfsubVx d a b p => Sys2Proof.Machine.execVfsubVx d a b p s
  | .vfmulVv d a b p => Sys2Proof.Machine.execVfmulVv d a b p s
  | .vfmulVx d a b p => Sys2Proof.Machine.execVfmulVx d a b p s
  | .vfdivVv d a b p => Sys2Proof.Machine.execVfdivVv d a b p s
  | .vfdivVx d a b p => Sys2Proof.Machine.execVfdivVx d a b p s
  | .vfmaVv d a b p => Sys2Proof.Machine.execVfmaVv d a b p s
  | .vfmaVx d a b p => Sys2Proof.Machine.execVfmaVx d a b p s
  | .vfnmaVv d a b p => Sys2Proof.Machine.execVfnmaVv d a b p s
  | .vfnmaVx d a b p => Sys2Proof.Machine.execVfnmaVx d a b p s
  | .vfminVv d a b p => Sys2Proof.Machine.execVfminVv d a b p s
  | .vfminVx d a b p => Sys2Proof.Machine.execVfminVx d a b p s
  | .vfmaxVv d a b p => Sys2Proof.Machine.execVfmaxVv d a b p s
  | .vfmaxVx d a b p => Sys2Proof.Machine.execVfmaxVx d a b p s
  | .vfsqrt d a p => Sys2Proof.Machine.execVfsqrt d a p s
  | .vfrsqrt d a p => Sys2Proof.Machine.execVfrsqrt d a p s
  | .vfrcp d a p => Sys2Proof.Machine.execVfrcp d a p s
  | .vfexp2 d a p => Sys2Proof.Machine.execVfexp2 d a p s
  | .vflog2 d a p => Sys2Proof.Machine.execVflog2 d a p s
  | .vftanh d a p => Sys2Proof.Machine.execVftanh d a p s
  | .vcmp d a b k c p => Sys2Proof.Machine.execVcmp d a b k c p s
  | .vfcmp d a b k c p => Sys2Proof.Machine.execVfcmp d a b k c p s
  | .mand d a b => Sys2Proof.Machine.execMand d a b s
  | .mor d a b => Sys2Proof.Machine.execMor d a b s
  | .mxor d a b => Sys2Proof.Machine.execMxor d a b s
  | .mnot d a => Sys2Proof.Machine.execMnot d a s
  | .mpop d a => Sys2Proof.Machine.execMpop d a s
  | .mfirst d a => Sys2Proof.Machine.execMfirst d a s
  | .vred d a b o p => Sys2Proof.Machine.execVred d a b o p s
  | .vfred d a b o p => Sys2Proof.Machine.execVfred d a b o p s
  | .vscan d a b o p => Sys2Proof.Machine.execVscan d a b o p s
  | .vscanFloat d a b o p => Sys2Proof.Machine.execVscanFloat d a b o p s
  | .vslide d a b p => Sys2Proof.Machine.execVslide d a b p s
  | .vrgather d a b p => Sys2Proof.Machine.execVrgather d a b p s
  | .vcompress d a b => Sys2Proof.Machine.execVcompress d a b s
  | .vid d p => Sys2Proof.Machine.execVid d p s
  | .vbcast d a p => Sys2Proof.Machine.execVbcast d a p s
  | .vmvx d a b => Sys2Proof.Machine.execVmvx d a b s
  | .vmvv d a p => Sys2Proof.Machine.execVmvv d a p s
  | .vcvt d a t p => Sys2Proof.Machine.execVcvt d a t p s
  | .vcvtMx d a b => Sys2Proof.Machine.execVcvtMx d a b s
  | .vpack d a => Sys2Proof.Machine.execVpack d a s
  | .vunpack d a => Sys2Proof.Machine.execVunpack d a s
  | .vld d a p => Sys2Proof.Machine.execVld d a p s
  | .vlds d a b p => Sys2Proof.Machine.execVlds d a b p s
  | .vldx d a b p => Sys2Proof.Machine.execVldx d a b p s
  | .vldChase d a b p => Sys2Proof.Machine.execVldChase d a b p s
  | .vldseg d a b g p => Sys2Proof.Machine.execVldseg d a b g p s
  | .vst d a p => Sys2Proof.Machine.execVst d a p s
  | .vstU d a p => Sys2Proof.Machine.execVstU d a p s
  | .vsts d a b p => Sys2Proof.Machine.execVsts d a b p s
  | .vstx d a b p => Sys2Proof.Machine.execVstx d a b p s
  | .vstxU d a b p => Sys2Proof.Machine.execVstxU d a b p s
  | .vamoAdd d a b p => Sys2Proof.Machine.execVamoAdd d a b p s
  | .cpTile d a => Sys2Proof.Machine.execCpTile d a s
  | .cpStream d a => Sys2Proof.Machine.execCpStream d a s
  | .cpGather d a b c => Sys2Proof.Machine.execCpGather d a b c s
  | .cpResume d a => Sys2Proof.Machine.execCpResume d a s
  | .cpCancel d a => Sys2Proof.Machine.execCpCancel d a s
  | .cpStatus d a => Sys2Proof.Machine.execCpStatus d a s
  | .cpMg d a => Sys2Proof.Machine.execCpMg d a s
  | .mgCheck d a => Sys2Proof.Machine.execMgCheck d a s
  | .cpKvs d a => Sys2Proof.Machine.execCpKvs d a s
  | .mattach a => Sys2Proof.Machine.execMattach a s
  | .mdetach a => Sys2Proof.Machine.execMdetach a s
  | .mshape a => Sys2Proof.Machine.execMshape a s
  | .mldb l g => Sys2Proof.Machine.execMldb l g s
  | .mma d a l => Sys2Proof.Machine.execMma d a l s
  | .mmaMx d a b l => Sys2Proof.Machine.execMmaMx d a b l s
  | .mzero d => Sys2Proof.Machine.execMzero d s
  | .mdrain g t b => Sys2Proof.Machine.execMdrain g t b s
  | .mfill t g b => Sys2Proof.Machine.execMfill t g b s
  | .msave t a b => Sys2Proof.Machine.execMsave t a b s
  | .mload t a b => Sys2Proof.Machine.execMload t a b s
  | .spawn d a b c => Sys2Proof.Machine.execSpawn d a b c s
  | .spawnOn d a b c => Sys2Proof.Machine.execSpawnOn d a b c s
  | .exit a => Sys2Proof.Machine.execExit a s
  | .yield a => Sys2Proof.Machine.execYield a s
  | .await d a b => Sys2Proof.Machine.execAwait d a b s
  | .fnext d a => Sys2Proof.Machine.execFnext d a s
  | .farm d a b => Sys2Proof.Machine.execFarm d a b s
  | .vctxSave d a b c => Sys2Proof.Machine.execVctxSave d a b c s
  | .vctxRestore d a b c => Sys2Proof.Machine.execVctxRestore d a b c s
  | .preempt d a b => Sys2Proof.Machine.execPreempt d a b s
  | .crewBind d a => Sys2Proof.Machine.execCrewBind d a s
  | .tkinit d a b => Sys2Proof.Machine.execTkinit d a b s
  | .tkarrive d a b n_s => Sys2Proof.Machine.execTkarrive d a b n_s s
  | .tkexpect d a b => Sys2Proof.Machine.execTkexpect d a b s
  | .tksig d a b n_s => Sys2Proof.Machine.execTksig d a b n_s s
  | .tkread d a e => Sys2Proof.Machine.execTkread d a e s
  | .tkpoll d a b => Sys2Proof.Machine.execTkpoll d a b s
  | .futSet d a b n_s => Sys2Proof.Machine.execFutSet d a b n_s s
  | .futGet d a b => Sys2Proof.Machine.execFutGet d a b s
  | .send d a b => Sys2Proof.Machine.execSend d a b s
  | .recv d a b => Sys2Proof.Machine.execRecv d a b s
  | .post d a b => Sys2Proof.Machine.execPost d a b s
  | .pcommit d a b => Sys2Proof.Machine.execPcommit d a b s
  | .pdecommit d a b => Sys2Proof.Machine.execPdecommit d a b s
  | .palloc d a => Sys2Proof.Machine.execPalloc d a s
  | .pfree d a b => Sys2Proof.Machine.execPfree d a b s
  | .tlbinv d a b c => Sys2Proof.Machine.execTlbinv d a b c s
  | .space d a b => Sys2Proof.Machine.execSpace d a b s
  | .topk d a b n_s => Sys2Proof.Machine.execTopk d a b n_s s
  | .umRound d a b => Sys2Proof.Machine.execUmRound d a b s
  | .umDirty d a => Sys2Proof.Machine.execUmDirty d a s
  | .wopen d a => Sys2Proof.Machine.execWopen d a s
  | .wclose d a b => Sys2Proof.Machine.execWclose d a b s
  | .wld d a n q => Sys2Proof.Machine.execWld d a n q s
  | .wst d a b c => Sys2Proof.Machine.execWst d a b c s
  | .wfenceFlag d a b => Sys2Proof.Machine.execWfenceFlag d a b s
  | .wamoAdd d a b q l => Sys2Proof.Machine.execWamoAdd d a b q l s
  | .wamoAnd d a b q l => Sys2Proof.Machine.execWamoAnd d a b q l s
  | .wamoOr d a b q l => Sys2Proof.Machine.execWamoOr d a b q l s
  | .wamoXor d a b q l => Sys2Proof.Machine.execWamoXor d a b q l s
  | .wamoMin d a b q l => Sys2Proof.Machine.execWamoMin d a b q l s
  | .wamoMax d a b q l => Sys2Proof.Machine.execWamoMax d a b q l s
  | .wamoMinn d a b q l => Sys2Proof.Machine.execWamoMinn d a b q l s
  | .wamoMaxn d a b q l => Sys2Proof.Machine.execWamoMaxn d a b q l s
  | .wamoSwap d a b q l => Sys2Proof.Machine.execWamoSwap d a b q l s
  | .wamoCas d a b q l => Sys2Proof.Machine.execWamoCas d a b q l s
  | .cAdd a => Sys2Proof.Machine.execCAdd a s
  | .cSub a => Sys2Proof.Machine.execCSub a s
  | .cAnd a => Sys2Proof.Machine.execCAnd a s
  | .cOr a => Sys2Proof.Machine.execCOr a s
  | .cXor a => Sys2Proof.Machine.execCXor a s
  | .cMul a => Sys2Proof.Machine.execCMul a s
  | .cAddi n_i => Sys2Proof.Machine.execCAddi n_i s
  | .cSlli a h => Sys2Proof.Machine.execCSlli a h s
  | .cSrli a h => Sys2Proof.Machine.execCSrli a h s
  | .cSrai a h => Sys2Proof.Machine.execCSrai a h s
  | .cLd a b => Sys2Proof.Machine.execCLd a b s
  | .cSt a b => Sys2Proof.Machine.execCSt a b s
  | .cVadd a => Sys2Proof.Machine.execCVadd a s
  | .cVsub a => Sys2Proof.Machine.execCVsub a s
  | .cVmul a => Sys2Proof.Machine.execCVmul a s
  | .cVmacc a b => Sys2Proof.Machine.execCVmacc a b s
  | .cVfadd a => Sys2Proof.Machine.execCVfadd a s
  | .cVfsub a => Sys2Proof.Machine.execCVfsub a s
  | .cVfmul a => Sys2Proof.Machine.execCVfmul a s
  | .cVfma a b => Sys2Proof.Machine.execCVfma a b s
  | .cVfmin a => Sys2Proof.Machine.execCVfmin a s
  | .cVfmax a => Sys2Proof.Machine.execCVfmax a s
  | .cVand a => Sys2Proof.Machine.execCVand a s
  | .cVor a => Sys2Proof.Machine.execCVor a s
  | .cVxor a => Sys2Proof.Machine.execCVxor a s
  | .cVmin a => Sys2Proof.Machine.execCVmin a s
  | .cVmax a => Sys2Proof.Machine.execCVmax a s

end Sys2Proof.Machine
end

