-- ==== Sys2Proof/Machine/Fast.lean ====
section
/-!
DEFINITION. Decoding and executing in one: for each decoder the same table with the meanings in place of the instructions, proved equal to
execution of what it decodes. The step is defined by the decoder and evaluated by this.
-/

namespace Sys2Proof.Machine

/-- Execution of what a decoder answers: an instruction whose fields pass their checks, else the trap on a reserved encoding (R39). -/
noncomputable def runOpt (o : Option Instr) (s : State) : Result :=
  match o with
  | some i => if i.wf then exec i s else exec .reservedEncoding s
  | none => exec .reservedEncoding s

/-- Two tables that branch on one condition agree where their branches do. -/
theorem run_ite {c : Prop} [Decidable c] {x y : Result} {o p q : Option Instr} {s : State} (h : o = if c then p else q)
    (hx : x = runOpt p s) (hy : y = runOpt q s) : (if c then x else y) = runOpt o s := by
  subst h; split <;> assumption

/-- What `decodeOp`'s instruction does. -/
def runOp (r : Raw) (s : State) : Result :=
  match r.f.toNat with
  | 0 => if r.k = 0#1 ∧ r.p = 0#4 then execAdd r.d r.a r.b s else execReservedEncoding s
  | 1 => if r.k = 0#1 ∧ r.p = 0#4 then execSub r.d r.a r.b s else execReservedEncoding s
  | 2 => if r.k = 0#1 ∧ r.p = 0#4 then execAnd r.d r.a r.b s else execReservedEncoding s
  | 3 => if r.k = 0#1 ∧ r.p = 0#4 then execOr r.d r.a r.b s else execReservedEncoding s
  | 4 => if r.k = 0#1 ∧ r.p = 0#4 then execXor r.d r.a r.b s else execReservedEncoding s
  | 5 => if r.k = 0#1 ∧ r.p = 0#4 then execSll r.d r.a r.b s else execReservedEncoding s
  | 6 => if r.k = 0#1 ∧ r.p = 0#4 then execSrl r.d r.a r.b s else execReservedEncoding s
  | 7 => if r.k = 0#1 ∧ r.p = 0#4 then execSra r.d r.a r.b s else execReservedEncoding s
  | 8 => if r.k = 0#1 ∧ r.p = 0#4 then execSlt r.d r.a r.b s else execReservedEncoding s
  | 9 => if r.k = 0#1 ∧ r.p = 0#4 then execSltn r.d r.a r.b s else execReservedEncoding s
  | 10 => if r.k = 0#1 ∧ r.p = 0#4 then execMul r.d r.a r.b s else execReservedEncoding s
  | 11 => if r.k = 0#1 ∧ r.p = 0#4 then execMulh r.d r.a r.b s else execReservedEncoding s
  | 12 => if r.k = 0#1 ∧ r.p = 0#4 then execMulhn r.d r.a r.b s else execReservedEncoding s
  | 13 => if r.k = 0#1 ∧ r.p = 0#4 then execDiv r.d r.a r.b s else execReservedEncoding s
  | 14 => if r.k = 0#1 ∧ r.p = 0#4 then execDivn r.d r.a r.b s else execReservedEncoding s
  | 15 => if r.k = 0#1 ∧ r.p = 0#4 then execRem r.d r.a r.b s else execReservedEncoding s
  | 16 => if r.k = 0#1 ∧ r.p = 0#4 then execRemn r.d r.a r.b s else execReservedEncoding s
  | 17 => if r.k = 0#1 ∧ r.p = 0#4 then execMin r.d r.a r.b s else execReservedEncoding s
  | 18 => if r.k = 0#1 ∧ r.p = 0#4 then execMax r.d r.a r.b s else execReservedEncoding s
  | 19 => if r.k = 0#1 ∧ r.p = 0#4 then execMinn r.d r.a r.b s else execReservedEncoding s
  | 20 => if r.k = 0#1 ∧ r.p = 0#4 then execMaxn r.d r.a r.b s else execReservedEncoding s
  | 21 => if r.k = 0#1 ∧ r.p = 0#4 ∧ r.b = 0#5 then execClz r.d r.a s else execReservedEncoding s
  | 22 => if r.k = 0#1 ∧ r.p = 0#4 ∧ r.b = 0#5 then execCtz r.d r.a s else execReservedEncoding s
  | 23 => if r.k = 0#1 ∧ r.p = 0#4 ∧ r.b = 0#5 then execPopc r.d r.a s else execReservedEncoding s
  | _ => execReservedEncoding s

theorem runOp_eq (r : Raw) (s : State) : runOp r s = runOpt (decodeOp r) s := by
  unfold runOp decodeOp
  generalize r.f.toNat = n
  split
  · exact run_ite rfl rfl rfl
  · exact run_ite rfl rfl rfl
  · exact run_ite rfl rfl rfl
  · exact run_ite rfl rfl rfl
  · exact run_ite rfl rfl rfl
  · exact run_ite rfl rfl rfl
  · exact run_ite rfl rfl rfl
  · exact run_ite rfl rfl rfl
  · exact run_ite rfl rfl rfl
  · exact run_ite rfl rfl rfl
  · exact run_ite rfl rfl rfl
  · exact run_ite rfl rfl rfl
  · exact run_ite rfl rfl rfl
  · exact run_ite rfl rfl rfl
  · exact run_ite rfl rfl rfl
  · exact run_ite rfl rfl rfl
  · exact run_ite rfl rfl rfl
  · exact run_ite rfl rfl rfl
  · exact run_ite rfl rfl rfl
  · exact run_ite rfl rfl rfl
  · exact run_ite rfl rfl rfl
  · exact run_ite rfl rfl rfl
  · exact run_ite rfl rfl rfl
  · exact run_ite rfl rfl rfl
  · first | exact rfl | (split <;> first | exact rfl | contradiction)

/-- What `decodeFp32`'s instruction does. -/
def runFp32 (r : Raw) (s : State) : Result :=
  match r.f.toNat with
  | 0 => if r.k = 0#1 ∧ r.p = 0#4 then execFaddF32 r.d r.a r.b s else execReservedEncoding s
  | 1 => if r.k = 0#1 ∧ r.p = 0#4 then execFsubF32 r.d r.a r.b s else execReservedEncoding s
  | 2 => if r.k = 0#1 ∧ r.p = 0#4 then execFmulF32 r.d r.a r.b s else execReservedEncoding s
  | 3 => if r.k = 0#1 ∧ r.p = 0#4 then execFdivF32 r.d r.a r.b s else execReservedEncoding s
  | 4 => if r.k = 0#1 ∧ r.p = 0#4 ∧ r.b = 0#5 then execFsqrtF32 r.d r.a s else execReservedEncoding s
  | 5 => execFmaddF32 r.d r.a r.b (r.k ++ r.p) s
  | 6 => if r.k = 0#1 ∧ r.p = 0#4 then execFminF32 r.d r.a r.b s else execReservedEncoding s
  | 7 => if r.k = 0#1 ∧ r.p = 0#4 then execFmaxF32 r.d r.a r.b s else execReservedEncoding s
  | 8 => (if decide ((r.k ++ r.p).toNat ≤ 3) then execFcmpF32 r.d r.a r.b (r.k ++ r.p) s else execReservedEncoding s)
  | 9 => if r.b = 0#5 then (if decide ((r.k ++ r.p).toNat ≤ 4) then execFcvtF32 r.d r.a (r.k ++ r.p) s else execReservedEncoding s) else execReservedEncoding s
  | 10 => if r.k = 0#1 ∧ r.p = 0#4 ∧ r.b = 0#5 then execFclassF32 r.d r.a s else execReservedEncoding s
  | _ => execReservedEncoding s

theorem runFp32_eq (r : Raw) (s : State) : runFp32 r s = runOpt (decodeFp32 r) s := by
  unfold runFp32 decodeFp32
  generalize r.f.toNat = n
  split
  · exact run_ite rfl rfl rfl
  · exact run_ite rfl rfl rfl
  · exact run_ite rfl rfl rfl
  · exact run_ite rfl rfl rfl
  · exact run_ite rfl rfl rfl
  · exact rfl
  · exact run_ite rfl rfl rfl
  · exact run_ite rfl rfl rfl
  · exact rfl
  · exact run_ite rfl rfl rfl
  · exact run_ite rfl rfl rfl
  · first | exact rfl | (split <;> first | exact rfl | contradiction)

/-- What `decodeFp64`'s instruction does. -/
def runFp64 (r : Raw) (s : State) : Result :=
  match r.f.toNat with
  | 0 => if r.k = 0#1 ∧ r.p = 0#4 then execFaddF64 r.d r.a r.b s else execReservedEncoding s
  | 1 => if r.k = 0#1 ∧ r.p = 0#4 then execFsubF64 r.d r.a r.b s else execReservedEncoding s
  | 2 => if r.k = 0#1 ∧ r.p = 0#4 then execFmulF64 r.d r.a r.b s else execReservedEncoding s
  | 3 => if r.k = 0#1 ∧ r.p = 0#4 then execFdivF64 r.d r.a r.b s else execReservedEncoding s
  | 4 => if r.k = 0#1 ∧ r.p = 0#4 ∧ r.b = 0#5 then execFsqrtF64 r.d r.a s else execReservedEncoding s
  | 5 => execFmaddF64 r.d r.a r.b (r.k ++ r.p) s
  | 6 => if r.k = 0#1 ∧ r.p = 0#4 then execFminF64 r.d r.a r.b s else execReservedEncoding s
  | 7 => if r.k = 0#1 ∧ r.p = 0#4 then execFmaxF64 r.d r.a r.b s else execReservedEncoding s
  | 8 => (if decide ((r.k ++ r.p).toNat ≤ 3) then execFcmpF64 r.d r.a r.b (r.k ++ r.p) s else execReservedEncoding s)
  | 9 => if r.b = 0#5 then (if decide ((r.k ++ r.p).toNat ≤ 4) then execFcvtF64 r.d r.a (r.k ++ r.p) s else execReservedEncoding s) else execReservedEncoding s
  | 10 => if r.k = 0#1 ∧ r.p = 0#4 ∧ r.b = 0#5 then execFclassF64 r.d r.a s else execReservedEncoding s
  | _ => execReservedEncoding s

theorem runFp64_eq (r : Raw) (s : State) : runFp64 r s = runOpt (decodeFp64 r) s := by
  unfold runFp64 decodeFp64
  generalize r.f.toNat = n
  split
  · exact run_ite rfl rfl rfl
  · exact run_ite rfl rfl rfl
  · exact run_ite rfl rfl rfl
  · exact run_ite rfl rfl rfl
  · exact run_ite rfl rfl rfl
  · exact rfl
  · exact run_ite rfl rfl rfl
  · exact run_ite rfl rfl rfl
  · exact rfl
  · exact run_ite rfl rfl rfl
  · exact run_ite rfl rfl rfl
  · first | exact rfl | (split <;> first | exact rfl | contradiction)

/-- What `decodeSys`'s instruction does. -/
def runSys (r : Raw) (s : State) : Result :=
  match (r.f.extractLsb' 2 3).toNat with
  | 0 => if r.a = 0#5 then (if assignedCreg (r.f.extractLsb' 0 2 ++ r.k ++ r.p ++ r.b) then execCrd r.d (r.f.extractLsb' 0 2 ++ r.k ++ r.p ++ r.b) s else execReservedEncoding s) else execReservedEncoding s
  | 1 => if r.d = 0#5 then (if assignedCreg (r.f.extractLsb' 0 2 ++ r.k ++ r.p ++ r.b) then execCwr (r.f.extractLsb' 0 2 ++ r.k ++ r.p ++ r.b) r.a s else execReservedEncoding s) else execReservedEncoding s
  | 2 => if r.d = 0#5 then (if assignedCreg (r.f.extractLsb' 0 2 ++ r.k ++ r.p ++ r.b) then execCset (r.f.extractLsb' 0 2 ++ r.k ++ r.p ++ r.b) r.a s else execReservedEncoding s) else execReservedEncoding s
  | 3 => if r.d = 0#5 then (if assignedCreg (r.f.extractLsb' 0 2 ++ r.k ++ r.p ++ r.b) then execCclr (r.f.extractLsb' 0 2 ++ r.k ++ r.p ++ r.b) r.a s else execReservedEncoding s) else execReservedEncoding s
  | 4 => if r.a = 0#5 ∧ r.d = 0#5 then execSvc (r.f.extractLsb' 0 2 ++ r.k ++ r.p ++ r.b) s else execReservedEncoding s
  | 5 => if r.f.extractLsb' 0 2 = 0#2 ∧ r.k = 0#1 ∧ r.p = 0#4 ∧ r.b = 0#5 ∧ r.a = 0#5 ∧ r.d = 0#5 then execTret s else execReservedEncoding s
  | 6 => if r.a = 0#5 ∧ r.d = 0#5 then execBrk (r.f.extractLsb' 0 2 ++ r.k ++ r.p ++ r.b) s else execReservedEncoding s
  | 7 => if r.f.extractLsb' 0 2 = 0#2 ∧ r.k = 0#1 ∧ r.p = 0#4 ∧ r.b = 0#5 ∧ r.a = 0#5 ∧ r.d = 0#5 then execIfence s else execReservedEncoding s
  | _ => execReservedEncoding s

theorem runSys_eq (r : Raw) (s : State) : runSys r s = runOpt (decodeSys r) s := by
  unfold runSys decodeSys
  generalize (r.f.extractLsb' 2 3).toNat = n
  split
  · exact run_ite rfl rfl rfl
  · exact run_ite rfl rfl rfl
  · exact run_ite rfl rfl rfl
  · exact run_ite rfl rfl rfl
  · exact run_ite rfl rfl rfl
  · exact run_ite rfl rfl rfl
  · exact run_ite rfl rfl rfl
  · exact run_ite rfl rfl rfl
  · first | exact rfl | (split <;> first | exact rfl | contradiction)

/-- What `decodeAtom`'s instruction does. -/
def runAtom (r : Raw) (s : State) : Result :=
  match r.f.toNat with
  | 0 => (if decide ((r.p.extractLsb' 0 3).toNat ≤ 5) then execAmoAdd r.d r.a r.b r.k (r.p.extractLsb' 3 1) (r.p.extractLsb' 0 3) s else execReservedEncoding s)
  | 1 => (if decide ((r.p.extractLsb' 0 3).toNat ≤ 5) then execAmoAnd r.d r.a r.b r.k (r.p.extractLsb' 3 1) (r.p.extractLsb' 0 3) s else execReservedEncoding s)
  | 2 => (if decide ((r.p.extractLsb' 0 3).toNat ≤ 5) then execAmoOr r.d r.a r.b r.k (r.p.extractLsb' 3 1) (r.p.extractLsb' 0 3) s else execReservedEncoding s)
  | 3 => (if decide ((r.p.extractLsb' 0 3).toNat ≤ 5) then execAmoXor r.d r.a r.b r.k (r.p.extractLsb' 3 1) (r.p.extractLsb' 0 3) s else execReservedEncoding s)
  | 4 => (if decide ((r.p.extractLsb' 0 3).toNat ≤ 5) then execAmoMin r.d r.a r.b r.k (r.p.extractLsb' 3 1) (r.p.extractLsb' 0 3) s else execReservedEncoding s)
  | 5 => (if decide ((r.p.extractLsb' 0 3).toNat ≤ 5) then execAmoMax r.d r.a r.b r.k (r.p.extractLsb' 3 1) (r.p.extractLsb' 0 3) s else execReservedEncoding s)
  | 6 => (if decide ((r.p.extractLsb' 0 3).toNat ≤ 5) then execAmoMinn r.d r.a r.b r.k (r.p.extractLsb' 3 1) (r.p.extractLsb' 0 3) s else execReservedEncoding s)
  | 7 => (if decide ((r.p.extractLsb' 0 3).toNat ≤ 5) then execAmoMaxn r.d r.a r.b r.k (r.p.extractLsb' 3 1) (r.p.extractLsb' 0 3) s else execReservedEncoding s)
  | 8 => (if decide ((r.p.extractLsb' 0 3).toNat ≤ 5) then execAmoSwap r.d r.a r.b r.k (r.p.extractLsb' 3 1) (r.p.extractLsb' 0 3) s else execReservedEncoding s)
  | 9 => (if decide ((r.p.extractLsb' 0 3).toNat ≤ 5) then execAmoCas r.d r.a r.b r.k (r.p.extractLsb' 3 1) (r.p.extractLsb' 0 3) s else execReservedEncoding s)
  | 16 => if r.k = 1#1 ∧ r.p.extractLsb' 3 1 = 0#1 ∧ r.b = 0#5 then (if decide ((r.p.extractLsb' 0 3).toNat ≤ 5) then execLdAq r.d r.a (r.p.extractLsb' 0 3) s else execReservedEncoding s) else execReservedEncoding s
  | 17 => if r.k = 0#1 ∧ r.p.extractLsb' 3 1 = 1#1 ∧ r.b = 0#5 then (if decide ((r.p.extractLsb' 0 3).toNat ≤ 5) then execStRl r.d r.a (r.p.extractLsb' 0 3) s else execReservedEncoding s) else execReservedEncoding s
  | _ => execReservedEncoding s

theorem runAtom_eq (r : Raw) (s : State) : runAtom r s = runOpt (decodeAtom r) s := by
  unfold runAtom decodeAtom
  generalize r.f.toNat = n
  split
  · exact rfl
  · exact rfl
  · exact rfl
  · exact rfl
  · exact rfl
  · exact rfl
  · exact rfl
  · exact rfl
  · exact rfl
  · exact rfl
  · exact run_ite rfl rfl rfl
  · exact run_ite rfl rfl rfl
  · first | exact rfl | (split <;> first | exact rfl | contradiction)

/-- What `decodeFence`'s instruction does. -/
def runFence (r : Raw) (s : State) : Result :=
  match r.f.toNat with
  | 0 =>
    if r.k = 0#1 ∧ r.p.extractLsb' 3 1 = 1#1 ∧ r.b = 0#5 ∧ r.a = 0#5 ∧ r.d = 0#5 then (if decide ((r.p.extractLsb' 0 3).toNat ≤ 5) then execFenceAcq (r.p.extractLsb' 0 3) s else execReservedEncoding s)
    else if r.k = 1#1 ∧ r.p.extractLsb' 3 1 = 0#1 ∧ r.b = 0#5 ∧ r.a = 0#5 ∧ r.d = 0#5 then (if decide ((r.p.extractLsb' 0 3).toNat ≤ 5) then execFenceRel (r.p.extractLsb' 0 3) s else execReservedEncoding s)
    else if r.k = 1#1 ∧ r.p.extractLsb' 3 1 = 1#1 ∧ r.b = 0#5 ∧ r.a = 0#5 ∧ r.d = 0#5 then (if decide ((r.p.extractLsb' 0 3).toNat ≤ 5) then execFence (r.p.extractLsb' 0 3) s else execReservedEncoding s)
    else execReservedEncoding s
  | 1 => if r.k = 0#1 ∧ r.p.extractLsb' 3 1 = 0#1 then (if decide ((r.p.extractLsb' 0 3).toNat ≤ 5) then execVfenceArrive r.d r.a r.b (r.p.extractLsb' 0 3) s else execReservedEncoding s) else execReservedEncoding s
  | 2 => if r.k = 0#1 ∧ r.p = 0#4 ∧ r.d = 0#5 then (if decide (r.a ≠ 0#5) || decide (r.b = 0#5) then execCclean r.a r.b s else execReservedEncoding s) else execReservedEncoding s
  | 3 => if r.k = 0#1 ∧ r.p = 0#4 ∧ r.d = 0#5 then (if decide (r.a ≠ 0#5) || decide (r.b = 0#5) then execCinval r.a r.b s else execReservedEncoding s) else execReservedEncoding s
  | _ => execReservedEncoding s

theorem runFence_eq (r : Raw) (s : State) : runFence r s = runOpt (decodeFence r) s := by
  unfold runFence decodeFence
  generalize r.f.toNat = n
  split
  · exact run_ite rfl rfl (run_ite rfl rfl (run_ite rfl rfl rfl))
  · exact run_ite rfl rfl rfl
  · exact run_ite rfl rfl rfl
  · exact run_ite rfl rfl rfl
  · first | exact rfl | (split <;> first | exact rfl | contradiction)

/-- What `decodeVctl`'s instruction does. -/
def runVctl (r : Raw) (s : State) : Result :=
  match r.f.toNat with
  | 0 => if r.k = 0#1 ∧ r.p = 0#4 then execVset r.d r.a r.b s else execReservedEncoding s
  | 1 => if r.k = 0#1 ∧ r.p = 0#4 ∧ r.b = 0#5 ∧ r.a = 0#5 ∧ r.d = 0#5 then execVrel s else execReservedEncoding s
  | 2 => if r.k = 0#1 ∧ r.p = 0#4 ∧ r.b = 0#5 ∧ r.a = 0#5 ∧ r.d = 0#5 then execVsync s else execReservedEncoding s
  | _ => execReservedEncoding s

theorem runVctl_eq (r : Raw) (s : State) : runVctl r s = runOpt (decodeVctl r) s := by
  unfold runVctl decodeVctl
  generalize r.f.toNat = n
  split
  · exact run_ite rfl rfl rfl
  · exact run_ite rfl rfl rfl
  · exact run_ite rfl rfl rfl
  · first | exact rfl | (split <;> first | exact rfl | contradiction)

/-- What `decodeVaVv`'s instruction does. -/
def runVaVv (r : Raw) (s : State) : Result :=
  match (r.f ++ r.k).toNat with
  | 0 => execVaddVv r.d r.a r.b r.p s
  | 1 => execVsubVv r.d r.a r.b r.p s
  | 2 => execVmulVv r.d r.a r.b r.p s
  | 3 => execVmulhVv r.d r.a r.b r.p s
  | 4 => execVmaccVv r.d r.a r.b r.p s
  | 5 => execVnmsacVv r.d r.a r.b r.p s
  | 6 => execVdivVv r.d r.a r.b r.p s
  | 7 => execVremVv r.d r.a r.b r.p s
  | 8 => execVminVv r.d r.a r.b r.p s
  | 9 => execVmaxVv r.d r.a r.b r.p s
  | 10 => execVandVv r.d r.a r.b r.p s
  | 11 => execVorVv r.d r.a r.b r.p s
  | 12 => execVxorVv r.d r.a r.b r.p s
  | 13 => execVsllVv r.d r.a r.b r.p s
  | 14 => execVsrlVv r.d r.a r.b r.p s
  | 15 => execVsraVv r.d r.a r.b r.p s
  | 16 => execVaddsVv r.d r.a r.b r.p s
  | 17 => execVsubsVv r.d r.a r.b r.p s
  | 18 => execVwaddVv r.d r.a r.b r.p s
  | 19 => execVwmulVv r.d r.a r.b r.p s
  | 20 => execVwmaccVv r.d r.a r.b r.p s
  | 21 => execVnclipVv r.d r.a r.b r.p s
  | 22 => (if decide (r.p ≠ 0#4) then execVselVv r.d r.a r.b r.p s else execReservedEncoding s)
  | 23 => execVfaddVv r.d r.a r.b r.p s
  | 24 => execVfsubVv r.d r.a r.b r.p s
  | 25 => execVfmulVv r.d r.a r.b r.p s
  | 26 => execVfdivVv r.d r.a r.b r.p s
  | 27 => execVfmaVv r.d r.a r.b r.p s
  | 28 => execVfnmaVv r.d r.a r.b r.p s
  | 29 => execVfminVv r.d r.a r.b r.p s
  | 30 => execVfmaxVv r.d r.a r.b r.p s
  | 31 => if r.b = 0#5 then execVfsqrt r.d r.a r.p s else execReservedEncoding s
  | 32 => if r.b = 0#5 then execVfrsqrt r.d r.a r.p s else execReservedEncoding s
  | 33 => if r.b = 0#5 then execVfrcp r.d r.a r.p s else execReservedEncoding s
  | 34 => if r.b = 0#5 then execVfexp2 r.d r.a r.p s else execReservedEncoding s
  | 35 => if r.b = 0#5 then execVflog2 r.d r.a r.p s else execReservedEncoding s
  | 36 => if r.b = 0#5 then execVftanh r.d r.a r.p s else execReservedEncoding s
  | _ => execReservedEncoding s

theorem runVaVv_eq (r : Raw) (s : State) : runVaVv r s = runOpt (decodeVaVv r) s := by
  unfold runVaVv decodeVaVv
  generalize (r.f ++ r.k).toNat = n
  split
  · exact rfl
  · exact rfl
  · exact rfl
  · exact rfl
  · exact rfl
  · exact rfl
  · exact rfl
  · exact rfl
  · exact rfl
  · exact rfl
  · exact rfl
  · exact rfl
  · exact rfl
  · exact rfl
  · exact rfl
  · exact rfl
  · exact rfl
  · exact rfl
  · exact rfl
  · exact rfl
  · exact rfl
  · exact rfl
  · exact rfl
  · exact rfl
  · exact rfl
  · exact rfl
  · exact rfl
  · exact rfl
  · exact rfl
  · exact rfl
  · exact rfl
  · exact run_ite rfl rfl rfl
  · exact run_ite rfl rfl rfl
  · exact run_ite rfl rfl rfl
  · exact run_ite rfl rfl rfl
  · exact run_ite rfl rfl rfl
  · exact run_ite rfl rfl rfl
  · first | exact rfl | (split <;> first | exact rfl | contradiction)

/-- What `decodeVaVx`'s instruction does. -/
def runVaVx (r : Raw) (s : State) : Result :=
  match (r.f ++ r.k).toNat with
  | 0 => execVaddVx r.d r.a r.b r.p s
  | 1 => execVsubVx r.d r.a r.b r.p s
  | 2 => execVmulVx r.d r.a r.b r.p s
  | 3 => execVmulhVx r.d r.a r.b r.p s
  | 4 => execVmaccVx r.d r.a r.b r.p s
  | 5 => execVnmsacVx r.d r.a r.b r.p s
  | 6 => execVdivVx r.d r.a r.b r.p s
  | 7 => execVremVx r.d r.a r.b r.p s
  | 8 => execVminVx r.d r.a r.b r.p s
  | 9 => execVmaxVx r.d r.a r.b r.p s
  | 10 => execVandVx r.d r.a r.b r.p s
  | 11 => execVorVx r.d r.a r.b r.p s
  | 12 => execVxorVx r.d r.a r.b r.p s
  | 13 => execVsllVx r.d r.a r.b r.p s
  | 14 => execVsrlVx r.d r.a r.b r.p s
  | 15 => execVsraVx r.d r.a r.b r.p s
  | 16 => execVaddsVx r.d r.a r.b r.p s
  | 17 => execVsubsVx r.d r.a r.b r.p s
  | 18 => execVwaddVx r.d r.a r.b r.p s
  | 19 => execVwmulVx r.d r.a r.b r.p s
  | 20 => execVwmaccVx r.d r.a r.b r.p s
  | 21 => execVnclipVx r.d r.a r.b r.p s
  | 22 => (if decide (r.p ≠ 0#4) then execVselVx r.d r.a r.b r.p s else execReservedEncoding s)
  | 23 => execVfaddVx r.d r.a r.b r.p s
  | 24 => execVfsubVx r.d r.a r.b r.p s
  | 25 => execVfmulVx r.d r.a r.b r.p s
  | 26 => execVfdivVx r.d r.a r.b r.p s
  | 27 => execVfmaVx r.d r.a r.b r.p s
  | 28 => execVfnmaVx r.d r.a r.b r.p s
  | 29 => execVfminVx r.d r.a r.b r.p s
  | 30 => execVfmaxVx r.d r.a r.b r.p s
  | _ => execReservedEncoding s

theorem runVaVx_eq (r : Raw) (s : State) : runVaVx r s = runOpt (decodeVaVx r) s := by
  unfold runVaVx decodeVaVx
  generalize (r.f ++ r.k).toNat = n
  split
  · exact rfl
  · exact rfl
  · exact rfl
  · exact rfl
  · exact rfl
  · exact rfl
  · exact rfl
  · exact rfl
  · exact rfl
  · exact rfl
  · exact rfl
  · exact rfl
  · exact rfl
  · exact rfl
  · exact rfl
  · exact rfl
  · exact rfl
  · exact rfl
  · exact rfl
  · exact rfl
  · exact rfl
  · exact rfl
  · exact rfl
  · exact rfl
  · exact rfl
  · exact rfl
  · exact rfl
  · exact rfl
  · exact rfl
  · exact rfl
  · exact rfl
  · first | exact rfl | (split <;> first | exact rfl | contradiction)

/-- What `decodeVcmp`'s instruction does. -/
def runVcmp (r : Raw) (s : State) : Result :=
  match (r.f.extractLsb' 3 1).toNat with
  | 0 => (if decide ((r.f.extractLsb' 0 3 ++ r.k).toNat ≤ 5) && decide (r.d.toNat ≤ 7) then execVcmp r.d r.a r.b (r.f.extractLsb' 4 1) (r.f.extractLsb' 0 3 ++ r.k) r.p s else execReservedEncoding s)
  | 1 => (if decide ((r.f.extractLsb' 0 3 ++ r.k).toNat ≤ 7) && decide (r.d.toNat ≤ 7) then execVfcmp r.d r.a r.b (r.f.extractLsb' 4 1) (r.f.extractLsb' 0 3 ++ r.k) r.p s else execReservedEncoding s)
  | _ => execReservedEncoding s

theorem runVcmp_eq (r : Raw) (s : State) : runVcmp r s = runOpt (decodeVcmp r) s := by
  unfold runVcmp decodeVcmp
  generalize (r.f.extractLsb' 3 1).toNat = n
  split
  · exact rfl
  · exact rfl
  · first | exact rfl | (split <;> first | exact rfl | contradiction)

/-- What `decodeVmask`'s instruction does. -/
def runVmask (r : Raw) (s : State) : Result :=
  match (r.f ++ r.k).toNat with
  | 0 => if r.p = 0#4 then (if decide (r.d.toNat ≤ 7) && decide (r.a.toNat ≤ 7) && decide (r.b.toNat ≤ 7) then execMand r.d r.a r.b s else execReservedEncoding s) else execReservedEncoding s
  | 1 => if r.p = 0#4 then (if decide (r.d.toNat ≤ 7) && decide (r.a.toNat ≤ 7) && decide (r.b.toNat ≤ 7) then execMor r.d r.a r.b s else execReservedEncoding s) else execReservedEncoding s
  | 2 => if r.p = 0#4 then (if decide (r.d.toNat ≤ 7) && decide (r.a.toNat ≤ 7) && decide (r.b.toNat ≤ 7) then execMxor r.d r.a r.b s else execReservedEncoding s) else execReservedEncoding s
  | 3 => if r.p = 0#4 ∧ r.b = 0#5 then (if decide (r.d.toNat ≤ 7) && decide (r.a.toNat ≤ 7) then execMnot r.d r.a s else execReservedEncoding s) else execReservedEncoding s
  | 4 => if r.p = 0#4 ∧ r.b = 0#5 then (if decide (r.a.toNat ≤ 7) then execMpop r.d r.a s else execReservedEncoding s) else execReservedEncoding s
  | 5 => if r.p = 0#4 ∧ r.b = 0#5 then (if decide (r.a.toNat ≤ 7) then execMfirst r.d r.a s else execReservedEncoding s) else execReservedEncoding s
  | _ => execReservedEncoding s

theorem runVmask_eq (r : Raw) (s : State) : runVmask r s = runOpt (decodeVmask r) s := by
  unfold runVmask decodeVmask
  generalize (r.f ++ r.k).toNat = n
  split
  · exact run_ite rfl rfl rfl
  · exact run_ite rfl rfl rfl
  · exact run_ite rfl rfl rfl
  · exact run_ite rfl rfl rfl
  · exact run_ite rfl rfl rfl
  · exact run_ite rfl rfl rfl
  · first | exact rfl | (split <;> first | exact rfl | contradiction)

/-- What `decodeVred`'s instruction does. -/
def runVred (r : Raw) (s : State) : Result :=
  match (r.f.extractLsb' 0 2 ++ r.k).toNat with
  | 0 => (if decide ((r.f.extractLsb' 2 3).toNat ≤ 5) && decide (r.b.toNat ≤ 3) then execVred r.d r.a r.b (r.f.extractLsb' 2 3) r.p s else execReservedEncoding s)
  | 1 => (if decide ((r.f.extractLsb' 2 3).toNat ≤ 2) && decide (r.b.toNat ≤ 3) then execVfred r.d r.a r.b (r.f.extractLsb' 2 3) r.p s else execReservedEncoding s)
  | 2 => (if decide ((r.f.extractLsb' 2 3).toNat ≤ 5) && decide (r.b.toNat ≤ 3) then execVscan r.d r.a r.b (r.f.extractLsb' 2 3) r.p s else execReservedEncoding s)
  | 3 => (if decide ((r.f.extractLsb' 2 3).toNat ≤ 2) && decide (r.b.toNat ≤ 3) then execVscanFloat r.d r.a r.b (r.f.extractLsb' 2 3) r.p s else execReservedEncoding s)
  | _ => execReservedEncoding s

theorem runVred_eq (r : Raw) (s : State) : runVred r s = runOpt (decodeVred r) s := by
  unfold runVred decodeVred
  generalize (r.f.extractLsb' 0 2 ++ r.k).toNat = n
  split
  · exact rfl
  · exact rfl
  · exact rfl
  · exact rfl
  · first | exact rfl | (split <;> first | exact rfl | contradiction)

/-- What `decodeVperm`'s instruction does. -/
def runVperm (r : Raw) (s : State) : Result :=
  match (r.f ++ r.k).toNat with
  | 0 => execVslide r.d r.a r.b r.p s
  | 1 => execVrgather r.d r.a r.b r.p s
  | 2 => if r.p = 0#4 then (if decide (r.b.toNat ≤ 7) then execVcompress r.d r.a r.b s else execReservedEncoding s) else execReservedEncoding s
  | 3 => if r.b = 0#5 ∧ r.a = 0#5 then execVid r.d r.p s else execReservedEncoding s
  | 4 => if r.b = 0#5 then execVbcast r.d r.a r.p s else execReservedEncoding s
  | 5 => if r.p = 0#4 then execVmvx r.d r.a r.b s else execReservedEncoding s
  | 6 => if r.b = 0#5 then execVmvv r.d r.a r.p s else execReservedEncoding s
  | _ => execReservedEncoding s

theorem runVperm_eq (r : Raw) (s : State) : runVperm r s = runOpt (decodeVperm r) s := by
  unfold runVperm decodeVperm
  generalize (r.f ++ r.k).toNat = n
  split
  · exact rfl
  · exact rfl
  · exact run_ite rfl rfl rfl
  · exact run_ite rfl rfl rfl
  · exact run_ite rfl rfl rfl
  · exact run_ite rfl rfl rfl
  · exact run_ite rfl rfl rfl
  · first | exact rfl | (split <;> first | exact rfl | contradiction)

/-- What `decodeVcvt`'s instruction does. -/
def runVcvt (r : Raw) (s : State) : Result :=
  match (r.f ++ r.k).toNat with
  | 0 => (if decide (r.b.toNat ≤ 18) then execVcvt r.d r.a r.b r.p s else execReservedEncoding s)
  | 1 => if r.p = 0#4 then execVcvtMx r.d r.a r.b s else execReservedEncoding s
  | 2 => if r.p = 0#4 ∧ r.b = 0#5 then execVpack r.d r.a s else execReservedEncoding s
  | 3 => if r.p = 0#4 ∧ r.b = 0#5 then execVunpack r.d r.a s else execReservedEncoding s
  | _ => execReservedEncoding s

theorem runVcvt_eq (r : Raw) (s : State) : runVcvt r s = runOpt (decodeVcvt r) s := by
  unfold runVcvt decodeVcvt
  generalize (r.f ++ r.k).toNat = n
  split
  · exact rfl
  · exact run_ite rfl rfl rfl
  · exact run_ite rfl rfl rfl
  · exact run_ite rfl rfl rfl
  · first | exact rfl | (split <;> first | exact rfl | contradiction)

/-- What `decodeVld`'s instruction does. -/
def runVld (r : Raw) (s : State) : Result :=
  match (r.f ++ r.k).toNat with
  | 0 => if r.b = 0#5 then execVld r.d r.a r.p s else execReservedEncoding s
  | 1 => execVlds r.d r.a r.b r.p s
  | 2 => execVldx r.d r.a r.b r.p s
  | 3 => execVldChase r.d r.a r.b r.p s
  | 10 => (if decide (10 ≤ (10#6).toNat) && decide ((10#6).toNat ≤ 16) then execVldseg r.d r.a r.b 10#6 r.p s else execReservedEncoding s)
  | 11 => (if decide (10 ≤ (11#6).toNat) && decide ((11#6).toNat ≤ 16) then execVldseg r.d r.a r.b 11#6 r.p s else execReservedEncoding s)
  | 12 => (if decide (10 ≤ (12#6).toNat) && decide ((12#6).toNat ≤ 16) then execVldseg r.d r.a r.b 12#6 r.p s else execReservedEncoding s)
  | 13 => (if decide (10 ≤ (13#6).toNat) && decide ((13#6).toNat ≤ 16) then execVldseg r.d r.a r.b 13#6 r.p s else execReservedEncoding s)
  | 14 => (if decide (10 ≤ (14#6).toNat) && decide ((14#6).toNat ≤ 16) then execVldseg r.d r.a r.b 14#6 r.p s else execReservedEncoding s)
  | 15 => (if decide (10 ≤ (15#6).toNat) && decide ((15#6).toNat ≤ 16) then execVldseg r.d r.a r.b 15#6 r.p s else execReservedEncoding s)
  | 16 => (if decide (10 ≤ (16#6).toNat) && decide ((16#6).toNat ≤ 16) then execVldseg r.d r.a r.b 16#6 r.p s else execReservedEncoding s)
  | _ => execReservedEncoding s

theorem runVld_eq (r : Raw) (s : State) : runVld r s = runOpt (decodeVld r) s := by
  unfold runVld decodeVld
  generalize (r.f ++ r.k).toNat = n
  split
  · exact run_ite rfl rfl rfl
  · exact rfl
  · exact rfl
  · exact rfl
  · exact rfl
  · exact rfl
  · exact rfl
  · exact rfl
  · exact rfl
  · exact rfl
  · exact rfl
  · first | exact rfl | (split <;> first | exact rfl | contradiction)

/-- What `decodeVst`'s instruction does. -/
def runVst (r : Raw) (s : State) : Result :=
  match (r.f ++ r.k).toNat with
  | 0 => if r.b = 0#5 then execVst r.d r.a r.p s else execReservedEncoding s
  | 1 => if r.b = 0#5 then execVstU r.d r.a r.p s else execReservedEncoding s
  | 2 => execVsts r.d r.a r.b r.p s
  | 3 => execVstx r.d r.a r.b r.p s
  | 4 => execVstxU r.d r.a r.b r.p s
  | 5 => execVamoAdd r.d r.a r.b r.p s
  | _ => execReservedEncoding s

theorem runVst_eq (r : Raw) (s : State) : runVst r s = runOpt (decodeVst r) s := by
  unfold runVst decodeVst
  generalize (r.f ++ r.k).toNat = n
  split
  · exact run_ite rfl rfl rfl
  · exact run_ite rfl rfl rfl
  · exact rfl
  · exact rfl
  · exact rfl
  · exact rfl
  · first | exact rfl | (split <;> first | exact rfl | contradiction)

/-- What `decodeCopy`'s instruction does. -/
def runCopy (r : Raw) (s : State) : Result :=
  match r.f.toNat with
  | 0 => if r.k = 0#1 ∧ r.p = 0#4 ∧ r.b = 0#5 then execCpTile r.d r.a s else execReservedEncoding s
  | 1 => if r.k = 0#1 ∧ r.p = 0#4 ∧ r.b = 0#5 then execCpStream r.d r.a s else execReservedEncoding s
  | 2 => if r.k = 0#1 ∧ r.p.extractLsb' 3 1 = 0#1 then execCpGather r.d r.a r.b (r.p.extractLsb' 0 3) s else execReservedEncoding s
  | 3 => if r.k = 0#1 ∧ r.p = 0#4 ∧ r.b = 0#5 then execCpResume r.d r.a s else execReservedEncoding s
  | 4 => if r.k = 0#1 ∧ r.p = 0#4 ∧ r.b = 0#5 then execCpCancel r.d r.a s else execReservedEncoding s
  | 5 => if r.k = 0#1 ∧ r.p = 0#4 ∧ r.b = 0#5 then execCpStatus r.d r.a s else execReservedEncoding s
  | 6 => if r.k = 0#1 ∧ r.p = 0#4 ∧ r.b = 0#5 then execCpMg r.d r.a s else execReservedEncoding s
  | 7 => if r.k = 0#1 ∧ r.p = 0#4 ∧ r.b = 0#5 then execMgCheck r.d r.a s else execReservedEncoding s
  | 8 => if r.k = 0#1 ∧ r.p = 0#4 ∧ r.b = 0#5 then execCpKvs r.d r.a s else execReservedEncoding s
  | _ => execReservedEncoding s

theorem runCopy_eq (r : Raw) (s : State) : runCopy r s = runOpt (decodeCopy r) s := by
  unfold runCopy decodeCopy
  generalize r.f.toNat = n
  split
  · exact run_ite rfl rfl rfl
  · exact run_ite rfl rfl rfl
  · exact run_ite rfl rfl rfl
  · exact run_ite rfl rfl rfl
  · exact run_ite rfl rfl rfl
  · exact run_ite rfl rfl rfl
  · exact run_ite rfl rfl rfl
  · exact run_ite rfl rfl rfl
  · exact run_ite rfl rfl rfl
  · first | exact rfl | (split <;> first | exact rfl | contradiction)

/-- What `decodeMat`'s instruction does. -/
def runMat (r : Raw) (s : State) : Result :=
  match (r.f ++ r.k).toNat with
  | 0 => if r.p = 0#4 ∧ r.b = 0#5 ∧ r.d = 0#5 then execMattach r.a s else execReservedEncoding s
  | 1 => if r.p = 0#4 ∧ r.b = 0#5 ∧ r.d = 0#5 then execMdetach r.a s else execReservedEncoding s
  | 2 => if r.p = 0#4 ∧ r.b = 0#5 ∧ r.d = 0#5 then execMshape r.a s else execReservedEncoding s
  | 3 => if r.p.extractLsb' 1 3 = 0#3 ∧ r.b.extractLsb' 0 3 = 0#3 ∧ r.a = 0#5 ∧ r.d = 0#5 then execMldb (r.p.extractLsb' 0 1) (r.b.extractLsb' 3 2) s else execReservedEncoding s
  | 4 => if r.p.extractLsb' 1 3 = 0#3 ∧ r.b = 0#5 ∧ r.d.extractLsb' 3 2 = 0#2 then execMma (r.d.extractLsb' 0 3) r.a (r.p.extractLsb' 0 1) s else execReservedEncoding s
  | 5 => if r.p.extractLsb' 1 3 = 0#3 ∧ r.d.extractLsb' 3 2 = 0#2 then execMmaMx (r.d.extractLsb' 0 3) r.a r.b (r.p.extractLsb' 0 1) s else execReservedEncoding s
  | 6 => if r.p = 0#4 ∧ r.b = 0#5 ∧ r.a = 0#5 ∧ r.d.extractLsb' 3 2 = 0#2 then execMzero (r.d.extractLsb' 0 3) s else execReservedEncoding s
  | 7 => if r.p = 0#4 ∧ r.a.extractLsb' 3 2 = 0#2 ∧ r.d.extractLsb' 0 3 = 0#3 then execMdrain (r.d.extractLsb' 3 2) (r.a.extractLsb' 0 3) r.b s else execReservedEncoding s
  | 8 => if r.p = 0#4 ∧ r.a.extractLsb' 0 3 = 0#3 ∧ r.d.extractLsb' 3 2 = 0#2 then execMfill (r.d.extractLsb' 0 3) (r.a.extractLsb' 3 2) r.b s else execReservedEncoding s
  | 9 => if r.p = 0#4 ∧ r.d.extractLsb' 3 2 = 0#2 then execMsave (r.d.extractLsb' 0 3) r.a r.b s else execReservedEncoding s
  | 10 => if r.p = 0#4 ∧ r.d.extractLsb' 3 2 = 0#2 then execMload (r.d.extractLsb' 0 3) r.a r.b s else execReservedEncoding s
  | _ => execReservedEncoding s

theorem runMat_eq (r : Raw) (s : State) : runMat r s = runOpt (decodeMat r) s := by
  unfold runMat decodeMat
  generalize (r.f ++ r.k).toNat = n
  split
  · exact run_ite rfl rfl rfl
  · exact run_ite rfl rfl rfl
  · exact run_ite rfl rfl rfl
  · exact run_ite rfl rfl rfl
  · exact run_ite rfl rfl rfl
  · exact run_ite rfl rfl rfl
  · exact run_ite rfl rfl rfl
  · exact run_ite rfl rfl rfl
  · exact run_ite rfl rfl rfl
  · exact run_ite rfl rfl rfl
  · exact run_ite rfl rfl rfl
  · first | exact rfl | (split <;> first | exact rfl | contradiction)

/-- What `decodeCoro`'s instruction does. -/
def runCoro (r : Raw) (s : State) : Result :=
  match r.f.toNat with
  | 0 => execSpawn r.d r.a r.b (r.k ++ r.p) s
  | 1 => execSpawnOn r.d r.a r.b (r.k ++ r.p) s
  | 2 => if r.k = 0#1 ∧ r.p = 0#4 ∧ r.b = 0#5 ∧ r.d = 0#5 then execExit r.a s else execReservedEncoding s
  | 3 => if r.k = 0#1 ∧ r.p = 0#4 ∧ r.b = 0#5 ∧ r.d = 0#5 then execYield r.a s else execReservedEncoding s
  | 4 => if r.k = 0#1 ∧ r.p = 0#4 then execAwait r.d r.a r.b s else execReservedEncoding s
  | 5 => if r.k = 0#1 ∧ r.p = 0#4 ∧ r.b = 0#5 then execFnext r.d r.a s else execReservedEncoding s
  | 6 => if r.k = 0#1 ∧ r.p = 0#4 then execFarm r.d r.a r.b s else execReservedEncoding s
  | 7 => execVctxSave r.d r.a r.b (r.k ++ r.p) s
  | 8 => execVctxRestore r.d r.a r.b (r.k ++ r.p) s
  | 9 => if r.k = 0#1 ∧ r.p = 0#4 then execPreempt r.d r.a r.b s else execReservedEncoding s
  | 10 => if r.k = 0#1 ∧ r.p = 0#4 ∧ r.b = 0#5 then execCrewBind r.d r.a s else execReservedEncoding s
  | _ => execReservedEncoding s

theorem runCoro_eq (r : Raw) (s : State) : runCoro r s = runOpt (decodeCoro r) s := by
  unfold runCoro decodeCoro
  generalize r.f.toNat = n
  split
  · exact rfl
  · exact rfl
  · exact run_ite rfl rfl rfl
  · exact run_ite rfl rfl rfl
  · exact run_ite rfl rfl rfl
  · exact run_ite rfl rfl rfl
  · exact run_ite rfl rfl rfl
  · exact rfl
  · exact rfl
  · exact run_ite rfl rfl rfl
  · exact run_ite rfl rfl rfl
  · first | exact rfl | (split <;> first | exact rfl | contradiction)

/-- What `decodeToken`'s instruction does. -/
def runToken (r : Raw) (s : State) : Result :=
  match r.f.toNat with
  | 0 => if r.k = 0#1 ∧ r.p = 0#4 then execTkinit r.d r.a r.b s else execReservedEncoding s
  | 1 => if r.k = 0#1 ∧ r.p.extractLsb' 3 1 = 0#1 then (if decide ((r.p.extractLsb' 0 3).toNat ≤ 4) then execTkarrive r.d r.a r.b (r.p.extractLsb' 0 3) s else execReservedEncoding s) else execReservedEncoding s
  | 2 => if r.k = 0#1 ∧ r.p = 0#4 then execTkexpect r.d r.a r.b s else execReservedEncoding s
  | 3 => if r.k = 0#1 ∧ r.p.extractLsb' 3 1 = 0#1 then (if decide ((r.p.extractLsb' 0 3).toNat ≤ 4) then execTksig r.d r.a r.b (r.p.extractLsb' 0 3) s else execReservedEncoding s) else execReservedEncoding s
  | 4 => if r.k = 0#1 ∧ r.p.extractLsb' 1 3 = 0#3 ∧ r.b = 0#5 then execTkread r.d r.a (r.p.extractLsb' 0 1) s else execReservedEncoding s
  | 5 => if r.k = 0#1 ∧ r.p = 0#4 then execTkpoll r.d r.a r.b s else execReservedEncoding s
  | 6 => if r.k = 0#1 ∧ r.p.extractLsb' 3 1 = 0#1 then (if decide ((r.p.extractLsb' 0 3).toNat ≤ 4) then execFutSet r.d r.a r.b (r.p.extractLsb' 0 3) s else execReservedEncoding s) else execReservedEncoding s
  | 7 => if r.k = 0#1 ∧ r.p = 0#4 then execFutGet r.d r.a r.b s else execReservedEncoding s
  | 8 => if r.k = 0#1 ∧ r.p = 0#4 then execSend r.d r.a r.b s else execReservedEncoding s
  | 9 => if r.k = 0#1 ∧ r.p = 0#4 then execRecv r.d r.a r.b s else execReservedEncoding s
  | 10 => if r.k = 0#1 ∧ r.p = 0#4 then execPost r.d r.a r.b s else execReservedEncoding s
  | _ => execReservedEncoding s

theorem runToken_eq (r : Raw) (s : State) : runToken r s = runOpt (decodeToken r) s := by
  unfold runToken decodeToken
  generalize r.f.toNat = n
  split
  · exact run_ite rfl rfl rfl
  · exact run_ite rfl rfl rfl
  · exact run_ite rfl rfl rfl
  · exact run_ite rfl rfl rfl
  · exact run_ite rfl rfl rfl
  · exact run_ite rfl rfl rfl
  · exact run_ite rfl rfl rfl
  · exact run_ite rfl rfl rfl
  · exact run_ite rfl rfl rfl
  · exact run_ite rfl rfl rfl
  · exact run_ite rfl rfl rfl
  · first | exact rfl | (split <;> first | exact rfl | contradiction)

/-- What `decodeSpace`'s instruction does. -/
def runSpace (r : Raw) (s : State) : Result :=
  match r.f.toNat with
  | 0 => if r.k = 0#1 ∧ r.p = 0#4 then execPcommit r.d r.a r.b s else execReservedEncoding s
  | 1 => if r.k = 0#1 ∧ r.p = 0#4 then execPdecommit r.d r.a r.b s else execReservedEncoding s
  | 2 => if r.k = 0#1 ∧ r.p = 0#4 ∧ r.b = 0#5 then execPalloc r.d r.a s else execReservedEncoding s
  | 3 => if r.k = 0#1 ∧ r.p = 0#4 then execPfree r.d r.a r.b s else execReservedEncoding s
  | 4 => execTlbinv r.d r.a r.b (r.k ++ r.p) s
  | 5 => if r.k = 0#1 ∧ r.p = 0#4 then execSpace r.d r.a r.b s else execReservedEncoding s
  | _ => execReservedEncoding s

theorem runSpace_eq (r : Raw) (s : State) : runSpace r s = runOpt (decodeSpace r) s := by
  unfold runSpace decodeSpace
  generalize r.f.toNat = n
  split
  · exact run_ite rfl rfl rfl
  · exact run_ite rfl rfl rfl
  · exact run_ite rfl rfl rfl
  · exact run_ite rfl rfl rfl
  · exact rfl
  · exact run_ite rfl rfl rfl
  · first | exact rfl | (split <;> first | exact rfl | contradiction)

/-- What `decodeCmpl`'s instruction does. -/
def runCmpl (r : Raw) (s : State) : Result :=
  match r.f.toNat with
  | 0 => if r.k = 0#1 ∧ r.p.extractLsb' 2 2 = 0#2 then execTopk r.d r.a r.b (r.p.extractLsb' 0 2) s else execReservedEncoding s
  | 1 => if r.k = 0#1 ∧ r.p = 0#4 then execUmRound r.d r.a r.b s else execReservedEncoding s
  | 2 => if r.k = 0#1 ∧ r.p = 0#4 ∧ r.b = 0#5 then execUmDirty r.d r.a s else execReservedEncoding s
  | _ => execReservedEncoding s

theorem runCmpl_eq (r : Raw) (s : State) : runCmpl r s = runOpt (decodeCmpl r) s := by
  unfold runCmpl decodeCmpl
  generalize r.f.toNat = n
  split
  · exact run_ite rfl rfl rfl
  · exact run_ite rfl rfl rfl
  · exact run_ite rfl rfl rfl
  · first | exact rfl | (split <;> first | exact rfl | contradiction)

/-- What `decodePod`'s instruction does. -/
def runPod (r : Raw) (s : State) : Result :=
  match r.f.toNat with
  | 0 => if r.k = 0#1 ∧ r.p = 0#4 ∧ r.b = 0#5 then execWopen r.d r.a s else execReservedEncoding s
  | 1 => if r.k = 0#1 ∧ r.p = 0#4 then execWclose r.d r.a r.b s else execReservedEncoding s
  | 2 => if r.p.extractLsb' 2 2 = 0#2 ∧ r.b = 0#5 then execWld r.d r.a (r.p.extractLsb' 0 2) r.k s else execReservedEncoding s
  | 3 => execWst r.d r.a r.b (r.k ++ r.p) s
  | 4 => if r.k = 0#1 ∧ r.p = 0#4 then execWfenceFlag r.d r.a r.b s else execReservedEncoding s
  | 16 => if r.p.extractLsb' 0 3 = 0#3 then execWamoAdd r.d r.a r.b r.k (r.p.extractLsb' 3 1) s else execReservedEncoding s
  | 17 => if r.p.extractLsb' 0 3 = 0#3 then execWamoAnd r.d r.a r.b r.k (r.p.extractLsb' 3 1) s else execReservedEncoding s
  | 18 => if r.p.extractLsb' 0 3 = 0#3 then execWamoOr r.d r.a r.b r.k (r.p.extractLsb' 3 1) s else execReservedEncoding s
  | 19 => if r.p.extractLsb' 0 3 = 0#3 then execWamoXor r.d r.a r.b r.k (r.p.extractLsb' 3 1) s else execReservedEncoding s
  | 20 => if r.p.extractLsb' 0 3 = 0#3 then execWamoMin r.d r.a r.b r.k (r.p.extractLsb' 3 1) s else execReservedEncoding s
  | 21 => if r.p.extractLsb' 0 3 = 0#3 then execWamoMax r.d r.a r.b r.k (r.p.extractLsb' 3 1) s else execReservedEncoding s
  | 22 => if r.p.extractLsb' 0 3 = 0#3 then execWamoMinn r.d r.a r.b r.k (r.p.extractLsb' 3 1) s else execReservedEncoding s
  | 23 => if r.p.extractLsb' 0 3 = 0#3 then execWamoMaxn r.d r.a r.b r.k (r.p.extractLsb' 3 1) s else execReservedEncoding s
  | 24 => if r.p.extractLsb' 0 3 = 0#3 then execWamoSwap r.d r.a r.b r.k (r.p.extractLsb' 3 1) s else execReservedEncoding s
  | 25 => if r.p.extractLsb' 0 3 = 0#3 then execWamoCas r.d r.a r.b r.k (r.p.extractLsb' 3 1) s else execReservedEncoding s
  | _ => execReservedEncoding s

theorem runPod_eq (r : Raw) (s : State) : runPod r s = runOpt (decodePod r) s := by
  unfold runPod decodePod
  generalize r.f.toNat = n
  split
  · exact run_ite rfl rfl rfl
  · exact run_ite rfl rfl rfl
  · exact run_ite rfl rfl rfl
  · exact rfl
  · exact run_ite rfl rfl rfl
  · exact run_ite rfl rfl rfl
  · exact run_ite rfl rfl rfl
  · exact run_ite rfl rfl rfl
  · exact run_ite rfl rfl rfl
  · exact run_ite rfl rfl rfl
  · exact run_ite rfl rfl rfl
  · exact run_ite rfl rfl rfl
  · exact run_ite rfl rfl rfl
  · exact run_ite rfl rfl rfl
  · exact run_ite rfl rfl rfl
  · first | exact rfl | (split <;> first | exact rfl | contradiction)

/-- What `decodeMajor`'s instruction does. -/
def runMajor (r : Raw) (s : State) : Result :=
  match r.major.toNat with
  | 0x01 => runOp r s
  | 0x02 => execAddi r.d r.a (r.f ++ r.k ++ r.p ++ r.b) s
  | 0x03 => execAndi r.d r.a (r.f ++ r.k ++ r.p ++ r.b) s
  | 0x04 => execOri r.d r.a (r.f ++ r.k ++ r.p ++ r.b) s
  | 0x05 => execXori r.d r.a (r.f ++ r.k ++ r.p ++ r.b) s
  | 0x06 => if r.f = 0#5 ∧ r.k = 0#1 ∧ r.p.extractLsb' 1 3 = 0#3 then execSlli r.d r.a (r.p.extractLsb' 0 1 ++ r.b) s else execReservedEncoding s
  | 0x07 => if r.f = 0#5 ∧ r.k = 0#1 ∧ r.p.extractLsb' 1 3 = 0#3 then execSrli r.d r.a (r.p.extractLsb' 0 1 ++ r.b) s else execReservedEncoding s
  | 0x08 => if r.f = 0#5 ∧ r.k = 0#1 ∧ r.p.extractLsb' 1 3 = 0#3 then execSrai r.d r.a (r.p.extractLsb' 0 1 ++ r.b) s else execReservedEncoding s
  | 0x09 => execSlti r.d r.a (r.f ++ r.k ++ r.p ++ r.b) s
  | 0x0A => execSltni r.d r.a (r.f ++ r.k ++ r.p ++ r.b) s
  | 0x0B => execLim r.d (r.f ++ r.k ++ r.p ++ r.b ++ r.a) s
  | 0x0C => execIpc r.d (r.f ++ r.k ++ r.p ++ r.b ++ r.a) s
  | 0x0D => execLdI8 r.d r.a (r.f ++ r.k ++ r.p ++ r.b) s
  | 0x0E => execLdN8 r.d r.a (r.f ++ r.k ++ r.p ++ r.b) s
  | 0x0F => execLdI16 r.d r.a (r.f ++ r.k ++ r.p ++ r.b) s
  | 0x10 => execLdN16 r.d r.a (r.f ++ r.k ++ r.p ++ r.b) s
  | 0x11 => execLdI32 r.d r.a (r.f ++ r.k ++ r.p ++ r.b) s
  | 0x12 => execLdN32 r.d r.a (r.f ++ r.k ++ r.p ++ r.b) s
  | 0x13 => execLd64 r.d r.a (r.f ++ r.k ++ r.p ++ r.b) s
  | 0x14 => execSt8 r.d r.a (r.f ++ r.k ++ r.p ++ r.b) s
  | 0x15 => execSt16 r.d r.a (r.f ++ r.k ++ r.p ++ r.b) s
  | 0x16 => execSt32 r.d r.a (r.f ++ r.k ++ r.p ++ r.b) s
  | 0x17 => execSt64 r.d r.a (r.f ++ r.k ++ r.p ++ r.b) s
  | 0x18 => execBeq r.d r.a (r.f ++ r.k ++ r.p ++ r.b) s
  | 0x19 => execBne r.d r.a (r.f ++ r.k ++ r.p ++ r.b) s
  | 0x1A => execBlt r.d r.a (r.f ++ r.k ++ r.p ++ r.b) s
  | 0x1B => execBge r.d r.a (r.f ++ r.k ++ r.p ++ r.b) s
  | 0x1C => execBltn r.d r.a (r.f ++ r.k ++ r.p ++ r.b) s
  | 0x1D => execBgen r.d r.a (r.f ++ r.k ++ r.p ++ r.b) s
  | 0x1E => execJal (r.f ++ r.k ++ r.p ++ r.b ++ r.a ++ r.d) s
  | 0x1F => execJalr r.d r.a (r.f ++ r.k ++ r.p ++ r.b) s
  | 0x20 => runFp32 r s
  | 0x21 => runFp64 r s
  | 0x22 => runSys r s
  | 0x23 => runAtom r s
  | 0x24 => runFence r s
  | 0x25 => runVctl r s
  | 0x26 => if r.f.extractLsb' 2 3 = 0#3 then (if decide (((r.f.extractLsb' 0 2 ++ r.k ++ r.p ++ r.b).extractLsb' 0 5).toNat ≤ 18) then execVseti r.d r.a (r.f.extractLsb' 0 2 ++ r.k ++ r.p ++ r.b) s else execReservedEncoding s) else execReservedEncoding s
  | 0x27 => runVaVv r s
  | 0x28 => runVaVx r s
  | 0x29 => runVcmp r s
  | 0x2A => runVmask r s
  | 0x2B => runVred r s
  | 0x2C => runVperm r s
  | 0x2D => runVcvt r s
  | 0x2E => runVld r s
  | 0x2F => runVst r s
  | 0x30 => runCopy r s
  | 0x31 => runMat r s
  | 0x32 => runCoro r s
  | 0x33 => runToken r s
  | 0x34 => runSpace r s
  | 0x35 => runCmpl r s
  | 0x36 => runPod r s
  | _ => execReservedEncoding s

theorem runMajor_eq (r : Raw) (s : State) : runMajor r s = runOpt (decodeMajor r) s := by
  unfold runMajor decodeMajor
  generalize r.major.toNat = n
  split
  · exact runOp_eq r s
  · exact rfl
  · exact rfl
  · exact rfl
  · exact rfl
  · exact run_ite rfl rfl rfl
  · exact run_ite rfl rfl rfl
  · exact run_ite rfl rfl rfl
  · exact rfl
  · exact rfl
  · exact rfl
  · exact rfl
  · exact rfl
  · exact rfl
  · exact rfl
  · exact rfl
  · exact rfl
  · exact rfl
  · exact rfl
  · exact rfl
  · exact rfl
  · exact rfl
  · exact rfl
  · exact rfl
  · exact rfl
  · exact rfl
  · exact rfl
  · exact rfl
  · exact rfl
  · exact rfl
  · exact rfl
  · exact runFp32_eq r s
  · exact runFp64_eq r s
  · exact runSys_eq r s
  · exact runAtom_eq r s
  · exact runFence_eq r s
  · exact runVctl_eq r s
  · exact run_ite rfl rfl rfl
  · exact runVaVv_eq r s
  · exact runVaVx_eq r s
  · exact runVcmp_eq r s
  · exact runVmask_eq r s
  · exact runVred_eq r s
  · exact runVperm_eq r s
  · exact runVcvt_eq r s
  · exact runVld_eq r s
  · exact runVst_eq r s
  · exact runCopy_eq r s
  · exact runMat_eq r s
  · exact runCoro_eq r s
  · exact runToken_eq r s
  · exact runSpace_eq r s
  · exact runCmpl_eq r s
  · exact runPod_eq r s
  · first | exact rfl | (split <;> first | exact rfl | contradiction)

/-- What `decodeCompact`'s instruction does. -/
def runCompact (c : Compact) (s : State) : Result :=
  match c.op.toNat with
  | 0x01 => if c.b = 0#5 then execCAdd c.a s else execReservedEncoding s
  | 0x02 => if c.b = 0#5 then execCSub c.a s else execReservedEncoding s
  | 0x03 => if c.b = 0#5 then execCAnd c.a s else execReservedEncoding s
  | 0x04 => if c.b = 0#5 then execCOr c.a s else execReservedEncoding s
  | 0x05 => if c.b = 0#5 then execCXor c.a s else execReservedEncoding s
  | 0x06 => if c.b = 0#5 then execCMul c.a s else execReservedEncoding s
  | 0x07 => execCAddi (c.b ++ c.a) s
  | 0x08 => if c.b.extractLsb' 1 4 = 0#4 then execCSlli c.a (c.b.extractLsb' 0 1) s else execReservedEncoding s
  | 0x09 => if c.b.extractLsb' 1 4 = 0#4 then execCSrli c.a (c.b.extractLsb' 0 1) s else execReservedEncoding s
  | 0x0A => if c.b.extractLsb' 1 4 = 0#4 then execCSrai c.a (c.b.extractLsb' 0 1) s else execReservedEncoding s
  | 0x0B => execCLd c.a c.b s
  | 0x0C => execCSt c.a c.b s
  | 0x10 => if c.b = 0#5 then execCVadd c.a s else execReservedEncoding s
  | 0x11 => if c.b = 0#5 then execCVsub c.a s else execReservedEncoding s
  | 0x12 => if c.b = 0#5 then execCVmul c.a s else execReservedEncoding s
  | 0x13 => execCVmacc c.a c.b s
  | 0x14 => if c.b = 0#5 then execCVfadd c.a s else execReservedEncoding s
  | 0x15 => if c.b = 0#5 then execCVfsub c.a s else execReservedEncoding s
  | 0x16 => if c.b = 0#5 then execCVfmul c.a s else execReservedEncoding s
  | 0x17 => execCVfma c.a c.b s
  | 0x18 => if c.b = 0#5 then execCVfmin c.a s else execReservedEncoding s
  | 0x19 => if c.b = 0#5 then execCVfmax c.a s else execReservedEncoding s
  | 0x1A => if c.b = 0#5 then execCVand c.a s else execReservedEncoding s
  | 0x1B => if c.b = 0#5 then execCVor c.a s else execReservedEncoding s
  | 0x1C => if c.b = 0#5 then execCVxor c.a s else execReservedEncoding s
  | 0x1D => if c.b = 0#5 then execCVmin c.a s else execReservedEncoding s
  | 0x1E => if c.b = 0#5 then execCVmax c.a s else execReservedEncoding s
  | _ => execReservedEncoding s

theorem runCompact_eq (c : Compact) (s : State) : runCompact c s = runOpt (decodeCompact c) s := by
  unfold runCompact decodeCompact
  generalize c.op.toNat = n
  split
  · exact run_ite rfl rfl rfl
  · exact run_ite rfl rfl rfl
  · exact run_ite rfl rfl rfl
  · exact run_ite rfl rfl rfl
  · exact run_ite rfl rfl rfl
  · exact run_ite rfl rfl rfl
  · exact rfl
  · exact run_ite rfl rfl rfl
  · exact run_ite rfl rfl rfl
  · exact run_ite rfl rfl rfl
  · exact rfl
  · exact rfl
  · exact run_ite rfl rfl rfl
  · exact run_ite rfl rfl rfl
  · exact run_ite rfl rfl rfl
  · exact rfl
  · exact run_ite rfl rfl rfl
  · exact run_ite rfl rfl rfl
  · exact run_ite rfl rfl rfl
  · exact rfl
  · exact run_ite rfl rfl rfl
  · exact run_ite rfl rfl rfl
  · exact run_ite rfl rfl rfl
  · exact run_ite rfl rfl rfl
  · exact run_ite rfl rfl rfl
  · exact run_ite rfl rfl rfl
  · exact run_ite rfl rfl rfl
  · first | exact rfl | (split <;> first | exact rfl | contradiction)

/-- What the instruction in two halfwords does. -/
def runHalves (h0 h1 : BitVec 16) (s : State) : Result :=
  if h0.extractLsb' 0 1 = 1#1 then runMajor (Raw.ofWord (h1 ++ h0)) s else runCompact (Compact.ofHalf h0) s

/-- Execution of what a decoded pair of halfwords is. -/
noncomputable def runDecoded (o : Decoded) (s : State) : Result :=
  match o with
  | .ok i _ => exec i s
  | .bad _ => exec .reservedEncoding s

theorem runDecoded_checked (o : Option Instr) (n : Nat) (why : Reject) (s : State) :
    runDecoded (match o with
      | some i => Decoded.checked i n
      | none => .bad why) s = runOpt o s := by
  cases o with
  | none => rfl
  | some i =>
    simp only [Decoded.checked, runOpt]
    split <;> rfl

theorem runHalves_eq (h0 h1 : BitVec 16) (s : State) : runHalves h0 h1 s = runDecoded (decodeHalves h0 h1) s := by
  unfold runHalves decodeHalves
  split
  · rw [runMajor_eq]; exact (runDecoded_checked ..).symm
  · rw [runCompact_eq]; exact (runDecoded_checked ..).symm

end Sys2Proof.Machine
end

