-- ==== Sys2Proof/Machine/Waits.lean ====
section
/-!
DEFINITION. What the front end waits for while the queues hold entries (04_scalar.md R105, R106, Table 4.4, 05_lanes.md R148,
06_vector_arithmetic.md R172, R181, R184, 07_coroutines.md R197, R198, 09_visibility.md R270, 12_matrix.md R353, R357, R363, R370,
15_complications.md R429).
-/

namespace Sys2Proof.Machine

/-! ## Stalls of the queue itself (R148) -/

/-- The elements of the oldest entry that have been processed, which later entries have followed as far as they may (R145). -/
def Ctx.headProgress (c : Ctx) : Nat :=
  match c.vq with
  | [] => 0
  | e :: _ => if e.finished then vlLen e.vl else e.pos

/-- The micro-operations of an entry that are still in the window once the elements below `p` have been processed (R145); a marker has
none. A topk reads its source an element group at a time. -/
def VEntry.groupsLeft (e : VEntry) (p : Nat) : Nat :=
  let unit := match e.op with
    | .topk _ _ => perGroup (vtW e.vtype)
    | _ => e.unit
  if unit = 0 then 0 else (vlLen e.vl + unit - 1) / unit - p / unit

/-- The vector registers that an uncommitted entry has fresh physical registers for (R144). -/
def VEntry.renamed (e : VEntry) : Nat := if e.op = .release then 0 else popNat 32 (bits e.dirty 31 0)

/-- Whether the front end stalls for the vector queue, whatever it would issue: the window of 32 is full, an entry waits for one of the 16
physical registers beyond the 32 (R144, R148), a reduction is to write x[d] (06_vector_arithmetic.md R181), or an instruction of a vector
queue frame is uncommitted after a resumption (07_coroutines.md R198, 20_programs_system.md R481). -/
def Ctx.queueStalls (c : Ctx) : Bool :=
  decide (32 ≤ (c.vq.map fun e => e.groupsLeft c.headProgress).foldl (· + ·) 0) ||
    decide (16 < (c.vq.map VEntry.renamed).foldl (· + ·) 0) ||
    c.vq.any (fun e => e.framed || match e.op with
      | .reduce _ _ _ => true
      | _ => false) ||
    c.mq.any fun e => e.framed

/-! ## Accesses that may overlap (R105) -/

/-- Whether `n` bytes from an address and `m` bytes from another share one, modulo 2^64. -/
def overlaps (a : Word) (n : Nat) (b : Word) (m : Nat) : Bool := decide ((b - a).toNat < n) || decide ((a - b).toNat < m)

/-- Whether a scalar access waits for queued vector accesses that may overlap it, or for an msave or mload of its bytes (R105, 12_matrix.md
R370). -/
def State.accessWaits (s : State) (va : Word) (n : Nat) : Bool :=
  (s.me.ctx.vq.any fun e => s.me.ctx.mayMeet e (overlaps va n)) || s.padWaits s.nextOrd va n

/-- Whether a queued vector access or msave has still to be performed (09_visibility.md R270, 12_matrix.md R370). -/
def State.memoryWaits (s : State) : Bool := (s.me.ctx.vq.any fun e => e.op.isMemory) || s.me.ctx.mq.any fun e => e.op.isSave

/-- Whether a token operation of the running coroutine waits in the outgoing queue for vector accesses that its release covers: no later
store, atomic or copy command is performed before it (09_visibility.md R270). -/
def State.releaseWaits (s : State) : Bool := s.me.outq.any fun o => o.op.srcSlot == s.slotNum && !s.me.accessesDone o

/-! ## Registers still to be written (Table 4.4) -/

/-- The bits at the base of an entry's destination group, or of each field's group, that are as the entry leaves them: those of the elements
below its progress index (R145). -/
def VEntry.landedBits (e : VEntry) : Nat :=
  let w := vtW e.vtype
  match e.op with
  | .int _ => e.pos * w
  | .wide _ => e.pos * (2 * w)
  | .nclip => e.pos * w
  | .float _ => e.pos * w
  | .special _ => e.pos * w
  | .sel => e.pos * w
  | .cmp _ _ => e.pos
  | .mask _ => e.pos
  | .cvt target => e.pos * ((elemOf target.toNat).getD (.int true 8)).width
  | .scan _ _ _ => e.pos * w
  | .slide => e.pos * w
  | .gather => e.pos * w
  | .iota => e.pos * w
  | .bcast => e.pos * w
  | .move => e.pos * w
  | .load _ _ => e.pos * w
  | .chase _ _ => e.pos * w
  | .loadSeg _ _ => e.pos * w
  | _ => 0

/-- Whether an entry has still to write a bit from `lo` up to but not including `hi` of a register file of `size` bits a register, whose
registers that it writes `dirty` gives (R106). -/
def VEntry.pending (e : VEntry) (size dirty lo hi : Nat) : Bool :=
  let field := match e.op with
    | .loadSeg _ _ => vtN e.vtype
    | _ => 32
  (List.range 32).any fun r =>
    let from_ := max lo (r * size)
    let to_ := min hi ((r + 1) * size)
    let base := e.d.toNat + (r - e.d.toNat) / field * field
    dirty.testBit r && decide (from_ < to_) && decide (base * size + e.landedBits < to_)

/-- Whether an uncommitted vector instruction has still to write one of `n` bits of the vector registers, from bit `lo` of v0 on. -/
def State.vectorPending (s : State) (lo n : Nat) : Bool := s.me.ctx.vq.any fun e => e.pending 16384 (bits e.writes 31 0) lo (lo + n)

/-- Whether an uncommitted vector instruction has still to write one of `n` bits of the mask registers, from bit `lo` of m0 on. -/
def State.maskPending (s : State) (lo n : Nat) : Bool := s.me.ctx.vq.any fun e => e.pending 2048 (bits e.writes 39 32) lo (lo + n)

/-! ## What an instruction waits for (Table 4.4) -/

/-- crd's wait (Table 4.4, 05_lanes.md R133). -/
def State.crdWaits (s : State) (n : BitVec 12) : Bool :=
  match n.toNat with
  | 0x002 => !s.me.ctx.vq.isEmpty
  | 0x003 => !s.me.ctx.vq.isEmpty
  | 0x005 => !s.me.ctx.vq.isEmpty
  | 0x007 => !s.me.ctx.vq.isEmpty
  | 0x008 => !s.me.ctx.vq.isEmpty
  | 0x010 => s.me.ctx.mq.any fun e => match e.op with
    | .detach _ => true
    | .shape _ => true
    | _ => false
  | 0x011 => s.me.ctx.mq.any fun e => match e.op with
    | .detach _ => true
    | .shape _ => true
    | _ => false
  | _ => false

/-- The wait of a write of vl, vtype or vstart at level S (Table 4.4). -/
def State.cwrWaits (s : State) (n : BitVec 12) : Bool := decide (n.toNat ≤ 2) && s.sup && !s.me.ctx.vq.isEmpty

/-- Whether a vector instruction finds no queue entry free (R106). -/
def State.vectorFull (s : State) : Bool := decide (64 ≤ s.me.ctx.vq.length)

/-- Whether a matrix instruction finds no queue entry free (R106, 12_matrix.md R353). -/
def State.matrixFull (s : State) : Bool := decide (16 ≤ s.me.ctx.mq.length)

/-- The address of a scalar load or store (R111). -/
def State.rawEa (s : State) (r : Raw) : Word := s.x r.a + (r.f ++ r.k ++ r.p ++ r.b).signExtend 64

/-- The wait of a scalar load of `n` bytes (R105). -/
def State.loadWaits (s : State) (r : Raw) (n : Nat) : Bool := s.accessWaits (s.rawEa r) n

/-- The wait of a scalar store of `n` bytes (R105, 09_visibility.md R270). -/
def State.storeWaits (s : State) (r : Raw) (n : Nat) : Bool := s.accessWaits (s.rawEa r) n || s.releaseWaits

/-- The wait of a SYS instruction (Table 4.4, R124). -/
def State.sysWaits (s : State) (r : Raw) : Bool :=
  let n : BitVec 12 := r.f.extractLsb' 0 2 ++ r.k ++ r.p ++ r.b
  match (r.f.extractLsb' 2 3).toNat with
  | 0 => s.crdWaits n
  | 1 => s.cwrWaits n
  | 2 => s.cwrWaits n
  | 3 => s.cwrWaits n
  | 4 => s.me.ctx.hasFrame
  | 7 => s.memoryWaits
  | _ => false

/-- The wait of an atomic, ld.aq or st.rl: a release's for every access before it, else a scalar access's (R105, 09_visibility.md R270). -/
def State.atomWaits (s : State) (r : Raw) : Bool :=
  if r.p.getLsbD 3 then s.memoryWaits else s.accessWaits (s.x r.a) 8 || decide (r.f.toNat < 16) && s.releaseWaits

/-- The wait of a fence, of vfence.arrive, and none of cclean and cinval (09_visibility.md R286, R288, R293). -/
def State.fenceWaits (s : State) (r : Raw) : Bool :=
  match r.f.toNat with
  | 0 => s.memoryWaits
  | 1 => s.vectorFull
  | _ => false

/-- The wait of a VMASK instruction; mpop and mfirst read vl bits of a mask group (Table 4.4, 06_vector_arithmetic.md R172). -/
def State.maskWaits (s : State) (r : Raw) : Bool :=
  if r.f = 2#5 then s.maskPending (r.a.toNat * 2048) (vlLen s.me.ctx.vl) else s.vectorFull

/-- The wait of a VPERM instruction; vmvx reads an element below vl (Table 4.4, 06_vector_arithmetic.md R184). -/
def State.permWaits (s : State) (r : Raw) : Bool :=
  if r.f = 2#5 ∧ r.k = 1#1 then
    decide ((s.x r.b).toNat < vlLen s.me.ctx.vl) && s.vectorPending (r.a.toNat * 16384 + (s.x r.b).toNat * vtW s.vt) (vtW s.vt)
  else s.vectorFull

/-- The wait of a form that reads a descriptor of `n` bytes at x[a] by scalar loads (R105). -/
def State.blockWaits (s : State) (a : BitVec 5) (n : Nat) : Bool := s.accessWaits (s.x a) n

/-- The wait of a COPY instruction: a command is not accepted before the accesses that a pending release covers (09_visibility.md R270), and
cp.gather takes a vector queue entry; cp.resume, cp.cancel and cp.status wait for nothing. -/
def State.copyWaits (s : State) (r : Raw) : Bool :=
  match r.f.toNat with
  | 0 => s.blockWaits r.a 64 || s.releaseWaits
  | 1 => s.blockWaits r.a 128 || s.releaseWaits
  | 2 => s.blockWaits r.a 64 || s.releaseWaits || s.vectorFull
  | 6 => s.blockWaits r.a 128 || s.releaseWaits
  | 7 => s.blockWaits r.a 128
  | 8 => s.blockWaits r.a 128 || s.releaseWaits
  | _ => false

/-- The wait of a coroutine instruction: voluntary switches, exit and crew.bind drain the queues (07_coroutines.md R197, R220, R228); spawn,
spawn.on and farm release (R218, R219, R224); the context images are scalar accesses of the largest image's bytes (R201, R225, R226). -/
def State.coroWaits (s : State) (r : Raw) : Bool :=
  match r.f.toNat with
  | 2 => s.me.ctx.hasFrame
  | 3 => s.me.ctx.hasFrame
  | 4 => s.me.ctx.hasFrame
  | 5 => false
  | 7 => s.accessWaits (s.x r.b) 0x12000 || s.releaseWaits
  | 8 => s.accessWaits (s.x r.b) 0x12000
  | 9 => false
  | 10 => s.me.ctx.hasFrame
  | _ => s.memoryWaits

/-- Whether a fut.get or recv of a handle of a kind would take a voluntary switch: its cell gives no value now, or is another device's
(08_tokens.md R258, R261). -/
def State.valueWaits (s : State) (h : Word) (kind : BitVec 2) : Bool :=
  hKind h == kind && (hDev h != s.devNo || (!s.stale s.crew h && !s.cellCondition h 0#64))

/-- The wait of a token instruction: fut.get and recv where they take a voluntary switch (07_coroutines.md R197, R491), and send releases
(08_tokens.md R240). -/
def State.tokenWaits (s : State) (r : Raw) : Bool :=
  match r.f.toNat with
  | 7 => s.me.ctx.hasFrame && s.valueWaits (s.x r.a) 2#2
  | 8 => s.memoryWaits
  | 9 => s.me.ctx.hasFrame && s.homeHere (s.x r.a) && s.valueWaits (s.x r.a) 3#2
  | _ => false

/-- The wait of a SPACE instruction: pcommit, pdecommit, pfree and tlbinv release, and space drains the vector accesses of its core where
the core is bound to the crew; palloc waits for nothing (13_address_space.md R392 to R399). -/
def State.spaceWaits (s : State) (r : Raw) : Bool :=
  match r.f.toNat with
  | 2 => false
  | 5 => decide (s.me.bound.toNat = (s.x r.a).toNat) && s.memoryWaits
  | _ => s.memoryWaits

/-- The wait of a CMPL instruction: um.round and um.dirty follow every vector instruction and every matrix entry that uses the scratchpad
(15_complications.md R429). -/
def State.cmplWaits (s : State) (r : Raw) : Bool :=
  if r.f = 0#5 then s.vectorFull
  else !s.me.ctx.vq.isEmpty || (s.me.ctx.mq.any fun e => e.padBytes.isSome) || s.releaseWaits

/-- The wait of a POD instruction: wopen reads a descriptor, wst and an atomic wait for a pending release, and wfence.flag and an atomic with
the release bit release (16_pod.md R446, R449 to R451, 09_visibility.md R270). -/
def State.podWaits (s : State) (r : Raw) : Bool :=
  match r.f.toNat with
  | 0 => s.blockWaits r.a 64
  | 1 => false
  | 2 => false
  | 3 => s.releaseWaits
  | 4 => s.memoryWaits
  | _ => s.releaseWaits || r.p.getLsbD 3 && s.memoryWaits

/-- The wait of an instruction for the vector and matrix queues, by its major and function (02_encoding.md Tables 2.4 and 2.5): Table 4.4's,
vsync's (05_lanes.md R155), those of voluntary switches (07_coroutines.md R197, 12_matrix.md R357), a scalar access that may overlap a queued
one (R105), as the forms that read descriptors or memory of their own are taken to do, a release's for the accesses before it
(09_visibility.md R270), and mattach's for every earlier matrix entry (12_matrix.md R363). Every other instruction issues without regard to the
queues. -/
def State.wordWaits (s : State) (r : Raw) : Bool :=
  match r.major.toNat with
  | 0x0D => s.loadWaits r 1
  | 0x0E => s.loadWaits r 1
  | 0x0F => s.loadWaits r 2
  | 0x10 => s.loadWaits r 2
  | 0x11 => s.loadWaits r 4
  | 0x12 => s.loadWaits r 4
  | 0x13 => s.loadWaits r 8
  | 0x14 => s.storeWaits r 1
  | 0x15 => s.storeWaits r 2
  | 0x16 => s.storeWaits r 4
  | 0x17 => s.storeWaits r 8
  | 0x22 => s.sysWaits r
  | 0x23 => s.atomWaits r
  | 0x24 => s.fenceWaits r
  | 0x25 => if r.f = 2#5 then s.me.ctx.hasFrame else s.vectorFull
  | 0x26 => s.vectorFull
  | 0x27 => s.vectorFull
  | 0x28 => s.vectorFull
  | 0x29 => s.vectorFull
  | 0x2A => s.maskWaits r
  | 0x2B => s.vectorFull
  | 0x2C => s.permWaits r
  | 0x2D => s.vectorFull
  | 0x2E => s.vectorFull
  | 0x2F => s.vectorFull
  | 0x30 => s.copyWaits r
  | 0x31 => if r.f ++ r.k = 0#6 then !s.me.ctx.mq.isEmpty else s.matrixFull
  | 0x32 => s.coroWaits r
  | 0x33 => s.tokenWaits r
  | 0x34 => s.spaceWaits r
  | 0x35 => s.cmplWaits r
  | 0x36 => s.podWaits r
  | _ => false

/-- The wait of a compact instruction (02_encoding.md R48). -/
def State.compactWaits (s : State) (c : Compact) : Bool :=
  if 16 ≤ c.op.toNat then s.vectorFull
  else
    match c.op.toNat with
    | 11 => s.accessWaits (s.compactEa c.a c.b) 8
    | 12 => s.accessWaits (s.compactEa c.a c.b) 8 || s.releaseWaits
    | _ => false

/-- Whether the front end stalls with these halfwords next: for the vector queue itself, or for what their instruction waits for (R105, R106,
05_lanes.md R148). Where both queues are empty nothing waits. -/
def State.frontStalls (s : State) (h0 h1 : BitVec 16) : Bool :=
  s.me.ctx.hasFrame && (s.me.ctx.queueStalls ||
    if h0.extractLsb' 0 1 = 1#1 then s.wordWaits (Raw.ofWord (h1 ++ h0)) else s.compactWaits (Compact.ofHalf h0))

end Sys2Proof.Machine
end

