-- ==== Sys2Proof/Machine/Schedule.lean ====
section
/-!
DEFINITION. What one step of the device is (log 2): an input from outside, a device step of its own, or an instruction of the core whose
turn it is; and how the turn passes on.
-/

namespace Sys2Proof.Machine

/-! ## The device's own steps -/

/-- Whether an instruction is one of the operation table's rows without an encoding: a device step. -/
def isDeviceStep (i : Instr) : Bool := (encodeFields i).isNone

/-- What the oldest Kerlo command runs: its command's step; none where no row has its opcode or op field (R455, Table 17.3). -/
def kerloRow (c : KerloCmd) : Option Instr :=
  match c.op, (c.p 1).toNat with
  | 0x01, _ => some .identify
  | 0x02, 0 => some .attestReport
  | 0x02, 1 => some .attestWrap
  | 0x02, 2 => some .attestUnwrap
  | 0x03, _ => some .crewCreate
  | 0x04, _ => some .crewDestroy
  | 0x05, _ => some .codeLoad
  | 0x06, _ => some .bind
  | 0x07, _ => some .farmLaunch
  | 0x08, _ => some .signal
  | 0x09, _ => some .preemptCommand
  | 0x0A, _ => some .windowRegister
  | 0x0B, 0 => some .powerSetCap
  | 0x0B, 1 => some .powerSetState
  | 0x0B, 2 => some .powerSetGating
  | 0x0C, 0 => some .debugSetLevel
  | 0x0C, 1 => some .debugSetWatch
  | 0x0C, 2 => some .debugSetCopy
  | 0x0D, _ => some .errorQuery
  | 0x0E, _ => some .repairStatus
  | 0x0F, _ => some .patchApply
  | _, _ => none

/-- The Kerlo ROM's turn: the oldest command, where one is queued (R455). -/
def State.kerloTurn (s : State) : Option Result :=
  if !s.kerlo.next then none
  else s.kerlo.queue.head?.map fun c =>
    match kerloRow c with
    | some i => exec i s
    | none => .next s.refuseCmd

/-- A copy command of the core that has a unit to complete (10_scratchpad_copy.md R313 to R315). -/
def State.copyMove? (s : State) : Option Instr :=
  s.me.copies.findSome? fun c =>
    if !c.workable then none
    else
      match (s.copyAttempt c).2.2 with
      | none => some (if c.kind = .gather then .gatherUnitBurst c.entry else .copyUnitComplete c.entry)
      | some _ => none

/-- A copy command of the core whose next access faults (R316). -/
def State.copyFault? (s : State) : Option Instr :=
  s.me.copies.findSome? fun c =>
    if !c.workable then none
    else
      match (s.copyAttempt c).2.2 with
      | some (.fault _ _ _ _) => some (.copyFault c.entry)
      | some .wait => none
      | none => none

/-- A copy command of the core whose next access needs a translation that the host has not been asked for yet (13_address_space.md R379). -/
def State.copyAsk? (s : State) : Option Instr :=
  s.me.copies.findSome? fun c =>
    if !c.workable then none
    else
      match s.copyAttempt c with
      | (s1, _, some .wait) =>
        if s1.atsOut = s.atsOut then none else some (if c.kind = .gather then .gatherUnitBurst c.entry else .copyUnitComplete c.entry)
      | (_, _, some (.fault _ _ _ _)) => none
      | (_, _, none) => none

/-- A copy command of the core whose fault token is signalled (R316). -/
def State.copyBack? (s : State) : Option Instr :=
  (s.me.copies.find? fun c => c.state == .waiting && s.faultCondition c.token).map fun c => .copyRestart c.entry

/-- The lowest free channel of the movement that a command may take (R313). -/
def State.copyBegin? (s : State) : Option Instr :=
  if s.me.copies.isEmpty && (movCores (movOf s.me.id)).all fun k => (s.coreAt k).copies.isEmpty then none
  else
    (((List.range 16).map (BitVec.ofNat 4)).find? fun ch =>
      !s.channelBusy (movOf s.me.id) ch && (s.nextCopy (movOf s.me.id) ch).isSome).map .copyChannelStart

/-- The next step of the swap unit (14_near_far_memory.md R412 to R414). -/
def State.swapMove? (s : State) : Option Instr :=
  if s.swapRung ≠ 0 ∧ s.swaps.length < 16 then some .swapRequest
  else
    match s.swaps with
    | [] => none
    | p :: _ => some (if p.nextLine.isSome then .swapLineExchange 0#4 else .swapPairRetire 0#4)

/-- The next step of the vector and matrix queues of the running coroutine, last so that it holds no other engine up (05_lanes.md R145, R146,
R150, 12_matrix.md R354). -/
def State.vectorMove? (s : State) : Option Instr :=
  if s.me.run.isNone || !s.mayRun s.me then none
  else if s.matrixReady then some .matrixEntryStart
  else s.me.ctx.vq.head?.map fun e => if e.finished then .vectorCommit else .vectorMicroOp

/-- The step of the engines that the core's turn takes, if any is due. -/
def State.engineMove? (s : State) : Option Instr :=
  if s.me.replay && s.me.replayEnd then some .logReplay
  else if (s.me.outq.head?.map s.me.opSendable).getD false then some .tokenOpSend
  else
    s.copyMove? <|> s.copyBack? <|> s.copyBegin? <|> s.swapMove? <|>
    (s.mov.freeing.head?.map fun u => .tileUnitFree s.mov.id u) <|>
    ((s.windows.find? fun w => w.state == .closing && s.inFlight w == 0).map fun w => .windowDrainFree w.index) <|>
    ((s.sectorsHeld.find? s.sectorFree).map fun p => .ingressCheck p.1) <|>
    ((s.heldReqs.find? s.reqFree).map fun p => .ingressCheck p.1) <|>
    (if s.mustWake (movOf s.me.id) then some (.movementWake (movOf s.me.id)) else none) <|>
    (((s.me.readyOrder.take 4).find? fun t => t.spilled && s.me.hasRoom t).map fun t => .contextRefill t.num) <|>
    ((s.faults.find? s.recordDue).map fun e => .arenaFaultRecord e.die e.key) <|>
    s.copyFault? <|> s.copyAsk? <|> s.vectorMove?

/-- The step that comes before the next instruction of the running coroutine: a matrix entry that may start, which a forced switch lets
complete, or a forced switch (07_coroutines.md R199, R203, R205, 12_matrix.md R354, R358). -/
def State.frontMove? (s : State) : Option Instr :=
  if s.matrixReady then some .matrixEntryStart
  else if bits s.me.ctx.quantum 33 0 = 0 ∧ bits s.me.ctx.quantum 57 34 ≠ 0 then some .quantumExpiry
  else if !supSlot s.slotNum && s.me.supReady then some .preemptSwitch
  else none

/-! ## The front end -/

/-- The halfword at an offset of the core's instruction store (02_encoding.md R33). -/
def State.fetch (s : State) (o : Offset) : BitVec 16 := BitVec.ofNat 16 (memRead s.mem (istoreAddr (movOf s.me.id) o.toNat) 2)

/-- The front end's turn: a selection, a switch, or the instruction at the program counter; nothing while it stalls or the core may not run
(04_scalar.md R106, 07_coroutines.md R188, R211). -/
def State.frontTurn (run : BitVec 16 → BitVec 16 → State → Result) (s : State) : Result :=
  if !s.mayRun s.me then .next s
  else if s.me.run.isNone then .next s.select
  else
    match s.frontMove? with
    | some i => exec i s
    | none =>
      if s.frontStalls (s.fetch s.pc) (s.fetch (s.pc + 2#19)) then .next s else run (s.fetch s.pc) (s.fetch (s.pc + 2#19)) s

/-! ## The turn -/

/-- Whether a core has anything to do: a coroutine that runs, is ready, or waits on a condition that holds, an operation or command
outstanding, a queued write, a replay, or a tile unit of its movement that is being zeroed. -/
def State.busy (s : State) (k : Core) : Bool :=
  k.run.isSome || !k.copies.isEmpty || !k.outq.isEmpty || !k.wq.isEmpty || k.replay || !(s.movAt (movOf k.id)).freeing.isEmpty ||
    k.slots.any fun t => t.state == .ready || (t.state == .waiting && isResource t.handle && s.slotReady k t)

/-- The next core in core id order that has something to do, after the one whose turn ends. -/
def State.nextCore (s : State) : BitVec 10 :=
  let after (k : Core) : Nat := (k.id.toNat + 1023 - s.me.id.toNat) % 1024
  ((s.others.filter s.busy).foldl (fun (best : Nat × BitVec 10) k => if after k < best.1 then (after k, k.id) else best)
    (1023, s.me.id)).2

/-- The cycles of a step counted: cyc, except while the movement is gated, and the quantum of the coroutine that runs
(07_coroutines.md R202, R203, 17_host_security_power.md R466; log 8). -/
def Core.pass (k : Core) (n : BitVec 34) (awake : Bool) : Core :=
  let q := bits k.ctx.quantum 33 0 - n.toNat
  { k with
    cyc := if awake then k.cyc + n.zeroExtend 64 else k.cyc
    ctx := if k.run.isSome then { k.ctx with quantum := setBits k.ctx.quantum 33 0 q } else k.ctx }

/-- The hardware resource cells of a core for which a watch that it holds, or that found its table full, is due, each once. -/
def State.dueResources (s : State) (k : Core) : List (BitVec 16) :=
  (((k.watches.filter fun w => isResource w.handle && s.condition w.crew w.handle w.phase).map fun w => hIndex w.handle) ++
    k.overflowCells.filter fun i => decide (1 ≤ s.resourceCount k.id i.toNat)).eraseDups

/-- The watches on hardware resource cells answered, whose conditions change without an operation on a cell (08_tokens.md R243). -/
def State.answerResources (s : State) : State :=
  s.cores.foldl (fun acc k => (s.dueResources k).foldl (fun (acc1 : State) i => acc1.answerWatches k.id i) acc) s

/-- The turn passed on: after a core's own step the next core takes its turn; its slots that wait on a resource are brought up to date
(log 2). Those that wait on another cell change with an operation on it alone (08_tokens.md R229, R243). -/
def State.passOn (s : State) (core : Bool) : State :=
  let s1 := if core then s.giveTurn s.nextCore else s
  s1.setCore (s1.settleResources s1.me)

/-- The end of a step: its cycles are counted and the turn is passed on; after a core's step the matrix entries of the coroutine that runs
start where they may (12_matrix.md R354), its oldest queued write may be performed, the Kerlo ROM may take a step, and the core's next is an
engine's where this was its front end's (log 2). -/
def State.endTurn (s0 : State) (core : Bool) : State :=
  let s := if core then (if s0.me.run.isSome then s0.mSettle s0.me.ctx.mq.length else s0).drainOne else s0
  ({ s with
      me := { s.me.pass (Config.stepCycles s.fresh) (s.mov.power == Power.m0) with
        engineNext := if core then !s.me.engineNext else s.me.engineNext }
      fresh := s.fresh + 1
      kerlo := { s.kerlo with next := core } }).answerResources.passOn core

/-- The end of a step on what the step gave. -/
def finish (core : Bool) (r : Result) : Result :=
  match r with
  | .next s => .next (s.endTurn core)
  | .fault f => .fault f
  | .refused q => .refused q

/-- The turn of the core: an engine's step or the front end's, in alternation where both are due. -/
def State.coreTurn (run : BitVec 16 → BitVec 16 → State → Result) (s : State) : Result :=
  match if s.me.engineNext || s.me.run.isNone then s.engineMove? else none with
  | some i => exec i s
  | none => s.frontTurn run

/-- One step of the device: the oldest soft error, else the oldest input, else the host's oldest crown access, else boot, else the Kerlo
ROM's or the core's turn (log 2). -/
def State.turn (run : BitVec 16 → BitVec 16 → State → Result) (s : State) : Result :=
  match s.upsets with
  | u :: rest => finish false (.next ({ s with upsets := rest }.upset u))
  | [] =>
  match s.inbox with
  | i :: rest => if isDeviceStep i then finish false (exec i { s with inbox := rest }) else .fault .notAnInput
  | [] =>
    match s.kerlo.access with
    | a :: rest => finish false (.next ({ s with kerlo := { s.kerlo with access := rest } }.crownAccess a))
    | [] =>
      if !s.kerlo.ready then finish false (exec .boot s)
      else
        match s.kerloTurn with
        | some r => finish false r
        | none => finish true (s.coreTurn run)

/-! ## An instruction placed where the next step fetches (log 1) -/

/-- Coroutine 0 of crew 0 on the core, as a spawn leaves it, made to run where none runs. -/
def Core.withCoroutine (k : Core) : Core :=
  if k.run.isSome then k
  else
    let t := Slot.fresh k.id 0#8 ⟨0#64, 0#64, 0#64, 0#64, 0#2, 0, 3#3⟩
    { k.putSlot { t with state := .running } with run := some 0#8, ctx := t.ctx }

/-- Nothing left that the front end would do before its next instruction: no queue entry, no spent quantum, and no ready coroutine of
crew 0 behind a user coroutine. -/
def Core.cleared (k : Core) : Core :=
  let q := if bits k.ctx.quantum 33 0 = 0 ∧ bits k.ctx.quantum 57 34 ≠ 0 then quantumReload k.ctx.quantum else k.ctx.quantum
  { k with
    ctx := { k.ctx with vq := [], mq := [], quantum := q }
    slots := if supSlot (k.run.getD 0#8) then k.slots
      else k.slots.map fun t => if supSlot t.num && t.state == .ready then { t with state := .held } else t
    halted := false
    engineNext := false }

/-- The core whose turn it is made to take its next step from the program counter: boot complete, no input, the movement in M0. -/
def State.fetching (s : State) : State :=
  let v := s.mov
  let s1 := if v.power == .m0 && !v.leaving then s else s.setMov { v with power := .m0, leaving := false }
  { s1 with me := s1.me.withCoroutine.cleared, upsets := [], lag := [], pauses := [], inbox := [], kerlo := { s1.kerlo with access := [], ready := true, next := false } }

/-- Bytes stored where the next instruction is fetched. -/
def State.storeCode (s : State) : List Byte → State
  | [b0, b1, b2, b3] =>
    let at_ (o : Offset) : Nat := istoreAddr (movOf s.me.id) o.toNat
    { s with mem := memWrite (memWrite s.mem (at_ s.pc) 2 (b1 ++ b0).toNat) (at_ (s.pc + 2#19)) 2 (b3 ++ b2).toNat }
  | _ => s

end Sys2Proof.Machine
end

