-- ==== Sys2Proof/Machine/Step.lean ====
section
/-!
DEFINITION. One step of the device, and an instruction placed where the next step fetches it.
-/

namespace Sys2Proof.Machine

/-- One step of the device: the halfwords at the program counter are decoded, and what they decode to is executed (log 2). -/
noncomputable def step (s : State) : Host.Outcome State Fault Refusal := s.turn fun h0 h1 s' => runDecoded (decodeHalves h0 h1) s'

/-- The same step, with decoding and execution in one. -/
def stepFast (s : State) : Host.Outcome State Fault Refusal := s.turn runHalves

/-- The two steps are one function. -/
@[csimp] theorem step_eq_stepFast : @step = @stepFast := by
  funext s
  unfold step stepFast
  congr 1
  funext h0 h1 s'
  exact (runHalves_eq h0 h1 s').symm

/-- The state with an instruction stored where the next step fetches it, and nothing left to do before it (log 1). -/
def State.withFetchWord (s : State) (nbits w : Nat) : State := s.fetching.storeCode (tableBytes nbits w)

end Sys2Proof.Machine
end

