-- ==== Sys2Proof/Safety.lean ====
section
/-!
DEFINITION. The terms that statements about the machine use: what a run that does not stop is, the canonical form as an invariant, and what
an instruction leaves unchanged.
-/

namespace Sys2Proof.Machine

/-! ## Safe runs -/

/-- A run of `n` steps that meets no fault and no refusal. -/
def RunsSafely (n : Nat) (s : State) : Prop := ∃ t, Host.Core.run Sys2Proof.core n s = .next t

/-- Memory is in its one canonical form (log 4). -/
def State.Canonical (s : State) : Prop := Memory.wf s.mem = true

/-! ## Frames -/

/-- At most the live registers of the running coroutine differ: no memory, no token, no other core, no queue, no control register that a
core or the device has. -/
def OnlyContext (s t : State) : Prop := t = { s with me := { s.me with ctx := t.me.ctx } }

/-- At most the general registers, the program counter and ldst differ. -/
def OnlyGeneral (s t : State) : Prop :=
  OnlyContext s t ∧ t.me.ctx = { s.me.ctx with x := t.me.ctx.x, pc := t.me.ctx.pc, ldst := t.me.ctx.ldst }

/-- Register `d` holds `v`, unless it is x0, which reads as zero; every other general register is unchanged. -/
def HoldsAt (s t : State) (d : BitVec 5) (v : Word) : Prop := ∀ r, t.x r = if r = d ∧ r ≠ 0#5 then v else s.x r

/-- What an instruction of `n` bytes that writes x[d] and nothing else does: x[d] holds `v`, ldst names d, the program counter passes the
instruction, and every byte of memory and every other register is as before. -/
def Writes (s t : State) (d : BitVec 5) (v : Word) (n : Nat) : Prop :=
  OnlyGeneral s t ∧ HoldsAt s t d v ∧ t.pc = s.pc + BitVec.ofNat 19 n ∧ t.me.ctx.ldst = 0#1 ++ d

/-- The same for an instruction that also changes the status register, to `status`. -/
def WritesStatus (s t : State) (d : BitVec 5) (v : Word) (status : Word) : Prop :=
  Writes (s.updCtx fun c => { c with status := status }) t d v 4

/-- The same for an instruction that also changes fcr and prng. -/
def WritesFloat (s t : State) (d : BitVec 5) (v fcr prng : Word) : Prop :=
  Writes (s.updCtx fun c => { c with fcr := fcr, prng := prng }) t d v 4

/-- At most the program counter differs. -/
def OnlyPc (s t : State) (pc : Offset) : Prop := t = s.updCtx fun c => { c with pc := pc }

/-! ## Numbers (03_numbers.md R65 to R90) -/

/-- A positive real number: m / n × 2^e, or the square root of m × 2^e. -/
inductive Size where
  | quot (m n : Nat) (e : Int)
  | root (m : Nat) (e : Int)

/-- How a number compares with v × 2^q. -/
def Size.vs (x : Size) (v : Nat) (q : Int) : Ordering :=
  match x with
  | .quot m n e => compare (m * 2 ^ (e - min e q).toNat) (v * n * 2 ^ (q - min e q).toNat)
  | .root m e => compare (m * 2 ^ (e - min e (2 * q)).toNat) (v * v * 2 ^ (2 * q - min e (2 * q)).toNat)

/-- Whether a rounding of a number between a × 2^q and b × 2^q takes b; `odd` says that a's mantissa is odd (03_numbers.md Table 3.7, R77). -/
def Size.roundsUp (x : Size) (r : Rounding) (neg odd : Bool) (a b : Nat) (q : Int) : Bool :=
  match r.rm with
  | 0 => x.vs (a + b) (q - 1) = .gt || (x.vs (a + b) (q - 1) = .eq && odd)
  | 1 => false
  | 2 => neg
  | 3 => !neg
  | 4 => x.vs (a + b) (q - 1) ≠ .lt
  | _ => x.vs (2 ^ 24 * a + (b - a) * (2 ^ 24 - r.draw)) (q - 24) ≠ .lt

/-- The magnitude of an encoding without its sign, in units of the smallest subnormal, with the exponent range unbounded (03_numbers.md R65,
R76). -/
def FloatFmt.steps (f : FloatFmt) (b : Nat) : Nat :=
  if b < 2 ^ f.manBits then b else (2 ^ f.manBits + b % 2 ^ f.manBits) * 2 ^ (b / 2 ^ f.manBits - 1)

/-- The exponent of the smallest subnormal (03_numbers.md Table 3.1). -/
def FloatFmt.unit (f : FloatFmt) : Int := 1 - (f.bias : Int) - f.manBits

/-- A format's result on overflow, where the mode rounds away, and on an infinite input, with fsat where it takes the largest finite value for an
infinity or a NaN (03_numbers.md Table 3.8, R80). -/
def awayResult (f : FloatFmt) (sat neg : Bool) : Nat × FFlags :=
  match f with
  | .f64 => (f.sign neg + 0x7FF0000000000000, 0#6) | .f32 => (f.sign neg + 0x7F800000, 0#6) | .f16 => (f.sign neg + 0x7C00, 0#6)
  | .bf16 => (f.sign neg + 0x7F80, 0#6)
  | .e5m2 => if sat then (f.sign neg + 0x7B, 32#6) else (f.sign neg + 0x7C, 0#6)
  | .e4m3 => if sat then (f.sign neg + 0x7E, 32#6) else (0x7F, 0#6)
  | .e3m2 => (f.sign neg + 0x1F, 32#6) | .e2m3 => (f.sign neg + 0x1F, 32#6) | .e2m1 => (f.sign neg + 0x7, 32#6)

/-- A result of the sign `neg` and the size `x`, rounded to a format: flushed where it is tiny and ftz is set, else the neighbour that the mode
takes, with the flags of inexactness and underflow, or what overflow gives (03_numbers.md R76, R77, R79, R80). -/
def RoundedTo (f : FloatFmt) (r : Rounding) (neg : Bool) (x : Size) (out : Nat × FFlags) : Prop :=
  let tiny : Bool := x.vs (f.steps (2 ^ f.manBits)) f.unit = .lt
  let away : Bool := r.rm = 0 || r.rm = 4 || r.rm = 5 || (r.rm = 2 && neg) || (r.rm = 3 && !neg)
  (tiny = true → r.ftz = true → out = (f.sign neg, 3#6)) ∧
    (tiny = false ∨ r.ftz = false → ∀ a, x.vs (f.steps a) f.unit ≠ .lt → x.vs (f.steps (a + 1)) f.unit = .lt →
      let exact : Bool := x.vs (f.steps a) f.unit = .eq
      let n := if !exact && x.roundsUp r neg (a % 2 = 1) (f.steps a) (f.steps (a + 1)) f.unit then a + 1 else a
      out = if f.largest < n then
          (if away then ((awayResult f r.sat neg).1, 5#6 ||| (awayResult f r.sat neg).2) else (f.sign neg + f.largest, 5#6))
        else (f.sign neg + n, (if exact then 0#6 else 1#6) ||| (if tiny && !exact then 2#6 else 0#6)))

/-- What an encoding stands for: its finite magnitude times the unit, or an infinity or NaN above the largest (03_numbers.md R65, Table 3.1). -/
def ReadsAs (f : FloatFmt) (b : Nat) : Prop :=
  let neg : Bool := b.testBit (f.expBits + f.manBits)
  let mag := b % 2 ^ (f.expBits + f.manBits)
  (mag ≤ f.largest → ∃ m e, f.read false b = .fin neg m e ∧ (Size.quot m 1 e).vs (f.steps mag) f.unit = .eq) ∧
    (f.largest < mag → (f.read false b = .inf neg ∧ f ≠ .e4m3 ∧ mag = f.largest + 1) ∨
      ((f.read false b).isNan = true ∧ (f = .e4m3 ∨ mag ≠ f.largest + 1)))

/-- The finite values of a list as one integer in units of 2^k, for k at most the exponent of each. -/
def sumAt (k : Int) : List Machine.Num → Int
  | [] => 0
  | .fin n m e :: r => (if n then -1 else 1) * ((m * 2 ^ (e - k).toNat : Nat) : Int) + sumAt k r
  | _ :: r => sumAt k r

/-- An exact result that is the number z × 2^k, with the sign `zero` where it is zero. -/
def ExactlyIs (x : Exact) (z k : Int) (zero : Bool) : Prop :=
  ∃ n m e, x = .val n ⟨m, e, false⟩ ∧ (m = 0 → z = 0 ∧ n = zero) ∧
    (if n then -1 else 1) * ((m * 2 ^ (e - min e k).toNat : Nat) : Int) = z * 2 ^ (k - min e k).toNat

/-- A positive number in an integer type: rounded in the mode in force, and the nearest bound with fnv alone where it lies outside
(03_numbers.md R76, R82). -/
def RoundedToInt (sg : Bool) (w : Nat) (r : Rounding) (neg : Bool) (x : Size) (out : Nat × FFlags) : Prop :=
  ∀ a, x.vs a 0 ≠ .lt → x.vs (a + 1) 0 = .lt →
    let exact : Bool := x.vs a 0 = .eq
    let n : Nat := if !exact && x.roundsUp r neg (a % 2 = 1) a (a + 1) 0 then a + 1 else a
    let v : Int := if neg then -(n : Int) else n
    let lo : Int := if sg then -(2 ^ (w - 1)) else 0
    let hi : Int := if sg then 2 ^ (w - 1) - 1 else 2 ^ w - 1
    out = if v < lo then ((lo % 2 ^ w).toNat, 16#6) else if hi < v then ((hi % 2 ^ w).toNat, 16#6)
      else ((v % 2 ^ w).toNat, if exact then 0#6 else 1#6)

/-- A number m × 2^e converted to lns6: L is the nearest integer, the floor or the ceiling of 16 + 4 × log2 of it, brought into 1 to 31
(03_numbers.md R81, R80). -/
def RoundedToLns (r : Rounding) (neg : Bool) (m : Nat) (e : Int) (out : Nat × FFlags) : Prop :=
  let fourth := Size.quot (m ^ 4) 1 (4 * e)
  let eighth := Size.quot (m ^ 8) 1 (8 * e)
  let up : Bool := (r.rm = 2 && neg) || (r.rm = 3 && !neg)
  let down : Bool := r.rm = 1 || (r.rm = 2 && !neg) || (r.rm = 3 && neg)
  let s := if neg then 32 else 0
  ∀ l : Int,
    (if up then fourth.vs 1 (l - 17) = .gt ∧ fourth.vs 1 (l - 16) ≠ .gt
      else if down then fourth.vs 1 (l - 16) ≠ .lt ∧ fourth.vs 1 (l - 15) = .lt
      else eighth.vs 1 (2 * l - 33) ≠ .lt ∧ eighth.vs 1 (2 * l - 31) = .lt) →
    out = if l < 1 then (if up then (s + 1, 1#6) else (0, 3#6))
      else if 31 < l then (s + 31, if up || !down then 37#6 else 5#6)
      else (s + l.toNat, if (Size.quot m 1 e).vs (lnsTable ((l - 16) % 4).toNat) ((l - 16) / 4 - 23) = .eq then 0#6 else 1#6)

/-! ## Scalar results (04_scalar.md R108 to R118) -/

/-- What the integer register operations write, from A = x[a] and B = x[b] (04_scalar.md Table 4.6). -/
noncomputable def aluRows (d a b : BitVec 5) (A B : Word) : List (Instr × Word) := [
  (.add d a b, BitVec.ofNat 64 (A.toNat + B.toNat)),
  (.sub d a b, BitVec.ofInt 64 (A.toInt - B.toInt)),
  (.and d a b, A &&& B),
  (.or d a b, A ||| B),
  (.xor d a b, A ^^^ B),
  (.sll d a b, BitVec.ofNat 64 (A.toNat * 2 ^ (B.toNat % 64))),
  (.srl d a b, BitVec.ofNat 64 (A.toNat / 2 ^ (B.toNat % 64))),
  (.sra d a b, BitVec.ofInt 64 (A.toInt / 2 ^ (B.toNat % 64))),
  (.slt d a b, if A.toInt < B.toInt then 1#64 else 0#64),
  (.sltn d a b, if A.toNat < B.toNat then 1#64 else 0#64),
  (.mul d a b, BitVec.ofNat 64 (A.toNat * B.toNat)),
  (.mulh d a b, BitVec.ofInt 64 (A.toInt * B.toInt / 2 ^ 64)),
  (.mulhn d a b, BitVec.ofNat 64 (A.toNat * B.toNat / 2 ^ 64)),
  (.min d a b, if A.toInt < B.toInt then A else B),
  (.max d a b, if A.toInt < B.toInt then B else A),
  (.minn d a b, if A.toNat < B.toNat then A else B),
  (.maxn d a b, if A.toNat < B.toNat then B else A),
  (.clz d a, A.clz),
  (.ctz d a, A.ctz),
  (.popc d a, A.cpop)]

/-- The quotient and the remainder of R109: all ones and the dividend for a zero divisor, else truncated toward zero, modulo 2^64. -/
def quotRem (signed : Bool) (A B : Word) : Word × Word :=
  if B = 0#64 then (BitVec.allOnes 64, A)
  else if signed then (BitVec.ofInt 64 (A.toInt.tdiv B.toInt), BitVec.ofInt 64 (A.toInt.tmod B.toInt))
  else (BitVec.ofNat 64 (A.toNat / B.toNat), BitVec.ofNat 64 (A.toNat % B.toNat))

/-- What the divisions write (04_scalar.md R109). -/
noncomputable def divideRows (d a b : BitVec 5) (A B : Word) : List (Instr × Word) := [
  (.div d a b, (quotRem true A B).1),
  (.divn d a b, (quotRem false A B).1),
  (.rem d a b, (quotRem true A B).2),
  (.remn d a b, (quotRem false A B).2)]

/-- What the immediate operations write, from A = x[a] and the offset of the instruction (04_scalar.md R111, R112). -/
noncomputable def immediateRows (d a : BitVec 5) (i : BitVec 15) (n : BitVec 6) (u : BitVec 20) (A : Word) (pc : Offset) : List (Instr × Word) := [
  (.addi d a i, BitVec.ofInt 64 (A.toInt + i.toInt)),
  (.andi d a i, A &&& BitVec.ofNat 64 i.toNat),
  (.ori d a i, A ||| BitVec.ofNat 64 i.toNat),
  (.xori d a i, A ^^^ BitVec.ofNat 64 i.toNat),
  (.slli d a n, BitVec.ofNat 64 (A.toNat * 2 ^ n.toNat)),
  (.srli d a n, BitVec.ofNat 64 (A.toNat / 2 ^ n.toNat)),
  (.srai d a n, BitVec.ofInt 64 (A.toInt / 2 ^ n.toNat)),
  (.slti d a i, if A.toInt < i.toInt then 1#64 else 0#64),
  (.sltni d a i, if A.toNat < (BitVec.ofInt 64 i.toInt).toNat then 1#64 else 0#64),
  (.lim d u, BitVec.ofInt 64 (u.toInt * 2 ^ 15)),
  (.ipc d u, BitVec.ofInt 64 (pc.toNat + u.toInt * 2 ^ 15))]

/-- When each conditional branch is taken, from its first source A and its second B (04_scalar.md R114). -/
noncomputable def branchRows (a b : BitVec 5) (o : BitVec 15) (A B : Word) : List (Instr × Bool) := [
  (.beq a b o, decide (A = B)),
  (.bne a b o, decide (A ≠ B)),
  (.blt a b o, decide (A.toInt < B.toInt)),
  (.bge a b o, decide (B.toInt ≤ A.toInt)),
  (.bltn a b o, decide (A.toNat < B.toNat)),
  (.bgen a b o, decide (B.toNat ≤ A.toNat))]

/-- What the compact forms on a scalar register L write, from its value, the register a and their immediates: the 32-bit instructions of
Table 2.8 (02_encoding.md R48). -/
noncomputable def compactRows (a : BitVec 5) (h : BitVec 1) (i : BitVec 10) (L A : Word) : List (Instr × Word) := [
  (.cAdd a, BitVec.ofNat 64 (L.toNat + A.toNat)),
  (.cSub a, BitVec.ofInt 64 (L.toInt - A.toInt)),
  (.cAnd a, L &&& A),
  (.cOr a, L ||| A),
  (.cXor a, L ^^^ A),
  (.cMul a, BitVec.ofNat 64 (L.toNat * A.toNat)),
  (.cAddi i, BitVec.ofInt 64 (L.toInt + i.toInt)),
  (.cSlli a h, BitVec.ofNat 64 (L.toNat * 2 ^ (32 * h.toNat + a.toNat))),
  (.cSrli a h, BitVec.ofNat 64 (L.toNat / 2 ^ (32 * h.toNat + a.toNat))),
  (.cSrai a h, BitVec.ofInt 64 (L.toInt / 2 ^ (32 * h.toNat + a.toNat)))]

/-- The number that a float operand of a scalar instruction stands for: the low 32 bits or the whole register (04_scalar.md R116). -/
def scalarNum (f : FloatFmt) (fcr A : Word) : Num := f.read (fcrDaz fcr f) (if f = .f32 then A.toNat % 2 ^ 32 else A.toNat)

/-- The exact results that the float arithmetic of a format rounds (04_scalar.md R116). -/
noncomputable def floatRows (d a b c : BitVec 5) (fcr A B C : Word) : List (Instr × FloatFmt × Exact) :=
  let n (f : FloatFmt) (x : Word) : Num := scalarNum f fcr x
  let rm := fcrRm fcr
  [(.faddF32 d a b, .f32, addNum rm (n .f32 A) (n .f32 B)), (.faddF64 d a b, .f64, addNum rm (n .f64 A) (n .f64 B)),
   (.fsubF32 d a b, .f32, addNum rm (n .f32 A) (n .f32 B).negate), (.fsubF64 d a b, .f64, addNum rm (n .f64 A) (n .f64 B).negate),
   (.fmulF32 d a b, .f32, (mulNum (n .f32 A) (n .f32 B)).1.exact (mulNum (n .f32 A) (n .f32 B)).2),
   (.fmulF64 d a b, .f64, (mulNum (n .f64 A) (n .f64 B)).1.exact (mulNum (n .f64 A) (n .f64 B)).2),
   (.fdivF32 d a b, .f32, divNum (n .f32 A) (n .f32 B)), (.fdivF64 d a b, .f64, divNum (n .f64 A) (n .f64 B)),
   (.fsqrtF32 d a, .f32, sqrtNum (n .f32 A)), (.fsqrtF64 d a, .f64, sqrtNum (n .f64 A)),
   (.fmaddF32 d a b c, .f32, fmaNum rm (n .f32 A) (n .f32 B) (n .f32 C)),
   (.fmaddF64 d a b c, .f64, fmaNum rm (n .f64 A) (n .f64 B) (n .f64 C))]

/-- What the scalar conversions give, by their code c (04_scalar.md R118, 02_encoding.md Table 2.6). -/
noncomputable def convertRows (d a : BitVec 5) (r : FloatFmt → Rounding) (fcr A : Word) : List (Instr × (Nat × FFlags)) := [
  (.fcvtF32 d a 0#5, (Elem.float .f32).convert (r .f32) (intNum A.toInt)),
  (.fcvtF64 d a 0#5, (Elem.float .f64).convert (r .f64) (intNum A.toInt)),
  (.fcvtF32 d a 1#5, (Elem.float .f32).convert (r .f32) (intNum A.toNat)),
  (.fcvtF64 d a 1#5, (Elem.float .f64).convert (r .f64) (intNum A.toNat)),
  (.fcvtF32 d a 2#5, (Elem.int true 64).convert (r .f32) (scalarNum .f32 fcr A)),
  (.fcvtF64 d a 2#5, (Elem.int true 64).convert (r .f64) (scalarNum .f64 fcr A)),
  (.fcvtF32 d a 3#5, (Elem.int false 64).convert (r .f32) (scalarNum .f32 fcr A)),
  (.fcvtF64 d a 3#5, (Elem.int false 64).convert (r .f64) (scalarNum .f64 fcr A)),
  (.fcvtF32 d a 4#5, (Elem.float .f32).convert (r .f32) (scalarNum .f64 fcr A)),
  (.fcvtF64 d a 4#5, (Elem.float .f64).convert (r .f64) (scalarNum .f32 fcr A))]

/-- The conditions eq, lt, le and unord of fcmp on two numbers (04_scalar.md R117). -/
def compareNum (c : Nat) (p q : Num) : Bool :=
  match c with
  | 0 => eqNum p q
  | 1 => ltNum p q
  | 2 => ltNum p q || eqNum p q
  | _ => p.isNan || q.isNan

/-- fcr after fmin or fmax of two numbers: fnv for a signalling NaN (04_scalar.md R117). -/
def signalling (fcr : Word) (p q : Num) : Word := if p = .nan true ∨ q = .nan true then fcr ||| 0x100000#64 else fcr

/-- fcr after fcmp of two numbers: lt and le set fnv for any NaN, eq and unord for a signalling one (04_scalar.md R117). -/
def compareFcr (fcr : Word) (c : Nat) (p q : Num) : Word :=
  if p = .nan true ∨ q = .nan true ∨ ((c = 1 ∨ c = 2) ∧ (p.isNan ∨ q.isNan)) then fcr ||| 0x100000#64 else fcr

/-- The class of an encoding with `e` exponent and `m` mantissa bits, as Table 4.13 numbers them. -/
def floatClass (e m v : Nat) : Nat :=
  let man := v % 2 ^ m
  let exp := v / 2 ^ m % 2 ^ e
  let neg : Bool := v / 2 ^ (m + e) % 2 = 1
  if exp = 2 ^ e - 1 then
    if man = 0 then (if neg then 0 else 7) else if man < 2 ^ (m - 1) then 8 else 9
  else if exp = 0 then
    if man = 0 then (if neg then 3 else 4) else if neg then 2 else 5
  else if neg then 1 else 6

/-- What fmin and fmax write (04_scalar.md R117). -/
def minMaxValue (f : FloatFmt) (fcr : Word) (max : Bool) (A B : Word) : Word :=
  let p := scalarNum f fcr A
  let q := scalarNum f fcr B
  let a : Word := BitVec.ofNat 64 (f.dazBits (fcrDaz fcr f) A.toNat)
  let b : Word := BitVec.ofNat 64 (f.dazBits (fcrDaz fcr f) B.toNat)
  if p.isNan ∧ q.isNan then BitVec.ofNat 64 f.nan
  else if p.isNan then b
  else if q.isNan then a
  else if max then (if ltNum q p ∨ (eqNum p q ∧ ¬p.isNeg) then a else b)
  else if ltNum p q ∨ (eqNum p q ∧ p.isNeg) then a
  else b

/-! ## Memory as the core sees it (04_scalar.md R101 to R103, 09_visibility.md R268) -/

/-- The byte at a physical address once the queued writes of the core whose turn it is are performed (09_visibility.md R275). -/
def State.settled (s : State) (pa : Nat) : Byte := memByte s.drained.mem (s.redirect pa)

/-- The byte at a physical address as the core whose turn it is sees it on a WB page: a valid byte of its scalar L1, else memory's. -/
def State.seen (s : State) (pa : Nat) : Byte :=
  match s.me.line? (pa / 64) with
  | none => s.settled pa
  | some l => if l.valid.getLsbD (pa % 64) then l.data.extractLsb' (8 * (pa % 64)) 8 else s.settled pa

/-- The byte at a physical address at its home, once the core's queued writes and its dirty bytes are there (09_visibility.md R274, R275). -/
def State.homeByte (s : State) (pa : Nat) : Byte :=
  match s.me.line? (pa / 64) with
  | none => s.settled pa
  | some l => if l.dirty.getLsbD (pa % 64) then l.data.extractLsb' (8 * (pa % 64)) 8 else s.settled pa

/-- `n` bytes at their home, little-endian; a hardware resource cell reads as the count that it is (08_tokens.md R234). -/
def State.homeNum (s : State) (pa n : Nat) : Nat :=
  match resourceByte pa with
  | some _ => s.physRead pa n
  | none => (List.range n).foldr (fun i acc => (s.homeByte (pa + i)).toNat + 256 * acc) 0

/-- Whether `n` bytes of a line are valid in the core's scalar L1. -/
def State.validAt (s : State) (pa n : Nat) : Bool :=
  match s.me.line? (pa / 64) with
  | none => false
  | some l => (List.range n).all fun i => l.valid.getLsbD (pa % 64 + i)

/-- `n` bytes as the core sees them, little-endian (00_scope.md R4). -/
def State.seenNum (s : State) (pa : Nat) : Nat → Nat
  | 0 => 0
  | n + 1 => (s.seen pa).toNat + 256 * s.seenNum (pa + 1) n

/-- The queued writes of the core are aligned stores to device or host memory (09_visibility.md R275). -/
def QueueSound (s : State) : Prop :=
  ∀ q ∈ s.me.wq, q.n ∈ [1, 2, 4, 8] ∧ q.pa % q.n = 0 ∧ (q.pa < hbmSize ∨ hostBase ≤ q.pa)

/-- No unit of memory, of L2 or of the core's scalar L1 is uncorrectable, pages on their way to another place are whole and different pages,
and the core's queued writes are those of its stores. -/
def Healthy (s : State) : Prop :=
  s.bad = [] ∧ s.failing = [] ∧ (∀ l ∈ s.l2, l.bad = 0#32) ∧ (∀ l ∈ s.me.l1, l.held = 0#8) ∧
    (∀ p ∈ s.swaps, p.near % 65536 = 0 ∧ p.far % 65536 = 0) ∧ (s.swaps.flatMap fun p => [p.near, p.far]).Nodup ∧ QueueSound s

/-- What the scalar L1 and memory keep: one line a place, of HBM or host memory, whose dirty bytes are valid; memory in its canonical form,
and no page on its way to another place. -/
def CacheSound (s : State) : Prop :=
  s.Canonical ∧ s.swaps = [] ∧ (s.me.l1.map (·.line)).Nodup ∧
    ∀ l ∈ s.me.l1, l.dirty &&& ~~~l.valid = 0#64 ∧ (64 * l.line < hbmSize ∨ hostBase ≤ 64 * l.line)

/-- At most the live registers, the scalar L1, the write queue and the memory and L2 lines that they write back to, the lane clusters'
slices, and the free counter differ. -/
def OnlyCache (s t : State) : Prop :=
  t = { s with
    me := { s.me with ctx := t.me.ctx, l1 := t.me.l1, wq := t.me.wq, slices := t.me.slices }, mem := t.mem, l2 := t.l2, fresh := t.fresh }

/-- Only the general registers, the program counter and ldst of the live registers differ. -/
def GeneralRegs (s t : State) : Prop := t.me.ctx = { s.me.ctx with x := t.me.ctx.x, pc := t.me.ctx.pc, ldst := t.me.ctx.ldst }

/-- What an access that needs no fault finds: an aligned address of `n` bytes, under no watch range, with its translation to an
address as aligned; `s1` is the state that the translation leaves. -/
def Reaches (s : State) (store : Bool) (va : Word) (n : Nat) (s1 : State) (pa : Nat) (policy : BitVec 2) : Prop :=
  va.toNat % n = 0 ∧ s.watched s.who store va n = false ∧ s.translateFirst false store va = (s1, .ok pa policy) ∧ pa % n = 0

/-- What a load of `n` bytes reads at its physical address: on a WB page the bytes of the scalar L1 where it holds them all, else their
home's; on any other page memory's, behind the queued writes (04_scalar.md R102, R103, 09_visibility.md R275, R282). -/
def State.readAt (s : State) (pa : Nat) (policy : BitVec 2) (n : Nat) : Nat :=
  if policy = 0#2 then (if s.validAt pa n then s.seenNum pa n else s.homeNum pa n) else s.drained.physRead pa n

/-- The scalar loads, with their address, size and signedness, and their length (04_scalar.md Table 4.9, 02_encoding.md R48). -/
noncomputable def loadRows (d a l b : BitVec 5) (i : BitVec 15) (s : State) : List (Instr × BitVec 5 × Word × Nat × Bool × Nat) :=
  let ea : Word := BitVec.ofInt 64 ((s.x a).toNat + i.toInt)
  [(.ldI8 d a i, d, ea, 1, true, 4), (.ldN8 d a i, d, ea, 1, false, 4), (.ldI16 d a i, d, ea, 2, true, 4),
   (.ldN16 d a i, d, ea, 2, false, 4), (.ldI32 d a i, d, ea, 4, true, 4), (.ldN32 d a i, d, ea, 4, false, 4),
   (.ld64 d a i, d, ea, 8, false, 4)] ++
  (if s.me.ctx.ldst = 0#1 ++ l then [(.cLd a b, l, BitVec.ofNat 64 ((s.x a).toNat + 8 * b.toNat), 8, false, 2)] else [])

/-- The scalar stores, with their data register, address, size and length (04_scalar.md Table 4.9, 02_encoding.md R48). -/
noncomputable def storeRows (d a l b : BitVec 5) (i : BitVec 15) (s : State) : List (Instr × BitVec 5 × Word × Nat × Nat) :=
  let ea : Word := BitVec.ofInt 64 ((s.x a).toNat + i.toInt)
  [(.st8 d a i, d, ea, 1, 4), (.st16 d a i, d, ea, 2, 4), (.st32 d a i, d, ea, 4, 4), (.st64 d a i, d, ea, 8, 4)] ++
  (if s.me.ctx.ldst = 0#1 ++ l then [(.cSt a b, l, BitVec.ofNat 64 ((s.x a).toNat + 8 * b.toNat), 8, 2)] else [])

/-- An `n`-byte number extended to a word. -/
def extend (signed : Bool) (n v : Nat) : Word :=
  if signed ∧ 2 ^ (8 * n - 1) ≤ v then BitVec.ofInt 64 ((v : Int) - 2 ^ (8 * n)) else BitVec.ofNat 64 v

/-- Where a store of `n` bytes of `v` at a physical address lands on a page that is not WB: memory, behind the queued writes, but for a
hardware resource cell, which keeps its bytes (09_visibility.md R275, 08_tokens.md R234). -/
def StoredAtHome (s t : State) (pa n : Nat) (v : Word) : Prop :=
  ∀ b, memByte t.drained.mem b = if resourceByte pa = none ∧ s.redirect pa ≤ b ∧ b < s.redirect pa + n then
    BitVec.ofNat 8 (v.toNat / 256 ^ (b - s.redirect pa)) else memByte s.drained.mem b

/-! ## Exceptions (07_coroutines.md R206 to R211) -/

/-- The slots of a core stand for different coroutines. -/
def SlotsSound (k : Core) : Prop := (k.slots.map (·.num)).Nodup

/-- The value of cause after a stop of a coroutine whose queues are `c`'s (07_coroutines.md Table 7.8). -/
def causeOf (c : Ctx) (code : BitVec 8) (st : Bool) : Word :=
  BitVec.ofNat 64 (code.toNat + (if c.vq ≠ [] ∨ c.mq ≠ [] then 256 else 0) + (if st then 512 else 0))

/-- What a forced switch keeps of a context: every scalar register, and every vector and mask register whose vdirty bit is set
(07_coroutines.md R198). -/
def KeptByForce (c u : Ctx) : Prop :=
  u.x = c.x ∧ (∀ i : Fin 32, c.vdirty.getLsbD i.val = true → u.v[i] = c.v[i]) ∧
    (∀ i : Fin 8, c.vdirty.getLsbD (32 + i.val) = true → u.m[i] = c.m[i]) ∧
    u.vl = c.vl ∧ u.vtype = c.vtype ∧ u.fcr = c.fcr ∧ u.prng = c.prng ∧ u.status = c.status ∧ u.vdirty = c.vdirty ∧
    u.quantum = c.quantum ∧ u.vq = (c.vq.map fun e => { e with framed := true }) ∧ u.mq = c.mq.map fun e => { e with framed := true }

/-! ## Control registers (04_scalar.md R97, R98, R120) -/

/-- What a control register holds after a write of `w` at level S or U over its old value: its writable fields take w's, its read-only
ones stay (04_scalar.md Tables 4.2, 4.3, 03_numbers.md R73, R74, 07_coroutines.md Tables 7.7, 7.8, 7.10). -/
def cregAfter (sup : Bool) (n : Nat) (openRecord : Bool) (old w : Word) : Word :=
  match n with
  | 0x000 => if sup then w &&& 0xFFFFFFFF#64 else old
  | 0x001 => if sup then w &&& 0x8000000000000FFF#64 else old
  | 0x002 => if sup then w &&& 0xFFFF#64 else old
  | 0x004 => w &&& 0x3F#64
  | 0x005 => if 6 ≤ (w &&& 7#64).toNat then (w &&& 0x3F07F0#64) ||| (old &&& 7#64) else w &&& 0x3F07F7#64
  | 0x006 => if w = 0#64 then 1#64 else w
  | 0x007 => (w &&& 0xD#64) ||| (if sup then w &&& 0x100#64 else old &&& 0x100#64)
  | 0x008 => if sup then w &&& 0xFFFFFFFFFFF#64 else old
  | 0x022 => if sup then w &&& 0xC3FFFFFFFFFFFFFF#64 else old
  | 0x030 => if sup then (w &&& 0x3FF#64) ||| (if openRecord then old &&& 0x83FFFF0000000000#64 else 0#64) else old
  | 0x031 => if sup then w else old
  | 0x032 => w &&& 0x7FFFF#64
  | 0x033 => if sup then w &&& 1#64 else old
  | _ => old

/-! ## Steps -/

/-- The halfword that memory holds at an offset of the instruction store of the core whose turn it is. -/
def State.codeAt (s : State) (o : Nat) : BitVec 16 :=
  let a := 0x10100000000 + s.me.id.toNat / 4 * 0x80000 + o
  memByte s.mem (a + 1) ++ memByte s.mem a

/-- The next step issues the instruction at the program counter of the coroutine that runs: nothing comes from outside, boot is complete, the
Kerlo ROM and the engines have no turn or nothing to do, the core may run, and its front end has no switch or matrix entry to see to first
and does not stall (log 2, 04_scalar.md R105, R106, 05_lanes.md R148). -/
def State.Issues (s : State) : Prop :=
  s.upsets = [] ∧ s.inbox = [] ∧ s.kerlo.access = [] ∧ s.kerlo.ready = true ∧ (s.kerlo.next = false ∨ s.kerlo.queue = []) ∧
    (s.me.engineNext = false ∨ s.engineMove? = none) ∧ s.me.halted = false ∧ s.mov.power = .m0 ∧ s.me.run.isSome = true ∧
    s.frontMove? = none ∧ s.frontStalls (s.codeAt s.pc.toNat) (s.codeAt (s.pc + 2#19).toNat) = false

/-! ## Privilege over the device (01_machine.md R22, 07_coroutines.md R212) -/

/-- What the device keeps for the host and the supervisor: its number and routes, the supervisor's space, the Kerlo ROM's range, the stripe
boundary, the context key, BAR2's place, the lifecycle, debug level, patch level, power cap and gating policy, the IDE keys, the MSI-X
table, the moves of its ports and its token-signal range. -/
def SameDevice (s t : State) : Prop :=
  t.devNo = s.devNo ∧ t.routes = s.routes ∧ t.supSpace = s.supSpace ∧ t.romBase = s.romBase ∧ t.stripe = s.stripe ∧
    t.contextKey = s.contextKey ∧ t.barBase = s.barBase ∧ t.barSize = s.barSize ∧ t.kerlo.life = s.kerlo.life ∧
    t.kerlo.dbg = s.kerlo.dbg ∧ t.kerlo.patch = s.kerlo.patch ∧ t.kerlo.cap = s.kerlo.cap ∧ t.kerlo.gating = s.kerlo.gating ∧
    t.kerlo.ideKeys = s.kerlo.ideKeys ∧ t.kerlo.msix = s.kerlo.msix ∧ t.portMoves = s.portMoves ∧ t.signalRange = s.signalRange

/-- What a core keeps for its supervisor: the crew bound to it, its space and spill reserve, and tvec. -/
def SameSupervision (k l : Core) : Prop := l.bound = k.bound ∧ l.space = k.space ∧ l.rsv = k.rsv ∧ l.tvec = k.tvec

/-! ## Vector instructions (05_lanes.md, 06_vector_arithmetic.md) -/

/-- Element `i` of width `w` of the vector registers from `base` on (05_lanes.md R126). -/
def Ctx.elem (c : Ctx) (base w i : Nat) : Nat :=
  (c.v[(base + i * w / 16384) % 32]'(Nat.mod_lt _ (by decide))).toNat / 2 ^ (i * w % 16384) % 2 ^ w

/-- Bit `i` of the mask registers from `base` on (05_lanes.md R139). -/
def Ctx.maskBit (c : Ctx) (base i : Nat) : Bool := (c.m[(base + i / 2048) % 8]'(Nat.mod_lt _ (by decide))).getLsbD (i % 2048)

/-- Element `i` of a b operand of width `w` in groups: a register's, or the low bits of the scalar for every i
(06_vector_arithmetic.md R156). -/
def VSrc.at (b : VSrc) (c : Ctx) (w i : Nat) : Nat :=
  match b with
  | .reg r => c.elem r.toNat w i
  | .scalar x => x.toNat % 2 ^ w

/-- Whether the predicate makes element `i` active (05_lanes.md R140, 02_encoding.md Table 2.3). -/
def Ctx.activeAt (c : Ctx) (p : BitVec 4) (i : Nat) : Bool := p = 0#4 || c.maskBit (p.toNat % 8) i = p.getLsbD 3

/-- Whether an instruction computes element `i`: from vstart on, below vl and active (05_lanes.md R132, R140). -/
def Ctx.computes (c : Ctx) (p : BitVec 4) (i : Nat) : Bool :=
  decide (c.vstart.toNat ≤ i) && decide (i < vlLen c.vl) && c.activeAt p i

/-- Whether element `i` lies in the tail that tz clears; a form that begins at or above vl changes no element (05_lanes.md R132, R140). -/
def Ctx.clears (c : Ctx) (i : Nat) : Bool :=
  vtTz c.vtype && decide (c.vstart.toNat < vlLen c.vl) && decide (vlLen c.vl ≤ i) && decide (i < vlMax c.vtype)

/-- What an element-wise form writes into element `i`, if anything: its result where it is computed, zero where it is inactive and mz is
set, zero in the tail where tz is set (05_lanes.md R140, 06_vector_arithmetic.md R158). -/
def Ctx.rule (c : Ctx) (p : BitVec 4) (op : Nat → Nat) (i : Nat) : Option Nat :=
  if c.computes p i then some (op i)
  else if decide (c.vstart.toNat ≤ i) && decide (i < vlLen c.vl) && vtMz c.vtype then some 0
  else if c.clears i then some 0
  else none

/-- In the `n` registers from `d` on, read as elements of width `w`, those that `rule` names hold what it gives; every other element, and
every other vector register, is as before. -/
def Elements (s t : State) (d n w : Nat) (rule : Nat → Option Nat) : Prop :=
  (∀ r : Fin 32, r.val < d ∨ d + n ≤ r.val → t.me.ctx.v[r] = s.me.ctx.v[r]) ∧
    ∀ i, i < n * 16384 / w → t.me.ctx.elem d w i = (rule i).getD (s.me.ctx.elem d w i)

/-- In the `n` mask registers from `d` on the bits that `rule` names hold what it gives; every other bit is as before. -/
def MaskBits (s t : State) (d n : Nat) (rule : Nat → Option Bool) : Prop :=
  (∀ r : Fin 8, r.val < d ∨ d + n ≤ r.val → t.me.ctx.m[r] = s.me.ctx.m[r]) ∧
    ∀ i, i < n * 2048 → t.me.ctx.maskBit d i = (rule i).getD (s.me.ctx.maskBit d i)

/-- A form of a vector instruction: its length and operands, and whether its groups, types and predicate are legal. -/
structure VForm where
  instr : Instr
  len : Nat
  d : BitVec 5
  a : BitVec 5
  b : VSrc
  p : BitVec 4
  legal : Bool

/-- A vector instruction that issues now is performed at once: the queues hold no earlier entry, and the lanes keep up (05_lanes.md R145; log
21). -/
def State.Keeps (s : State) : Prop := s.me.ctx.vq = [] ∧ s.me.ctx.mq = [] ∧ s.lag = []

/-- The instruction may issue: voff is clear, the shape is one that vset gives, and the form is legal (05_lanes.md R129, R135); it is
performed at once, and its claim finds room, which leaves `s1` (07_coroutines.md R192). -/
def VIssues (s : State) (legal : Bool) (dirty : Word) (s1 : State) : Prop :=
  s.me.ctx.status.getLsbD 8 = false ∧ shapeOk s.me.ctx.vl s.me.ctx.vtype = true ∧ legal = true ∧ s.Keeps ∧
    s.claimDirty dirty = (s1, true)

/-- Where it may not: VECTOR_OFF while voff is set, else ILLEGAL for a bad shape or an illegal form (05_lanes.md R129, R135,
02_encoding.md R39). -/
def VStops (s : State) (i : Instr) (legal : Bool) : Prop :=
  (s.me.ctx.status.getLsbD 8 = true → exec i s = .next (s.trap 0x04#8 0#64 false s.pc)) ∧
    (s.me.ctx.status.getLsbD 8 = false → shapeOk s.me.ctx.vl s.me.ctx.vtype = false ∨ legal = false →
      exec i s = .next (s.trap 0x01#8 0#64 false s.pc))

/-- The flags that the computed elements raise. -/
def Ctx.raised (c : Ctx) (p : BitVec 4) (flags : Nat → FFlags) : FFlags :=
  ((List.range (vlLen c.vl)).filter (c.computes p)).foldl (fun acc i => acc ||| flags i) 0#6

/-- Only vector registers change, and what every vector instruction changes: the program counter, vdirty, ldst, vstart, which is 0 once it
is complete; fcr gains `flags`, and prng takes one step an element where it draws (05_lanes.md R132, R134, 03_numbers.md R78, R84). -/
def OnlyVector (s s1 t : State) (len : Nat) (dirty : Word) (ldst : BitVec 6) (flags : FFlags) (draws : Bool) : Prop :=
  let c := s.me.ctx
  OnlyContext s1 t ∧
    t.me.ctx = { c with
      pc := s.pc + BitVec.ofNat 19 len, v := t.me.ctx.v, vdirty := c.vdirty ||| dirty, ldst := ldst, vstart := 0#16,
      fcr := c.fcr ||| BitVec.ofNat 64 (flags.toNat * 2 ^ 16),
      prng := if draws && decide (fcrRm c.fcr = 5) then xorshiftN (vlLen c.vl) c.prng else c.prng }

/-- The legality of an element-wise form (05_lanes.md R136, R137, R139), with its type test. -/
def plainForm (s : State) (types : Bool) (i : Instr) (len : Nat) (d a : BitVec 5) (b : VSrc) (p : BitVec 4) : VForm :=
  ⟨i, len, d, a, b, p, types && plainOk s.me.ctx.vtype d a b p⟩

/-- The forms of an element-wise operation: with a vector and with a scalar b, and, where ldst names v[d], its compact form
(02_encoding.md R48, R49). -/
def plainForms (s : State) (types : Bool) (d a b : BitVec 5) (p : BitVec 4) (vv vx : Instr) (compact : Option (Instr × BitVec 5)) :
    List VForm :=
  [plainForm s types vv 4 d a (.reg b) p, plainForm s types vx 4 d a (.scalar (s.x b)) p] ++
    (match compact with
      | some (i, a') => if s.me.ctx.ldst = 1#1 ++ d then [plainForm s types i 2 d a' (.reg b) 0#4] else []
      | none => [])

/-- An integer modulo 2^w. -/
def wrap (w : Nat) (z : Int) : Nat := (z % 2 ^ w).toNat

/-- The integer that `w` bits stand for. -/
def value (signed : Bool) (w x : Nat) : Int := if signed ∧ 2 ^ (w - 1) ≤ x then (x : Int) - 2 ^ w else x

/-- An integer brought into the range of a type. -/
def clamp (signed : Bool) (w : Nat) (z : Int) : Nat :=
  wrap w (if signed then max (-(2 ^ (w - 1))) (min z (2 ^ (w - 1) - 1)) else max 0 (min z (2 ^ w - 1)))

/-- The integer operations (06_vector_arithmetic.md Table 6.5): their forms, the compact one with its a operand, and what they give for the
bits A, B and D of width `w`. -/
noncomputable def vectorIntRows (d a b : BitVec 5) (p : BitVec 4) (sg : Bool) (w : Nat) :
    List (Instr × Instr × Option (Instr × BitVec 5) × (Nat → Nat → Nat → Nat)) := [
  (.vaddVv d a b p, .vaddVx d a b p, some (.cVadd b, d), fun A B _ => wrap w (A + B)),
  (.vsubVv d a b p, .vsubVx d a b p, some (.cVsub b, d), fun A B _ => wrap w (A - B)),
  (.vmulVv d a b p, .vmulVx d a b p, some (.cVmul b, d), fun A B _ => wrap w (A * B)),
  (.vmulhVv d a b p, .vmulhVx d a b p, none, fun A B _ => wrap w (value sg w A * value sg w B / 2 ^ w)),
  (.vmaccVv d a b p, .vmaccVx d a b p, some (.cVmacc a b, a), fun A B D => wrap w (D + A * B)),
  (.vnmsacVv d a b p, .vnmsacVx d a b p, none, fun A B D => wrap w (D - A * B)),
  (.vminVv d a b p, .vminVx d a b p, some (.cVmin b, d), fun A B _ => if value sg w A < value sg w B then A else B),
  (.vmaxVv d a b p, .vmaxVx d a b p, some (.cVmax b, d), fun A B _ => if value sg w A < value sg w B then B else A),
  (.vsllVv d a b p, .vsllVx d a b p, none, fun A B _ => wrap w (A * 2 ^ (B % w))),
  (.vsrlVv d a b p, .vsrlVx d a b p, none, fun A B _ => A / 2 ^ (B % w)),
  (.vsraVv d a b p, .vsraVx d a b p, none, fun A B _ => wrap w (value true w A / 2 ^ (B % w))),
  (.vaddsVv d a b p, .vaddsVx d a b p, none, fun A B _ => clamp sg w (value sg w A + value sg w B)),
  (.vsubsVv d a b p, .vsubsVx d a b p, none, fun A B _ => clamp sg w (value sg w A - value sg w B))]

/-- The bitwise operations, which every element type has (06_vector_arithmetic.md R162). -/
noncomputable def vectorBitRows (d a b : BitVec 5) (p : BitVec 4) : List (Instr × Instr × Option (Instr × BitVec 5) × (Nat → Nat → Nat → Nat)) := [
  (.vandVv d a b p, .vandVx d a b p, some (.cVand b, d), fun A B _ => A &&& B),
  (.vorVv d a b p, .vorVx d a b p, some (.cVor b, d), fun A B _ => A ||| B),
  (.vxorVv d a b p, .vxorVx d a b p, some (.cVxor b, d), fun A B _ => A ^^^ B)]

/-- vdiv and vrem (06_vector_arithmetic.md R163). -/
noncomputable def vectorDivRows (d a b : BitVec 5) (p : BitVec 4) (sg : Bool) (w : Nat) : List (Instr × Instr × (Nat → Nat → Nat)) := [
  (.vdivVv d a b p, .vdivVx d a b p, fun A B => if B = 0 then 2 ^ w - 1 else wrap w ((value sg w A).tdiv (value sg w B))),
  (.vremVv d a b p, .vremVx d a b p, fun A B => if B = 0 then A else wrap w ((value sg w A).tmod (value sg w B)))]

/-- The float operations (06_vector_arithmetic.md R166): their exact results of the numbers A, B and D. -/
noncomputable def vectorFloatRows (d a b : BitVec 5) (p : BitVec 4) (rm : Nat) :
    List (Instr × Instr × Option (Instr × BitVec 5) × (Num → Num → Num → Exact)) := [
  (.vfaddVv d a b p, .vfaddVx d a b p, some (.cVfadd b, d), fun A B _ => addNum rm A B),
  (.vfsubVv d a b p, .vfsubVx d a b p, some (.cVfsub b, d), fun A B _ => addNum rm A B.negate),
  (.vfmulVv d a b p, .vfmulVx d a b p, some (.cVfmul b, d), fun A B _ => (mulNum A B).1.exact (mulNum A B).2),
  (.vfdivVv d a b p, .vfdivVx d a b p, none, fun A B _ => divNum A B),
  (.vfmaVv d a b p, .vfmaVx d a b p, some (.cVfma a b, a), fun A B D => fmaNum rm A B D),
  (.vfnmaVv d a b p, .vfnmaVx d a b p, none, fun A B D => fmaNum rm A.negate B D)]

/-- The bits that fmin and fmax give, with the flag (04_scalar.md R117, 06_vector_arithmetic.md R166). -/
def minMaxBits (f : FloatFmt) (daz max : Bool) (A B : Nat) : Nat × FFlags :=
  let p := f.read daz A
  let q := f.read daz B
  let a := f.dazBits daz A
  let b := f.dazBits daz B
  (if p.isNan ∧ q.isNan then f.nan
    else if p.isNan then b
    else if q.isNan then a
    else if max then (if ltNum q p ∨ (eqNum p q ∧ ¬p.isNeg) then a else b)
    else if ltNum p q ∨ (eqNum p q ∧ p.isNeg) then a
    else b,
   if p = .nan true ∨ q = .nan true then 16#6 else 0#6)

/-- The rounding of element `i` under the captured fcr and prng: draw i + 1 of prng in stochastic mode (03_numbers.md R77, R78). -/
def Ctx.roundingAt (c : Ctx) (ftz : Bool) (i : Nat) : Rounding := ⟨fcrRm c.fcr, c.fcr.getLsbD 4, ftz, drawBits (xorshiftN (i + 1) c.prng)⟩

/-- A widening result (06_vector_arithmetic.md R164): the exact result of narrow A and B, and of the wide D, in the wide type. `op` 0 adds,
1 multiplies, 2 multiplies and adds. -/
def widened (t : Elem) (op : Nat) (c : Ctx) (i A B D : Nat) : Nat × FFlags :=
  match t with
  | .int sg w =>
    let x := value sg w A
    let y := value sg w B
    (wrap (2 * w) (if op = 0 then x + y else if op = 1 then x * y else D + x * y), 0#6)
  | .float f =>
    let g : FloatFmt := if f = .f32 then .f64 else .f32
    let x := f.read (fcrDaz c.fcr f) A
    let y := f.read (fcrDaz c.fcr f) B
    g.finish (c.roundingAt (fcrFtz c.fcr g) i)
      (if op = 0 then addNum (fcrRm c.fcr) x y
      else if op = 1 then (mulNum x y).1.exact (mulNum x y).2
      else fmaNum (fcrRm c.fcr) x y (g.read (fcrDaz c.fcr g) D))
  | .lns6 => (0, 0#6)
  | .e8m0 => (0, 0#6)

/-- A divided by 2^s, to the nearest integer with ties to even, in the range of the narrow type (06_vector_arithmetic.md R165). -/
def narrowed (sg : Bool) (w A s : Nat) : Nat :=
  let x := value sg (2 * w) A
  let q := x / 2 ^ s
  let r := x % 2 ^ s
  clamp sg w (if 2 ^ s < 2 * r ∨ (2 * r = 2 ^ s ∧ q % 2 = 1) then q + 1 else q)

/-- The forms of a widening or narrowing operation with a vector and a scalar b: types, and groups of `nd` and `na` registers that share
none (05_lanes.md R136, R137). -/
def apartForms (s : State) (types : Bool) (d a b : BitVec 5) (p : BitVec 4) (nd na : Nat) (vv vx : Instr) : List VForm :=
  let legal (x : VSrc) : Bool := types && decide (2 * vtN s.me.ctx.vtype ≤ 8) && apartOk s.me.ctx.vtype d a nd na x p
  [⟨vv, 4, d, a, .reg b, p, legal (.reg b)⟩, ⟨vx, 4, d, a, .scalar (s.x b), p, legal (.scalar (s.x b))⟩]

/-- The special functions, numbered as Table 6.6 numbers them: rcp, rsqrt, exp2, log2, tanh (06_vector_arithmetic.md R167). -/
noncomputable def specialRows (d a : BitVec 5) (p : BitVec 4) : List (Instr × Nat) :=
  [(.vfrcp d a p, 0), (.vfrsqrt d a p, 1), (.vfexp2 d a p, 2), (.vflog2 d a p, 3), (.vftanh d a p, 4)]

/-- The results that the spec lists for special inputs, with their flags: a NaN, an infinity, a zero and, for rsqrt and log2, a negative
number (06_vector_arithmetic.md Table 6.7). -/
def specialCase (f : FloatFmt) (fn : Nat) (x : Num) : Option (Nat × FFlags) :=
  match x with
  | .nan signalling => some (f.nan, if signalling then 16#6 else 0#6)
  | .inf n => some ([(f.sign n, 0#6), if n then (f.nan, 16#6) else (0, 0#6), if n then (0, 0#6) else (f.inf false, 0#6),
      if n then (f.nan, 16#6) else (f.inf false, 0#6), (f.sign n + f.one, 0#6)].getD fn (0, 0#6))
  | .fin n 0 _ => some ([(f.inf n, 8#6), (f.inf n, 8#6), (f.one, 0#6), (f.inf true, 8#6), (f.sign n, 0#6)].getD fn (0, 0#6))
  | .fin true _ _ => if fn = 1 ∨ fn = 3 then some (f.nan, 16#6) else none
  | .fin false _ _ => none

/-- Whether vcvt converts from one element type to another: not from an integer to lns6 or e8m0, nor from lns6 to lns6, nor from e8m0 to
anything but a float (06_vector_arithmetic.md Table 6.11). -/
def converts (src dst : Elem) : Bool :=
  match src, dst with
  | .int _ _, .lns6 => false
  | .int _ _, .e8m0 => false
  | .lns6, .lns6 => false
  | .e8m0, .int _ _ => false
  | .e8m0, .lns6 => false
  | .e8m0, .e8m0 => false
  | _, _ => true

/-- What vcvt gives for an element (06_vector_arithmetic.md R174): integers clamp, any other pair rounds the value. -/
def converted (src dst : Elem) (c : Ctx) (i A : Nat) : Nat × FFlags :=
  let round := dst.convert (c.roundingAt (match dst with
    | .float f => fcrFtz c.fcr f
    | _ => false) i) (src.read c.fcr A)
  match src, dst with
  | .int sg w, .int sd v => (clamp sd v (value sg w A), 0#6)
  | _, _ => round

/-- The magnitude exponent of the largest finite number among `xs`: floor(log2), where one is not zero (06_vector_arithmetic.md R176). -/
def largestLog (xs : List Num) : Option Int := blockLog xs

/-- The scale byte of a block of 32 numbers for a destination whose largest exponent is `emax` (06_vector_arithmetic.md R176): FF with a NaN
or an infinity among them, 127 where all are zero. -/
def scaleByte (emax : Int) (xs : List Num) : Nat :=
  if xs.any fun x => x.isNan || decide (x = .inf true) || decide (x = .inf false) then 255
  else match largestLog xs with
    | none => 127
    | some l => (max (-127) (min (l - emax) 127) + 127).toNat

/-- Only mask registers change, and what every vector instruction changes; ldst stays (05_lanes.md R132, R134, 02_encoding.md R49). -/
def OnlyMask (s s1 t : State) (dirty : Word) (flags : FFlags) : Prop :=
  OnlyVector (s.updCtx fun c => { c with m := t.me.ctx.m }) s1 t 4 dirty s.me.ctx.ldst flags false ∧ t.me.ctx.v = s.me.ctx.v

/-- The integer conditions of vcmp (06_vector_arithmetic.md Table 6.8). -/
def intCondition (c : Nat) (x y : Int) : Bool :=
  [decide (x = y), decide (x ≠ y), decide (x < y), decide (x ≤ y), decide (y < x), decide (y ≤ x)].getD c false

/-- The float conditions of vfcmp, with the flag: lt, le, gt and ge signal any NaN, the others a signalling one
(06_vector_arithmetic.md R170). -/
def floatCondition (c : Nat) (p q : Num) : Bool × FFlags :=
  let nan : Bool := p.isNan || q.isNan
  let order : Bool := decide (2 ≤ c) && decide (c ≤ 5)
  ([eqNum p q, nan || !eqNum p q, !nan && ltNum p q, !nan && (ltNum p q || eqNum p q), !nan && ltNum q p,
      !nan && (ltNum q p || eqNum p q), nan, !nan].getD c false,
    if (order ∧ nan) ∨ p = .nan true ∨ q = .nan true then 16#6 else 0#6)

/-- Two present values combined, for the operations 0 sum, 1 min and 2 max of a float format (06_vector_arithmetic.md R178): stochastic
rounding counts as nearest even, and daz does not apply. -/
def floatFold (f : FloatFmt) (op : Nat) (fcr : Word) (A B : Nat) : Nat × FFlags :=
  let rm := if fcrRm fcr = 5 then 0 else fcrRm fcr
  if op = 0 then f.finish ⟨rm, fcr.getLsbD 4, fcrFtz fcr f, 0⟩ (addNum rm (f.read false A) (f.read false B))
  else minMaxBits f false (decide (op = 2)) A B

/-- Two places combined: where one is absent the other passes (03_numbers.md R91). -/
def combined (f : Nat → Nat → Nat × FFlags) (a b : Option Nat × FFlags) : Option Nat × FFlags :=
  match a, b with
  | (some x, p), (some y, q) => (some (f x y).1, p ||| q ||| (f x y).2)
  | (some x, p), (none, q) => (some x, p ||| q)
  | (none, p), (y, q) => (y, p ||| q)

/-- The pairwise tree of height `k` over the places from `i` × 2^k on (03_numbers.md R91). -/
def pairTree (f : Nat → Nat → Nat × FFlags) (leaf : Nat → Option Nat) : Nat → Nat → Option Nat × FFlags
  | 0, i => (leaf i, 0#6)
  | k + 1, i => combined f (pairTree f leaf k (2 * i)) (pairTree f leaf k (2 * i + 1))

/-- y at place `j` of a row after the first `k` steps, of distances 1, 2, 4, … (03_numbers.md R92). -/
def rowPrefix (f : Nat → Nat → Nat × FFlags) (leaf : Nat → Option Nat) : Nat → Nat → Option Nat × FFlags
  | 0, j => (leaf j, 0#6)
  | k + 1, j => if j < 2 ^ k then rowPrefix f leaf k j else combined f (rowPrefix f leaf k (j - 2 ^ k)) (rowPrefix f leaf k j)

/-- The output at place `j` of a row of 2^k places from a carry (03_numbers.md R92). -/
def rowOutput (f : Nat → Nat → Nat × FFlags) (leaf : Nat → Option Nat) (k : Nat) (carry : Option Nat) (j : Nat) : Option Nat × FFlags :=
  combined f (carry, 0#6) (rowPrefix f leaf k j)

/-- The carry into row `g`: the output of the last present element of the rows before (03_numbers.md R92). -/
def carryInto (f : Nat → Nat → Nat × FFlags) (leaf : Nat → Option Nat) (k : Nat) : Nat → Option Nat
  | 0 => none
  | g + 1 =>
    let c := carryInto f leaf k g
    ((List.range (2 ^ k)).filter fun j => (leaf (g * 2 ^ k + j)).isSome).foldl
      (fun _ j => (rowOutput f (fun i => leaf (g * 2 ^ k + i)) k c j).1) c

/-- Two integers combined, for the operations sum, min, max, and, or, xor, numbered from 0 (06_vector_arithmetic.md R178). -/
def intFold (sg : Bool) (w op A B : Nat) : Nat :=
  [wrap w (A + B), if value sg w A < value sg w B then A else B, if value sg w A < value sg w B then B else A, A &&& B, A ||| B,
    A ^^^ B].getD op 0

/-- The result with no element present (06_vector_arithmetic.md R179): 0, the largest and the smallest value of the type, all ones, 0, 0. -/
def intIdentity (sg : Bool) (w op : Nat) : Nat :=
  [0, if sg then 2 ^ (w - 1) - 1 else 2 ^ w - 1, if sg then 2 ^ (w - 1) else 0, 2 ^ w - 1, 0, 0].getD op 0

/-- The same for a float format: +0, +infinity, −infinity (06_vector_arithmetic.md R179). -/
def floatIdentity (f : FloatFmt) (op : Nat) : Nat := [0, f.inf false, f.inf true].getD op 0

/-- An element in a scalar register: sign-extended where its type is a signed integer, else zero-extended (06_vector_arithmetic.md R179,
R184). -/
def asScalar (t : Elem) (v : Nat) : Word :=
  match t with
  | .int true w => BitVec.ofInt 64 (value true w v)
  | _ => BitVec.ofNat 64 v

/-! ## Vector memory (10_scratchpad_copy.md R300 to R308, 09_visibility.md R274 to R278) -/

/-- Whether the core's scalar L1 keeps `n` bytes, of one 8-byte unit, once its line has been written back: those of a clean line that are
valid, and of a dirty one the units that are valid whole (09_visibility.md R274, R282, R283). -/
def State.keptBytes (s : State) (pa n : Nat) : Bool :=
  match s.me.line? (pa / 64) with
  | none => false
  | some l => if l.dirty = 0#64 then s.validAt pa n else s.validAt (pa / 8 * 8) 8

/-- What a vector load reads of `n` bytes: on a WB page what the scalar L1 keeps of them, else what their home holds (09_visibility.md R263,
R274). -/
def State.laneNum (s : State) (pa n : Nat) (policy : BitVec 2) : Nat :=
  if policy = 0#2 ∧ s.keptBytes pa n = true then s.seenNum pa n else s.homeNum pa n

/-- Half of a byte at its home: address 2 × pa or 2 × pa + 1. -/
def State.homeHalf (s : State) (x : Nat) : Nat := (s.homeByte (x / 2)).toNat / 16 ^ (x % 2) % 16

/-- A form of a vector memory instruction: its fields, the address of field `f` of element `i`, and whether it is legal. -/
structure MForm where
  instr : Instr
  fields : Nat
  addr : Nat → Nat → Word
  legal : Bool

/-- The loads (10_scratchpad_copy.md Table 10.3, R305, R306, R308). -/
noncomputable def vectorLoads (d a b : BitVec 5) (g : BitVec 6) (p : BitVec 4) (s : State) : List MForm :=
  let c := s.me.ctx
  let w := vtW c.vtype
  let n := vtN c.vtype
  let base := s.x a
  let f := g.toNat - 8
  let index (i : Nat) : Nat := c.elem b.toNat w i
  let one : Bool := groupOk d n && predOk c.vtype p
  let whole : Bool := decide (vtEt c.vtype ≠ 16)
  [⟨.vld d a p, 1, fun i _ => base + BitVec.ofNat 64 (i * w / 8), one⟩,
   ⟨.vlds d a b p, 1, fun i _ => base + BitVec.ofNat 64 i * s.x b, whole && one⟩,
   ⟨.vldx d a b p, 1, fun i _ => base + BitVec.ofNat 64 (index i * (w / 8)), whole && one && groupOk b n && disjoint d n b n⟩,
   ⟨.vldChase d a b p, 1, fun i _ => base + BitVec.ofNat 64 (i * w / 8), whole && one⟩,
   ⟨.vldseg d a b g p, f, fun i k => base + BitVec.ofNat 64 ((index i * f + k) * (w / 8)),
      decide (2 ≤ f) && decide (f ≤ 8) && whole && decide (f * n ≤ 8) && decide (d.toNat % n = 0) && decide (d.toNat + f * n ≤ 32) &&
        groupOk b n && disjoint d (f * n) b n && predOk c.vtype p⟩]

/-- The stores, with whether their elements are ordered (10_scratchpad_copy.md Table 10.3, R306, R308, 09_visibility.md R277, R278). -/
noncomputable def vectorStores (d a b : BitVec 5) (p : BitVec 4) (s : State) : List (MForm × Bool) :=
  let c := s.me.ctx
  let w := vtW c.vtype
  let n := vtN c.vtype
  let base := s.x a
  let one : Bool := groupOk d n && predOk c.vtype p
  let whole : Bool := decide (vtEt c.vtype ≠ 16)
  let unit (i : Nat) (_ : Nat) : Word := base + BitVec.ofNat 64 (i * w / 8)
  let indexed (i : Nat) (_ : Nat) : Word := base + BitVec.ofNat 64 (c.elem b.toNat w i * (w / 8))
  [(⟨.vst d a p, 1, unit, one⟩, true), (⟨.vstU d a p, 1, unit, one⟩, false),
   (⟨.vsts d a b p, 1, fun i _ => base + BitVec.ofNat 64 i * s.x b, whole && one⟩, true),
   (⟨.vstx d a b p, 1, indexed, whole && one && groupOk b n⟩, true),
   (⟨.vstxU d a b p, 1, indexed, whole && one && groupOk b n⟩, false)]

/-- The movement's TLB holds a translation of an address for an access, and every one that it or the core's slice of the address holds leads
to `pa` (13_address_space.md R380). -/
def HeldIn (s : State) (store : Bool) (va : Word) (pa : Nat) (policy : BitVec 2) : Prop :=
  canonical va = true ∧ bits s.who.space 63 60 ≠ 0 ∧ (∃ e ∈ s.mov.tlb, e.serves s.who store va = true) ∧
    ∀ e ∈ s.me.slices[clusterOf va] ++ s.mov.tlb, e.serves s.who store va = true → s.permit s.who store e va = .ok pa policy

/-- Every field of every element that an access computes below the limit is aligned, under no watch range, and has a translation that the
movement's TLB holds, to the address that `pa` gives and a page of the policy that `policy` gives. -/
def ElementsReach (s : State) (store : Bool) (p : BitVec 4) (limit : Nat) (m : MForm) (pa : Nat → Nat → Nat) (policy : Nat → Nat → BitVec 2) :
    Prop :=
  let n := max 1 (vtW s.me.ctx.vtype / 8)
  ∀ i f, s.me.ctx.computes p i = true → i < limit → f < m.fields →
    (m.addr i f).toNat % n = 0 ∧ s.watched s.who store (m.addr i f) n = false ∧ pa i f % n = 0 ∧
      HeldIn s store (m.addr i f) (pa i f) (policy i f)

/-- Whether element `i` of width `w` at address `pa` takes half-byte `x`, and its half there. -/
def takesHalf (w i pa x : Nat) : Bool :=
  let lo := 2 * pa + (if w = 4 then i % 2 else 0)
  decide (lo ≤ x) && decide (x < lo + w / 4)

/-- The half-byte of an element's value at half-byte address `x`. -/
def halfAt (w i pa v x : Nat) : Nat := v / 16 ^ (x - (2 * pa + (if w = 4 then i % 2 else 0))) % 16

/-! ## Atomics and fences (09_visibility.md R270, R271, R286, R289 to R293) -/

/-- The atomics: whether host memory admits them, and the new value from the old one, x[b] and x[d], if one is stored
(09_visibility.md Table 9.10, R290). -/
noncomputable def amoRows (d a b : BitVec 5) (q l : BitVec 1) (sc : BitVec 3) (B E : Word) : List (Instr × Bool × (Word → Option Word)) := [
  (.amoAdd d a b q l sc, true, fun old => some (BitVec.ofNat 64 (old.toNat + B.toNat))),
  (.amoAnd d a b q l sc, false, fun old => some (old &&& B)),
  (.amoOr d a b q l sc, false, fun old => some (old ||| B)),
  (.amoXor d a b q l sc, false, fun old => some (old ^^^ B)),
  (.amoMin d a b q l sc, false, fun old => some (if B.toInt < old.toInt then B else old)),
  (.amoMax d a b q l sc, false, fun old => some (if old.toInt < B.toInt then B else old)),
  (.amoMinn d a b q l sc, false, fun old => some (if B.toNat < old.toNat then B else old)),
  (.amoMaxn d a b q l sc, false, fun old => some (if old.toNat < B.toNat then B else old)),
  (.amoSwap d a b q l sc, true, fun _ => some B),
  (.amoCas d a b q l sc, true, fun old => if old = E then some B else none)]

/-- What a release at a scope leaves: at movement scope or wider, no queued write and no dirty byte in the scalar L1 (09_visibility.md R270,
R275). -/
def Released (sc : BitVec 3) (t : State) : Prop := sc ≠ 0#3 → t.me.wq = [] ∧ ∀ l ∈ t.me.l1, l.dirty = 0#64

/-- What an acquire at a scope leaves in the scalar L1: at movement scope or wider, no clean byte (09_visibility.md R271). -/
def Acquired (sc : BitVec 3) (t : State) : Prop := sc ≠ 0#3 → ∀ l ∈ t.me.l1, l.valid &&& ~~~l.dirty = 0#64

/-- The doubleword at its home is `v`, and every other byte there is as before. -/
def HomeStored (s t : State) (pa : Nat) (v : Word) : Prop :=
  ∀ q, t.homeByte q = if pa ≤ q ∧ q < pa + 8 then BitVec.ofNat 8 (v.toNat / 256 ^ (q - pa)) else s.homeByte q

/-- The bytes at their home are as before. -/
def HomeKept (s t : State) : Prop := ∀ q, t.homeByte q = s.homeByte q

/-! ## Tokens (08_tokens.md) -/

/-- An operation of the running coroutine on a handle reaches its home on this device at once: the outgoing queue is empty and no vector or
msave access is queued, its crew has not faulted and no log takes it (08_tokens.md R238, R240, R246, R248). -/
def ArrivesAtOnce (s : State) (h : Word) : Prop :=
  hDev h = s.devNo ∧ s.me.outq = [] ∧ (∀ e ∈ s.me.ctx.vq, e.op.isMemory = false) ∧ (∀ e ∈ s.me.ctx.mq, e.op.isSave = false) ∧
    s.crewFaulted s.crew = false ∧ (s.crew = 0#7 ∨ (s.boundTo (hCore h) s.crew = true ∧ (s.coreAt (hCore h)).replay = false))

/-- The same on a cell of the scratchpad, which the handle is not stale for (08_tokens.md R230). -/
def AppliesAtOnce (s : State) (h : Word) : Prop :=
  ArrivesAtOnce s h ∧ 16 ≤ (hIndex h).toNat ∧ s.stale (if s.sup then 0#7 else s.crew) h = false

/-- A barrier after `n` arrivals, and sectors brought to `p`, with releases of scope up to `sc` (08_tokens.md R235): a phase that has no
arrival and no sector left completes, and its counts start again. -/
def BarrierAfter (c t : TokenCell) (n : Nat) (p : Int) (range : Bool) (sc : Nat) : Prop :=
  let left := c.pa - n
  let done : Prop := left = 0 ∧ p ≤ 0
  t.gen = c.gen ∧ t.kind = c.kind ∧ t.reload = c.reload ∧
    (done → t.pa = c.reload ∧ t.ps = 0 ∧ t.phase = c.phase + 1#4 ∧ t.rscope = 0#3 ∧ t.cscope.toNat = max c.rscope.toNat sc) ∧
    (¬done → t.pa = left ∧ t.ps = p ∧ t.phase = c.phase ∧ t.rscope.toNat = max c.rscope.toNat sc ∧ t.cscope = c.cscope) ∧
    (c.err ≠ 0#8 → t.err = c.err) ∧
    (c.err = 0#8 → (c.pa < n → t.err = 1#8) ∧ (n ≤ c.pa → range = true → t.err = 3#8) ∧
      (n ≤ c.pa → range = false → (done ∧ p < 0 → t.err = 2#8) ∧ (¬(done ∧ p < 0) → t.err = 0#8)))

/-- A count cell after `n` more (08_tokens.md R256): the count stops at 2^32 − 1 with error RANGE. -/
def CountAfter (c t : TokenCell) (n sc : Nat) : Prop :=
  t.gen = c.gen ∧ t.kind = c.kind ∧ t.threshold = c.threshold ∧ t.count = min (c.count + n) 4294967295 ∧
    t.rscope.toNat = max c.rscope.toNat sc ∧
    t.err = if c.err = 0#8 ∧ 4294967295 < c.count + n then 3#8 else c.err

/-- A future after a value is set (08_tokens.md R258): a full one keeps its value, with error FULL. -/
def FutureAfter (c t : TokenCell) (v : Word) (sc : Nat) : Prop :=
  t.gen = c.gen ∧ t.kind = c.kind ∧ t.phase.getLsbD 0 = true ∧
    (c.phase.getLsbD 0 = false → t.lower = v ∧ t.rscope.toNat = sc ∧ t.err = c.err) ∧
    (c.phase.getLsbD 0 = true → t.lower = c.lower ∧ t.err = if c.err = 0#8 then 4#8 else c.err)

/-- Memory keeps every byte but those of one token cell, as their homes have them. -/
def OnlyCell (s t : State) (h : Word) : Prop :=
  ∀ q, q < cellAddr (hCore h) (hIndex h) ∨ cellAddr (hCore h) (hIndex h) + 16 ≤ q → t.homeByte q = s.homeByte q

/-- What an init word may not hold (08_tokens.md R255): a barrier of no arrivals or with bits above the count, a future that is not zero, a
mailbox whose ring is not 2 to 4,096 slots on its own alignment inside the scratchpad's user part. -/
def InitBad (kind : BitVec 2) (w : Word) : Prop :=
  let size := 16 * 2 ^ (w.toNat / 2 ^ 48 % 16)
  let base := w.toNat / 2 ^ 52 % 256 * 4096
  (kind = 0#2 ∧ (2 ^ 20 ≤ w.toNat ∨ w = 0#64)) ∨ (kind = 2#2 ∧ w ≠ 0#64) ∨
    (kind = 3#2 ∧ (w.toNat / 2 ^ 60 ≠ 0 ∨ w.toNat % 2 ^ 48 / 2 ≠ 0 ∨ base < 0x10000 ∨ size < 32 ∨ 65536 < size ∨ base % max size 4096 ≠ 0 ∨
      2 ^ 20 < base + size))

/-! ## Coroutines (07_coroutines.md) -/

/-- What a voluntary switch with a live mask keeps of a context: x1 to x7, the x, v and m registers that the mask names, and every other
register but the shadows; what it does not keep is zero (07_coroutines.md R197, Table 7.5). -/
def KeptByMask (live : Word) (c u : Ctx) : Prop :=
  (∀ i : Fin 32, u.x[i] = if i.val < 8 ∨ live.getLsbD (32 + i.val) = true then c.x[i] else 0#64) ∧
    (∀ i : Fin 32, u.v[i] = if live.getLsbD i.val then c.v[i] else 0#16384) ∧
    (∀ i : Fin 8, u.m[i] = if live.getLsbD (32 + i.val) then c.m[i] else 0#2048) ∧ (∀ i : Fin 4, u.sh[i] = 0#1024) ∧
    u.vl = c.vl ∧ u.vtype = c.vtype ∧ u.fcr = c.fcr ∧ u.prng = c.prng ∧ u.status = c.status ∧ u.quantum = c.quantum ∧ u.record = c.record

/-- The running coroutine, in slot `n`, leaves its core by a voluntary switch, to go on at the next instruction; its slot is `w`. -/
def LeavesBy (s t : State) (n : BitVec 8) (live : Word) (w : Slot) : Prop :=
  t.me.run = none ∧ t.me.slot? n = some w ∧ w.kind = .voluntary ∧ w.ctx.pc = s.pc + 4#19 ∧ w.ctx.epc = s.pc + 4#19 ∧
    KeptByMask (live ||| s.me.completionMasks n) s.me.ctx w.ctx ∧ t.me.records = s.me.records ∧ t.crews = s.crews

/-- The coroutine of slot `n` waits on a cell for a phase and a pending form (07_coroutines.md R186, R222, R491). -/
def WaitsFor (s t : State) (n : BitVec 8) (live h phase : Word) (pending : Pending) : Prop :=
  ∃ w, LeavesBy s t n live w ∧ w.waitFor = .token ∧ w.handle = h ∧ w.phase = phase ∧ w.pending = pending ∧ OnlyCell s t h ∧
    (w.state = .waiting ∨ w.state = .ready)

/-- The word a mailbox's head slot holds for its reader (08_tokens.md R250). -/
def State.headWord (s : State) (h : Word) : Nat :=
  let c := s.cellOf (hCore h) (hIndex h)
  slotAddr (hCore h) c c.head.toNat + 8

/-- A new coroutine in slot `n` of core `c`, as its creator gives it: it begins at its entry with its argument in x8, its maker in x9 and
x3 handed on, with its class and quantum, the scope that it acquires at, prng its id plus 1 and every other register 0 (07_coroutines.md
R218). -/
def CreatedAs (t : State) (c : BitVec 10) (n : BitVec 8) (b : Start) (state : SlotState) : Prop :=
  ∃ w, (t.coreAt c).slot? n = some w ∧ w.state = state ∧ w.cls = b.cls ∧ w.kind = .fresh ∧ w.acq = b.acq ∧
    w.ctx.pc = BitVec.ofNat 19 (b.entry.toNat % 2 ^ 19 / 2 * 2) ∧ w.ctx.prng = BitVec.ofNat 64 ((c ++ n).toNat + 1) ∧
    w.ctx.quantum.toNat = b.cls.toNat * 2 ^ 62 + b.reload % 2 ^ 24 * 2 ^ 34 + b.reload % 2 ^ 24 * 1024 ∧
    (∀ r, w.ctx.getX r = if r = 8#5 then b.arg else if r = 9#5 then b.parent else if r = 3#5 then b.gp else 0#64) ∧
    w.ctx.v = Vector.replicate 32 0#16384 ∧ w.ctx.m = Vector.replicate 8 0#2048 ∧ w.ctx.fcr = 0#64 ∧ w.ctx.status = 0#64 ∧ w.ctx.vq = []

/-- What the running coroutine, in slot `n`, gives a coroutine that it creates with an entry, an argument, its x9, a class and the scope of the
release before it (07_coroutines.md R218). -/
def givenBy (s : State) (entry arg parent : Word) (cls : BitVec 2) (acq : BitVec 3) : Start :=
  ⟨entry, arg, parent, s.x 3#5, cls, bits s.me.ctx.quantum 57 34, acq⟩

/-- The slot in which core `c` takes a worker of a crew's farm: its lowest empty one, where the core is the crew's and its context cache or its
reserve has room (07_coroutines.md R194, R224). -/
def State.workerSlot (s : State) (crew : BitVec 7) (c : BitVec 10) : Option (BitVec 8) :=
  if crew = 0#7 ∨ (s.coreAt c).bound = crew then
    ((s.coreAt c).lowestSlot (crew == 0#7)).filter fun m => ((s.coreAt c).takeContext m).isSome
  else none

/-- A farm over its set of cores, core by core: a core of the set that takes a worker has it as `b` gives it, ready, or held where its crew has
faulted, beside the coroutines that it had; every other core has the slots that it had (07_coroutines.md R224, 08_tokens.md R248). -/
def Farmed (s t : State) (crew : BitVec 7) (cores : List (BitVec 10)) (b : Start) : Prop :=
  ∀ c, (∀ m, c ∈ cores → s.workerSlot crew c = some m →
      CreatedAs t c m b (if crew ≠ 0#7 ∧ s.crewFaulted crew = true then .held else .ready) ∧
        ∀ i, i ≠ m → ((t.coreAt c).slot? i).map (fun u => (u.num, u.state, u.ctx)) = ((s.coreAt c).slot? i).map fun u => (u.num, u.state, u.ctx)) ∧
    (c ∉ cores ∨ s.workerSlot crew c = none → (t.coreAt c).slots = (s.coreAt c).slots)

/-- How many cores of a set take a worker (07_coroutines.md R224). -/
def State.workers (s : State) (crew : BitVec 7) (cores : List (BitVec 10)) : Nat := (cores.filter fun c => (s.workerSlot crew c).isSome).length

/-- The cores of a farm's set: `count` of them from `first` on, or every core of the device where count is 0 (07_coroutines.md Table 7.12). -/
def InSet (first cores : Word) (c : BitVec 10) : Prop :=
  bits cores 10 0 = 0 ∨ (bits first 9 0 ≤ c.toNat ∧ c.toNat < bits first 9 0 + bits cores 10 0)

/-! ## Contexts (07_coroutines.md R225 to R228) -/

/-- Every other slot of the running core keeps its coroutine and registers. -/
def OtherSlotsKept (s t : State) (n : BitVec 8) : Prop :=
  ∀ m, m ≠ n → (t.me.slot? m).map (fun u => (u.num, u.cls, u.kind, u.saved, u.records, u.ctx)) =
    (s.me.slot? m).map (fun u => (u.num, u.cls, u.kind, u.saved, u.records, u.ctx))

/-- A slot as a context image states it, with context `c`: its class, wait and pending form, on nothing where the handle is 0, held where the
record flags say so or its crew has faulted (07_coroutines.md Tables 7.5, 7.6, R491, 08_tokens.md R248, 20_programs_system.md R482). -/
def RestoredSlot (l : List Word) (w : Slot) (c : Ctx) (faulted : Bool) : Prop :=
  w.ctx = c ∧ w.cls = (frameDw l 0).extractLsb' 54 2 ∧ w.handle = frameDw l 0x10 ∧ w.phase = frameDw l 0x18 ∧ w.saved = frameDw l 8 ∧
    (frameDw l 0x10 = 0#64 → w.waitFor = .nothing) ∧
    (w.state = .held ↔ (frameDw l 0x20).getLsbD 0 = true ∨ faulted = true) ∧ (w.state ≠ .running) ∧
    w.pending = (match bits (frameDw l 0x20) 3 2 with
      | 1 => Pending.futGet ((frameDw l 0x20).extractLsb' 4 5)
      | 2 => .recv ((frameDw l 0x20).extractLsb' 4 5)
      | _ => .none)

/-- The fields of a frame by their offsets (07_coroutines.md Table 7.5). -/
def frameFields (u : Slot) (crew : BitVec 7) : List (Nat × Word) :=
  [(0x08, u.saved), (0x40, u.ctx.vl), (0x48, u.ctx.vtype), (0x50, u.ctx.vstart.zeroExtend 64), (0x60, u.ctx.ldst.zeroExtend 64),
   (0x68, u.ctx.fcr), (0x70, u.ctx.prng), (0x78, u.ctx.status), (0x80, u.ctx.vdirty), (0x90, u.ctx.quantum), (0x98, u.ctx.cause),
   (0xA0, u.ctx.eaddr), (0xA8, u.ctx.pc.zeroExtend 64), (0xB0, crew.zeroExtend 64)]

/-! ## Copy commands (10_scratchpad_copy.md R311 to R325, 11_multigrid.md R339, 15_complications.md R423) -/

/-- A copy command of the coroutine in slot `n` accepted: it joins the queue in the lowest free entry with the next sequence number, and
x[d] holds its id (10_scratchpad_copy.md R311, R312). -/
def Accepted (s t : State) (n : BitVec 8) (d : BitVec 5) (kind : CopyKind) (control : Word) (desc : List Word) (index : List Nat) : Prop :=
  ∃ c, t.me.copies = s.me.copies ++ [c] ∧ (∀ q ∈ s.me.copies, q.entry ≠ c.entry) ∧
    (∀ e, e < c.entry → ∃ q ∈ s.me.copies, q.entry = e) ∧ c.seq = s.me.copySeq ∧
    t.me.copySeq = (if s.me.copySeq = 0x1FFFFFFE#29 then 0#29 else s.me.copySeq + 1#29) ∧ c.kind = kind ∧ c.control = control ∧
    c.desc = desc ∧ c.index = index ∧ c.state = .queued ∧ c.slot = n ∧ c.issuer = .present ∧ c.crew = s.crew ∧ c.done = 0 ∧ c.sent = 0 ∧
    HoldsAt s t d (0#22 ++ s.me.id ++ c.entry ++ c.seq) ∧ t.pc = s.pc + 4#19 ∧ t.me.ctx.ldst = 0#1 ++ d ∧ t.me.run = some n

/-- The vdirty bit of the completion mask that a control word names (10_scratchpad_copy.md R315, Table 10.7). -/
def completionDirty (control : Word) : Word := if control.getLsbD 55 then BitVec.ofNat 64 (2 ^ (32 + bits control 54 52)) else 0#64

/-- At most the general registers, the program counter, ldst and vdirty of the live registers differ; vdirty gains `dirty`. -/
def GeneralAndDirty (s t : State) (dirty : Word) : Prop :=
  t.me.ctx = { s.me.ctx with
    x := t.me.ctx.x, pc := t.me.ctx.pc, ldst := t.me.ctx.ldst, vdirty := s.me.ctx.vdirty ||| dirty }

/-- The running coroutine, in slot `n`, suspends on a hardware resource cell of a core by a forced switch, its instruction to run again
(01_machine.md R26). -/
def SuspendedAt (s t : State) (n : BitVec 8) (core : BitVec 10) (cell : BitVec 16) : Prop :=
  t.me.run = none ∧ ∃ w, t.me.slot? n = some w ∧ w.waitFor = .resource ∧ w.handle = s.devNo ++ core ++ 1#2 ++ 0#26 ++ cell ∧
    w.kind = .forced ∧ w.ctx.pc = s.pc ∧ KeptByForce s.me.ctx w.ctx

/-- The same on a cell of its own core. -/
def SuspendedOn (s t : State) (n : BitVec 8) (cell : BitVec 16) : Prop := SuspendedAt s t n s.me.id cell

/-- The expect of a copy command on its barrier: the sectors of the command join the barrier's (10_scratchpad_copy.md R315). -/
def Expected (s t : State) (h : Word) : Prop :=
  ∃ c ∈ t.me.copies.getLast?, 
    let cell := s.cellOf (hCore h) (hIndex h)
    let p := max (-8388608) (min (cell.ps + (c.sectorCount : Int)) 8388607)
    BarrierAfter cell (t.cellOf (hCore h) (hIndex h)) 0 p (p ≠ cell.ps + (c.sectorCount : Int) ∨ 2 ^ 23 ≤ c.sectorCount) 0

/-- A chase slot that a control word claims is still claimed by a command of the core (10_scratchpad_copy.md R299). -/
def ChaseHeld (s : State) (control : Word) : Prop :=
  control.getLsbD 58 = true ∧
    ∃ q ∈ s.me.copies, q.kind = .tile ∧ q.control.getLsbD 58 = true ∧ q.control.extractLsb' 56 2 = control.extractLsb' 56 2

/-! ## The matrix engine (12_matrix.md R341 to R370) -/

/-- Accumulator `i` of a unit of the core's tile store; accumulator 256 × r + j is row r, column j (12_matrix.md R341, R344). -/
def State.tileAcc (s : State) (u : BitVec 3) (i : Nat) : Nat := (s.mov.rows[u.toNat]'(u.isLt)).toNat / 2 ^ (32 * i) % 2 ^ 32

/-- An accumulator's uncorrectable condition (12_matrix.md R360). -/
def State.accBad (s : State) (u : BitVec 3) (i : Nat) : Prop := 8192 * u.toNat + i ∈ s.mov.bad

/-- The tile store of the core's movement has accumulator `i` of unit `u` at what `rule` gives, and every other unit, movement and owner as
before; an accumulator that `renews` names is uncorrectable no longer. -/
def TileIs (s t : State) (u : BitVec 3) (rule : Nat → Nat) (renews : Nat → Prop) : Prop :=
  (∀ i, i < 8192 → t.tileAcc u i = rule i) ∧ (∀ w, w ≠ u → t.mov.rows[w.toNat]'(w.isLt) = s.mov.rows[w.toNat]'(w.isLt)) ∧
    t.mov = { s.mov with rows := t.mov.rows, bad := t.mov.bad } ∧ (∀ m, m ≠ movOf s.me.id → t.movAt m = s.movAt m) ∧
    ∀ x, x ∈ t.mov.bad ↔ x ∈ s.mov.bad ∧ ¬(x / 8192 = u.toNat ∧ renews (x % 8192))

/-- At most the program counter, the core's grant, latches, mshape, rowwait and copy commands, and the movements differ. -/
def OnlyMatrix (s t : State) : Prop :=
  t = { s with
    me := { s.me with
      ctx := { s.me.ctx with pc := s.pc + 4#19 }, grant := t.me.grant, latches := t.me.latches, mshape := t.me.mshape,
      rowwait := t.me.rowwait, copies := t.me.copies, chases := t.me.chases },
    movements := t.movements }

/-- The running coroutine, in slot `n`, stops with MEM_UNCORRECTABLE at a matrix entry that stays in its queue, naming the accumulator at a
grant offset (12_matrix.md R360). -/
def StopsAtAccumulator (s t : State) (n : BitVec 8) (offset : Nat) : Prop :=
  t.me.run = none ∧ ∃ w, t.me.slot? n = some w ∧ w.state = .held ∧ bits w.ctx.cause 7 0 = 0x08 ∧
    w.ctx.eaddr = BitVec.ofNat 64 (2 ^ 63 + offset) ∧ w.ctx.mq.length = 1 ∧ w.ctx.pc = s.pc + 4#19

/-! ## Pools, frames and page entries (13_address_space.md R387 to R399) -/

/-- The crew and pool that a pool word names: at U one of the own crew, at S one of a user crew that it names (13_address_space.md R393). -/
def PoolNamed (s : State) (w : Word) (r : Crew) (pool : Nat) : Prop :=
  pool = bits w 3 0 ∧
    ((s.sup = false ∧ bits w 10 4 = 0 ∧ s.crew? s.crew = some r) ∨
      (s.sup = true ∧ 1 ≤ bits w 10 4 ∧ bits w 10 4 ≤ 64 ∧ s.crew? (BitVec.ofNat 7 (bits w 10 4)) = some r))

/-- A pool's record lies whole in HBM (13_address_space.md R391). -/
def PoolPlaced (r : Crew) (pool : Nat) : Prop := r.poolTable + 32 * pool + 32 ≤ hbmSize

/-- The pool's top frame, if it has one (13_address_space.md Table 13.9). -/
def State.poolTop (s : State) (r : Crew) (pool : Nat) : Option Nat :=
  let f := s.physRead (r.poolTable + 32 * pool) 8 % 2 ^ 24
  if f = 0xFFFFFF then none else some f

/-- Taking a frame off the pool does not bring it to its low-water mark, or it has no token to signal (13_address_space.md R391). -/
def PoolQuiet (s : State) (r : Crew) (pool : Nat) : Prop :=
  let a := r.poolTable + 32 * pool
  s.physRead (a + 8) 4 ≠ s.physRead (a + 16) 4 + 1 ∨ s.physRead (a + 24) 8 = 0

/-- The head doubleword of a pool's record after a change of its top: the tag grows by 1 (13_address_space.md R391). -/
def nextHead (head top : Nat) : Nat := (head / 2 ^ 48 + 1) % 2 ^ 16 * 2 ^ 48 + top % 2 ^ 24

/-- Byte `q` of memory with a pool's head and count replaced. -/
def poolByte (s : State) (r : Crew) (pool head count q : Nat) : Byte :=
  let a := r.poolTable + 32 * pool
  if a ≤ q ∧ q < a + 8 then BitVec.ofNat 8 (head / 256 ^ (q - a))
  else if a + 8 ≤ q ∧ q < a + 12 then BitVec.ofNat 8 (count / 256 ^ (q - (a + 8)))
  else memByte s.mem q

/-- Frame `f` has entry `e`, and every other frame the entry it had. -/
def FrameIs (s t : State) (e : Frame) : Prop := t.frame? e.num = some e ∧ ∀ g, g ≠ e.num → t.frame? g = s.frame? g

/-- No fault entry of the page's range that is not signalled yet: nothing waits for the page (13_address_space.md R385). -/
def NothingWaits (s : State) (asid : BitVec 16) (va : Nat) : Prop :=
  ∀ e ∈ s.faults, e.asid = asid → va < e.key * e.size + e.size → e.key * e.size < va + 65536 → e.signalled = true

/-- The listed cores have different ids and one L1 line a place, none with a held unit. -/
def CoresSound (s : State) : Prop :=
  (s.cores.map (·.id)).Nodup ∧ ∀ k ∈ s.cores, (k.l1.map (·.line)).Nodup ∧ ∀ l ∈ k.l1, l.held = 0#8

/-- No other core holds a queued write or a dirty byte. -/
def OthersQuiet (s : State) : Prop := ∀ k ∈ s.others, k.wq = [] ∧ ∀ l ∈ k.l1, l.dirty = 0#64

/-- No core holds a queued write or an L1 line of a physical range (13_address_space.md R395, R398). -/
def NoneHolds (s : State) (lo hi : Nat) : Prop :=
  ∀ k ∈ s.cores, (∀ w ∈ k.wq, hi ≤ w.pa ∨ w.pa + w.n ≤ lo) ∧ ∀ l ∈ k.l1, hi ≤ 64 * l.line ∨ 64 * l.line + 64 ≤ lo

/-- The device holds a translation: in a movement's TLB, or in a core's micro-TLB or slices (13_address_space.md R380). -/
def State.HoldsTranslation (s : State) (e : TlbEntry) : Prop :=
  (∃ m, e ∈ (s.movAt m).tlb) ∨ ∃ k ∈ s.cores, e ∈ k.utlb ∨ ∃ c : Fin 4, e ∈ k.slices[c]

/-- The translations that `covered` names, by asid, base and size, are gone from the device, and no core holds anything of the pages that they
led to (13_address_space.md R380, R398). -/
def TranslationsGone (s t : State) (covered : BitVec 16 → Nat → Nat → Prop) : Prop :=
  (∀ e, t.HoldsTranslation e → ¬covered e.asid e.base e.size) ∧
    (CoresSound s → ∀ e, s.HoldsTranslation e → covered e.asid e.base e.size → e.host = false → NoneHolds t e.phys (e.phys + e.size))

/-- The 64 KiB page by which the tables of a crew's space name a frame: its own number, or in mode 0xB the host page at which BAR2 maps it, if
it does (13_address_space.md R374; log 60). -/
def State.tablePage (s : State) (r : Crew) (f : Nat) : Option Nat :=
  if bits r.space 63 60 ≠ 0xB then some f
  else if f * 65536 + 65536 ≤ s.barSize ∧ f * 65536 + 65536 ≤ s.romBase then some (s.barBase / 65536 + f) else none

/-- The frame that such a page is (13_address_space.md R374). -/
def State.tableFrame (s : State) (r : Crew) (page : Nat) : Nat :=
  if bits r.space 63 60 ≠ 0xB then page else s.hostToPhys (page * 65536) / 65536

/-- The 16 entries of a 64 KiB page read `v` (13_address_space.md R394). -/
def EntriesRead (t : State) (pte v : Nat) : Prop := ∀ i, i < 16 → t.physRead (pte + 8 * i) 8 = v

/-! ## Rankings and the scratchpad's arrays (15_complications.md R416 to R431) -/

/-- `n` bytes of the core's own scratchpad from an offset. -/
def State.pad (s : State) (o n : Nat) : Nat := s.physRead (0x10000000000 + s.me.id.toNat * 0x100000 + o) n

/-- At most the general registers, the program counter, ldst, memory and what L2 says of its lines differ. -/
def OnlyGeneralAndMemory (s t : State) : Prop :=
  t = { s with
    me := { s.me with ctx := { s.me.ctx with x := t.me.ctx.x, pc := s.pc + 4#19, ldst := t.me.ctx.ldst } }, mem := t.mem, l2 := t.l2 }

/-- Bytes outside an offset range of the core's scratchpad are as before. -/
def PadKept (s t : State) (touched : Nat → Prop) : Prop :=
  ∀ q, (∀ o, q = 0x10000000000 + s.me.id.toNat * 0x100000 + o → ¬touched o) → memByte t.mem q = memByte s.mem q

/-- Two ranges of offsets that share no byte. -/
def Apart (a n b m : Nat) : Prop := a + n ≤ b ∨ b + m ≤ a

/-! ## Windows (16_pod.md R435 to R451) -/

/-- Window `w` of this device, which a remote pointer names, admits `n` bytes of the running coroutine's operation with permission `perm`
(16_pod.md R439). -/
def Admits (s : State) (w : Window) (perm : Window → Bool) (p : Word) (n : Nat) : Prop :=
  hDev p = s.devNo ∧ s.windows.find? (fun v => v.index = p.extractLsb' 42 12) = some w ∧ w.state = .opened ∧ perm w = true ∧
    bits p 41 0 + n ≤ w.length ∧ ∃ q ∈ w.peers, q.valid = true ∧ q.crew = s.crew ∧ q.first ≤ s.devNo ∧ s.devNo ≤ q.last

/-- The running coroutine's operation goes through window `w`: it admits the operation, or admitted it before the operation had to wait at its
target (16_pod.md R439, R440). -/
def Passes (s : State) (w : Window) (perm : Window → Bool) (p : Word) (n : Nat) : Prop :=
  (s.me.passed ≠ some p ∧ Admits s w perm p n) ∨
    (s.me.passed = some p ∧ hDev p = s.devNo ∧ s.windows.find? (fun v => v.index = p.extractLsb' 42 12) = some w)

/-- No earlier operation of the coroutine to the device is still to pass: no queued one, and no wst of it whose first sector, or where `whole`
whose last, has not (16_pod.md R443, R451). -/
def NothingBefore (s : State) (n : BitVec 8) (dev : BitVec 10) (whole : Bool) : Prop :=
  (∀ o ∈ s.me.outq, o.op.srcSlot = n → hDev o.op.handle ≠ dev) ∧
    ∀ c ∈ s.me.copies, c.kind = .remote → c.slot = n → c.issuer = .present → hDev (c.dw 0) = dev → whole = false ∧ c.done ≠ 0

/-- The remote atomics: the new value from the old one, x[b] and x[d], if one is stored (16_pod.md Table 16.4, R450). -/
noncomputable def wamoRows (d a b : BitVec 5) (q l : BitVec 1) (B E : Word) : List (Instr × (Word → Option Word)) := [
  (.wamoAdd d a b q l, fun old => some (BitVec.ofNat 64 (old.toNat + B.toNat))),
  (.wamoAnd d a b q l, fun old => some (old &&& B)),
  (.wamoOr d a b q l, fun old => some (old ||| B)),
  (.wamoXor d a b q l, fun old => some (old ^^^ B)),
  (.wamoMin d a b q l, fun old => some (if B.toInt < old.toInt then B else old)),
  (.wamoMax d a b q l, fun old => some (if old.toInt < B.toInt then B else old)),
  (.wamoMinn d a b q l, fun old => some (if B.toNat < old.toNat then B else old)),
  (.wamoMaxn d a b q l, fun old => some (if old.toNat < B.toNat then B else old)),
  (.wamoSwap d a b q l, fun _ => some B),
  (.wamoCas d a b q l, fun old => if old = E then some B else none)]

/-- A window as its descriptor describes it (16_pod.md Table 16.2, R446). -/
def WindowDescribed (w : Window) (crew : BitVec 7) (l : List Word) : Prop :=
  let perm := l.getD 2 0#64
  let cores := l.getD 3 0#64
  w.state = .opened ∧ w.owner = crew ∧ w.base = l.getD 0 0#64 ∧ w.length = (l.getD 1 0#64).toNat ∧ w.r = perm.getLsbD 0 ∧
    w.w = perm.getLsbD 1 ∧ w.a = perm.getLsbD 2 ∧ w.t = perm.getLsbD 3 ∧ w.first.toNat = bits cores 9 0 ∧ w.count = bits cores 20 10 ∧
    w.inflight = 0 ∧ w.peers = [4, 5, 6, 7].map fun j =>
      let p := l.getD j 0#64
      ⟨p.getLsbD 63, p.extractLsb' 7 10, p.extractLsb' 17 10, p.extractLsb' 0 7⟩

/-! ## The device's own steps (07_coroutines.md, 08_tokens.md, 10_scratchpad_copy.md) -/

/-- The running coroutine, in slot `n`, is switched out by force without a record: ready at the tail of its class, its registers kept, its
cause the one given (07_coroutines.md R187, R198, R203, R205). -/
def SwitchedOut (s t : State) (n : BitVec 8) (code : BitVec 8) : Prop :=
  t.me.run = none ∧ t.mem = s.mem ∧ t.others = s.others ∧ t.me.records = s.me.records ∧ (∀ m, m ≠ n → t.me.slot? m = s.me.slot? m) ∧
    ∃ w, t.me.slot? n = some w ∧ w.state = .ready ∧ w.seq = s.me.seqCount ∧ w.waitFor = .nothing ∧ w.kind = .forced ∧
      KeptByForce s.me.ctx w.ctx ∧ w.ctx.pc = s.pc ∧ w.ctx.epc = s.pc ∧ w.ctx.cause.extractLsb' 0 8 = code ∧ w.ctx.eaddr = 0#64

/-- A slot's context lies in the context cache (07_coroutines.md R191). -/
def InCache (u : Slot) : Prop := u.state ≠ .running ∧ u.spilled = false

/-- An operation that its home on this device applies as it arrives: its crew has not faulted, no log takes it, and its handle is not stale;
nothing is to be told its outcome (08_tokens.md R230, R237, R244, R246, R248). -/
def TakenAtOnce (s : State) (op : TokenOp) : Prop :=
  hDev op.handle = s.devNo ∧ s.crewFaulted op.crew = false ∧ 16 ≤ (hIndex op.handle).toNat ∧ s.stale (if op.isUser then op.crew else 0#7) op.handle = false ∧
    (op.crew = 0#7 ∨ (s.boundTo (hCore op.handle) op.crew = true ∧ (s.coreAt (hCore op.handle)).replay = false)) ∧
    op.toStatus = false ∧ op.reply = 0#64

/-- What a cell becomes by an operation that arrives (08_tokens.md R235, R251, R256, R258). -/
def CellTakes (c t : TokenCell) (op : TokenOp) : Prop :=
  let n := op.operand.toNat
  let sc := op.scope.toNat
  let clamp (x : Int) : Int := max (-8388608) (min x 8388607)
  (c.kind = 0#2 → op.code ∈ [1#8, 3#8, 7#8, 9#8] → BarrierAfter c t n c.ps false sc) ∧
    (c.kind = 0#2 → op.code = 2#8 → BarrierAfter c t 0 (clamp (c.ps + op.operand.toInt))
      (clamp (c.ps + op.operand.toInt) ≠ c.ps + op.operand.toInt ∨ 2 ^ 23 ≤ op.operand.toInt.natAbs) 0) ∧
    (c.kind = 0#2 → op.code = 4#8 → BarrierAfter c t 0 (clamp (c.ps - 1)) (clamp (c.ps - 1) ≠ c.ps - 1) sc) ∧
    (c.kind = 1#2 → op.code ∈ [3#8, 7#8, 9#8] → CountAfter c t n sc) ∧ (c.kind = 1#2 → op.code = 8#8 → CountAfter c t n 0) ∧
    (c.kind = 2#2 → op.code = 5#8 → FutureAfter c t op.operand sc)

/-- The ring of a crew's signal log: 2^k entries of 32 bytes in HBM, between its head and its tail at most all of them (08_tokens.md R247). -/
def LogSound (r : Crew) : Prop :=
  r.logBase % 32 = 0 ∧ r.logBase + 32 * 2 ^ r.logSize.toNat ≤ hbmSize ∧ r.logHead ≤ r.logTail ∧ r.logTail ≤ r.logHead + 2 ^ r.logSize.toNat

/-- The address of entry `i` of a crew's signal log (08_tokens.md R247). -/
def logPlace (r : Crew) (i : Nat) : Nat := r.logBase + 32 * (i % 2 ^ r.logSize.toNat)

/-- Doubleword `k` of entry `i` of a crew's signal log (08_tokens.md R247). -/
def State.logWord (s : State) (r : Crew) (i k : Nat) : Word := BitVec.ofNat 64 (s.physRead (logPlace r i + 8 * k) 8)

/-- Entry `i` of a crew's signal log is valid and holds an operation; the signal of vfence.arrive is a tksig (08_tokens.md Table 8.7,
09_visibility.md R288). -/
def Logged (s : State) (r : Crew) (i : Nat) (op : TokenOp) : Prop :=
  let w := s.logWord r i 1
  s.logWord r i 0 = op.handle ∧ w.getLsbD 63 = true ∧ bits w 62 60 = op.scope.toNat ∧ bits w 59 50 = op.srcDev.toNat ∧
    bits w 49 40 = op.srcCore.toNat ∧ bits w 39 8 = 0 ∧ bits w 7 0 = (if op.code = 9#8 then 3 else op.code.toNat) ∧ s.logWord r i 2 = op.operand ∧ s.logWord r i 3 = op.reply

/-- Entry `i` of a crew's signal log waits to be replayed at a core (08_tokens.md R249). -/
def ReplayDue (s : State) (r : Crew) (i : Nat) (core : BitVec 10) : Prop :=
  (s.logWord r i 1).getLsbD 63 = true ∧ hCore (s.logWord r i 0) = core

/-- A cp.tile command, running, that moves `len` bytes in one row from one offset of its core's scratchpad to another, with no completion
mask, barrier or chase slot, for an agent that may reach the scratchpad's user part (10_scratchpad_copy.md R298, R320, Tables 10.7, 10.8). -/
def PadCopy (s : State) (c : CopyCmd) (src dst len : Nat) : Prop :=
  c.kind = .tile ∧ c.state = .running ∧ c.control.getLsbD 55 = false ∧ c.control.getLsbD 58 = false ∧ bits c.control 31 30 = 1 ∧
    bits c.control 29 28 = 1 ∧ c.dw 1 = 0#64 ∧ (c.dw 2).toNat = src ∧ (c.dw 3).toNat = dst ∧ (c.dw 4).toNat = len + 2 ^ 32 + 2 ^ 48 ∧
    0 < len ∧ len < 2 ^ 20 ∧ 0x10000 ≤ dst ∧ src + len ≤ 2 ^ 20 ∧ dst + len ≤ 2 ^ 20 ∧ (supSlot c.slot = true ∨ s.me.bound = c.crew)

/-- A copy command of a coroutine that still holds its slot and does not run, stopped by a fault: it keeps its entry, its coroutine is held,
and a COPY_FAULT record names both (10_scratchpad_copy.md R316). -/
def CopyStopped (s t : State) (c : CopyCmd) (cause : BitVec 8) (addr : Word) (store : Bool) : Prop :=
  t.mem = s.mem ∧ t.me.copy? c.entry = some { c with state := .stopped, cause := cause, chan := none, fetched := [] } ∧
    (∃ r, t.me.records = s.me.records ++ [r] ∧ r.code = 0x11#8 ∧ r.rcoid = coidOf s.me.id c.slot ∧ r.eaddr = addr ∧ r.st = store ∧
      r.entry = some c.entry) ∧
    (t.me.slot? c.slot).map (fun w => (w.state, w.records)) = (s.me.slot? c.slot).map (fun u => (SlotState.held, u.records + 1)) ∧
    t.me.ctx = s.me.ctx ∧ t.others = s.others

/-! ## The Kerlo command set (17_host_security_power.md R454 to R468, R492) -/

/-- The Kerlo commands: their instruction, opcode and, where the opcode has several, the op field (17_host_security_power.md Table 17.3). -/
noncomputable def kerloRows : List (Instr × Nat × Option Nat) := [
  (.identify, 0x01, none), (.attestReport, 0x02, some 0), (.attestWrap, 0x02, some 1), (.attestUnwrap, 0x02, some 2),
  (.crewCreate, 0x03, none), (.crewDestroy, 0x04, none), (.codeLoad, 0x05, none), (.bind, 0x06, none), (.farmLaunch, 0x07, none),
  (.signal, 0x08, none), (.preemptCommand, 0x09, none), (.windowRegister, 0x0A, none), (.powerSetCap, 0x0B, some 0),
  (.powerSetState, 0x0B, some 1), (.powerSetGating, 0x0B, some 2), (.debugSetLevel, 0x0C, some 0), (.debugSetWatch, 0x0C, some 1),
  (.debugSetCopy, 0x0C, some 2), (.errorQuery, 0x0D, none), (.repairStatus, 0x0E, none), (.patchApply, 0x0F, none)]

/-- The oldest queued command is one of an opcode and op field, with no reserved field set: its header's bits above 14, and every parameter
after the first `n` (17_host_security_power.md R454, R455). -/
def Queued (s : State) (c : KerloCmd) (op : Nat) (sub : Option Nat) (n : Nat) : Prop :=
  s.kerlo.queue.head? = some c ∧ bits (c.p 0) 7 0 = op ∧ (∀ k, sub = some k → (c.p 1).toNat = k) ∧ bits (c.p 0) 63 15 = 0 ∧
    ∀ i, n < i → i < 32 → c.p i = 0#64

/-- What a command leaves whose operand of `n` bytes cannot be read: the state as it was where an end of the operand lies in no region, else its
first uncorrectable byte is consumed: an error record names it, one counter grows by 1, and the read of its burst that failed is forgotten
(14_near_far_memory.md R406, R410, 17_host_security_power.md Table 17.3). -/
def Unread (s s1 : State) (pa n : Nat) : Prop :=
  let ends : Prop := regionOf pa ≠ .reserved ∧ regionOf (pa + n - 1) ≠ .reserved
  (¬ends → s1 = s) ∧
    ∀ i, ends → i < n → s.isBad (pa + i) 1 = true → (∀ k, k < i → s.isBad (pa + k) 1 = false) →
      s1 = { s with
        uecount := s1.uecount, failing := s1.failing,
        kerlo := { s.kerlo with errors := s.kerlo.errors ++ [BitVec.ofNat 64 (3 * 2 ^ 56 + (pa + i) % 2 ^ 56)] } } ∧
      (∃ k, ∀ j, countAt s1.uecount j = countAt s.uecount j + if j = k then 1#64 else 0#64) ∧ ∀ u ∈ s1.failing, u ∈ s.failing

/-- The oldest command is answered, from state `s1`: its status, result and reply doublewords stand in its slot, it leaves the queue, and
the message that its header asks for is sent, or pending where its vector is masked (17_host_security_power.md R452, R455). -/
def Answered (s1 t : State) (c : KerloCmd) (code : BitVec 8) (result : Word) (reply : List (Nat × Word)) : Prop :=
  let j := c.slot.toNat
  let v := bits (c.p 0) 14 9
  let asks : Bool := (c.p 0).getLsbD 8
  t = { s1 with
      kerlo := { s1.kerlo with
        slots := t.kerlo.slots, status := t.kerlo.status, result := t.kerlo.result, queue := s1.kerlo.queue.drop 1,
        pba := if asks && s1.kerlo.masked v then s1.kerlo.pba ||| (1#64 <<< v) else s1.kerlo.pba },
      msixOut := s1.msixOut ++ if asks && !s1.kerlo.masked v then [v] else [] } ∧
    countAt t.kerlo.status j = 0x8000000000000000#64 ||| code.zeroExtend 64 ∧ countAt t.kerlo.result j = result ∧
    (∀ p ∈ reply, countAt t.kerlo.slots (64 * j + p.1) = p.2) ∧
    (∀ k, k ≠ j → countAt t.kerlo.status k = countAt s1.kerlo.status k ∧ countAt t.kerlo.result k = countAt s1.kerlo.result k) ∧
    ∀ k, k < 64 * j + 32 ∨ 64 * j + 64 ≤ k → countAt t.kerlo.slots k = countAt s1.kerlo.slots k

end Sys2Proof.Machine
end

