-- ==== Sys2Proof/Certificates/Slice0/Obligations.lean ====
section
/-!
DEFINITION. The statements about the model. Each docstring names the rules of spec/ that it formalises.
-/

open Sys2Proof Sys2Proof.Machine

/-! ## Encoding (02_encoding.md) -/

/-- R33 to R48: the words of an instruction whose fields an encoding admits decode to that instruction and its length, whatever bytes
follow them. -/
def Obligations.DecodeGivesBackWhatEncodeWrites : Prop :=
  ∀ (i : Instr) (bytes rest : List Byte), i.wf = true → encode i = some bytes → decodeBytes (bytes ++ rest) = .ok i bytes.length

/-- R33, R34, R35 to R48: the decoder drops no bit: bytes that decode to an instruction are the ones that the encoding tables give it, 4 of them
where bit 0 of the first halfword is 1 and 2 where it is 0; a halfword of zeros is reserved. -/
def Obligations.DecodedBytesAreTheirEncoding : Prop :=
  (∀ (b0 b1 b2 b3 : Byte) (i : Instr) (n : Nat), decodeBytes [b0, b1, b2, b3] = .ok i n →
      i.wf = true ∧ encode i = some ([b0, b1, b2, b3].take n)) ∧
  ((∀ (h0 h1 : BitVec 16) (i : Instr) (n : Nat), decodeHalves h0 h1 = .ok i n → n = if h0.getLsbD 0 then 4 else 2) ∧
      ∀ h1, ∃ why, decodeHalves 0#16 h1 = .bad why)

/-- The words that the spec gives as examples decode to the instructions they stand for (02_encoding.md and the instruction entries). -/
def Obligations.ExampleWordsDecode : Prop :=
  decodeTableWord 32 0x6800B603 = some (.div 12#5 11#5 0#5) ∧
  decodeTableWord 32 0x001092A7 = some (.ld64 5#5 9#5 8#15) ∧
  decodeTableWord 32 0x06D69547 = some (.amoAdd 10#5 9#5 11#5 1#1 1#1 3#3) ∧
  decodeTableWord 32 0x02828657 = some (.vred 12#5 8#5 1#5 0#3 10#4) ∧
  decodeTableWord 32 0x000E4159 = some (.vslide 2#5 4#5 7#5 0#4)

/-! ## The step -/

/-- R33: a step of a core that issues decodes the two halfwords at its program counter, little-endian in its movement's instruction store, and
executes the instruction they hold, or the trap on a reserved encoding (R39); then the step ends (log 2). -/
def Obligations.StepExecutesTheDecodedInstruction : Prop :=
  ∀ s : State, s.Issues →
    (∀ i n, decodeHalves (s.codeAt s.pc.toNat) (s.codeAt (s.pc + 2#19).toNat) = .ok i n → step s = finish true (exec i s)) ∧
    (∀ why, decodeHalves (s.codeAt s.pc.toNat) (s.codeAt (s.pc + 2#19).toNat) = .bad why →
      step s = finish true (exec .reservedEncoding s)) ∧
    (∀ t, finish true (.next t) = .next (t.endTurn true))

/-- A step answers a soft error first, then an input from outside with the device step that it is, then a host access to the function, and a
device whose boot is not complete with its boot; its end, with no matrix entry or write queued, changes no memory and no register of any
coroutine but the time left of its quantum (log 2, log 3, log 8, log 57: the model's order of steps). A write of the crown's doorbell for slot
j is ignored while the slot holds a command that is not done, and else clears done and queues dw 0 to 31 of the slot. A write of the MSI-X
table sends the pending messages of the vectors that it unmasks (log 64). The host places BAR2 at a multiple of its size, 1 GiB to 1 TiB; a
package reset leaves what State.reset holds, with the lifecycle and the patch store (log 65). -/
def Obligations.StepsTakeInputsFirstAndEnd : Prop :=
  (∀ (s : State) (core : Bool) (c : BitVec 10), (core = true → s.me.ctx.mq = [] ∧ s.me.wq = []) →
      (s.endTurn core).mem = s.mem ∧ (s.endTurn core).movements = s.movements ∧
        ((s.endTurn core).coreAt c).ctx = { (s.coreAt c).ctx with quantum := ((s.endTurn core).coreAt c).ctx.quantum } ∧
        ((s.endTurn core).coreAt c).run = (s.coreAt c).run ∧ ((s.endTurn core).coreAt c).records = (s.coreAt c).records) ∧
  (∀ (s : State) (u : Upset) (rest : List Upset), s.upsets = u :: rest →
      step s = finish false (.next ({ s with upsets := rest }.upset u))) ∧
  (∀ (s : State) (i : Instr) (rest : List Instr), s.upsets = [] →
      (s.inbox = i :: rest → encode i = none → step s = finish false (exec i { s with inbox := rest })) ∧
      (s.inbox = i :: rest → encode i ≠ none → step s = .fault .notAnInput) ∧
      (s.inbox = [] → s.kerlo.access = [] → s.kerlo.ready = false → step s = finish false (exec .boot s))) ∧
  (∀ (s : State) (w : Word) (o : Nat) (rest : List CrownAccess), s.upsets = [] → s.inbox = [] →
    (∀ v, v < 64 → s.kerlo.pba.getLsbD v = true → s.kerlo.masked v = true) →
    let arrived : Kerlo := { s.kerlo with access := rest }
    let j := w.toNat % 64
    (s.kerlo.access = .read o :: rest →
      step s = finish false (.next { s with kerlo := arrived, barOut := s.barOut ++ [some (s.kerlo.crownWord o)] })) ∧
    (s.kerlo.access = .write 8 w :: rest → (∃ c ∈ s.kerlo.queue, c.slot.toNat = j) →
      step s = finish false (.next { s with kerlo := arrived })) ∧
    (s.kerlo.access = .write 8 w :: rest → (∀ c ∈ s.kerlo.queue, c.slot.toNat ≠ j) →
      ∃ (k : Kerlo) (c : KerloCmd), step s = finish false (.next { s with kerlo := k }) ∧
        k = { arrived with status := k.status, queue := s.kerlo.queue ++ [c] } ∧ c.slot.toNat = j ∧
        (∀ i, i < 32 → c.p i = countAt s.kerlo.slots (64 * j + i)) ∧ (countAt k.status j).getLsbD 63 = false ∧
        ∀ m, m ≠ j → countAt k.status m = countAt s.kerlo.status m) ∧
    (s.kerlo.access = .write o w :: rest → 0x8000 ≤ o → o < 0x10000 → o % 8 = 0 →
      ∃ k : Kerlo, step s = finish false (.next { s with kerlo := k }) ∧ k = { arrived with slots := k.slots } ∧
        ∀ m, countAt k.slots m = if m = (o - 0x8000) / 8 then w else countAt s.kerlo.slots m) ∧
    (s.kerlo.access = .write o w :: rest → 0x10000 ≤ o → o < 0x10400 → o % 8 = 0 →
      ∃ t : State, step s = finish false (.next t) ∧
        t = { s with kerlo := { arrived with msix := t.kerlo.msix, pba := t.kerlo.pba }, msixOut := t.msixOut } ∧
        (∀ m, t.kerlo.msixWord m = if m = (o - 0x10000) / 8 then w else s.kerlo.msixWord m) ∧
        t.msixOut = s.msixOut ++ (List.range 64).filter (fun v => s.kerlo.pba.getLsbD v && !t.kerlo.masked v) ∧
        ∀ v, t.kerlo.pba.getLsbD v = (s.kerlo.pba.getLsbD v && t.kerlo.masked v)) ∧
    (∀ log : BitVec 4, s.kerlo.access = .placeBar o log :: rest →
      step s = finish false (.next (if s.kerlo.trained = true ∧ log.toNat ≤ 10 then
        { s with kerlo := arrived, barBase := o / 2 ^ (30 + log.toNat) * 2 ^ (30 + log.toNat), barSize := 2 ^ (30 + log.toNat) }
      else { s with kerlo := arrived }))) ∧
    (s.kerlo.access = .packageReset :: rest →
      ∃ t : State, step s = finish false (.next t) ∧ t.me = State.reset.me ∧ t.others = [] ∧ t.movements = [] ∧ t.mem = [] ∧ t.crews = [] ∧
        t.windows = [] ∧ t.kerlo.ready = false ∧ t.kerlo.life = s.kerlo.life ∧ t.kerlo.pendingPatch = s.kerlo.pendingPatch ∧
        t.kerlo.patchStore = s.kerlo.patchStore))

/-! ## Reset -/

/-- R25, R185, R213, R346, R351, R459: after reset no slot of any core holds a coroutine, every counter is zero, no crew is bound, no tile unit
is granted or held, and memory reads zero: scratchpads and instruction stores as R459 leaves them, every other byte by log 4's choice; every
clock is the nominal one of Table 0.1 (R1). (Empty caches and every movement in M0 are the model's choice, log 5.) -/
def Obligations.ResetHoldsNothing : Prop :=
  ∀ (c : BitVec 10) (m : BitVec 8) (u : Fin 8) (a : Nat),
    let k := State.reset.coreAt c
    k.run = none ∧ k.slots = [] ∧ k.records = [] ∧ k.copies = [] ∧ k.outq = [] ∧ k.bound = 0#7 ∧ k.grant = [] ∧ k.halted = false ∧
      k.cyc = 0#64 ∧ k.spills = 0#64 ∧ k.cpqwait = 0#64 ∧ k.rowwait = 0#64 ∧ k.tlbmiss = 0#64 ∧ k.logappend = 0#64 ∧
      k.winrefuse = 0#64 ∧ k.tvec = 0#64 ∧ k.l1 = [] ∧ (State.reset.movAt m).owner[u] = none ∧ (State.reset.movAt m).power = .m0 ∧
      k.wq = [] ∧ State.reset.l2 = [] ∧ (State.reset.movAt m).clock = 800 ∧ (State.reset.movAt m).scalarClock = 1600 ∧
      State.reset.crews = [] ∧ State.reset.windows = [] ∧ State.reset.kerlo.ready = false ∧ memByte State.reset.mem a = 0#8

/-- Memory after reset is in its canonical form (log 4). -/
def Obligations.ResetMemoryIsCanonical : Prop := State.reset.Canonical

/-! ## What every step keeps -/

/-- Every step keeps memory in its canonical form: ascending addresses, and no entry that reads as an unlisted one (log 4). -/
def Obligations.StepsKeepMemoryCanonical : Prop := ∀ s t : State, s.Canonical → step s = .next t → t.Canonical

/-- R22, R212, R399: no instruction that a coroutine executes, at either level, changes what the device keeps for the host and the Kerlo ROM. -/
def Obligations.InstructionsLeaveTheDeviceAlone : Prop :=
  ∀ (i : Instr) (s t : State), encode i ≠ none → exec i s = .next t → SameDevice s t

/-- R22, R97, R228, R399: no instruction at level U changes the crew bound to a core, a core's space, its spill reserve or its tvec. -/
def Obligations.UserInstructionsLeaveSupervisionAlone : Prop :=
  ∀ (i : Instr) (s t : State) (c : BitVec 10), encode i ≠ none → s.sup = false → exec i s = .next t →
    SameSupervision (s.coreAt c) (t.coreAt c)

/-- A store keeps memory in its canonical form and reads back as it was written; any other byte reads as before (log 4). -/
def Obligations.MemoryReadsBackWhatWasWritten : Prop :=
  ∀ (s : State) (pa n v q : Nat), s.Canonical → s.swaps = [] → resourceByte pa = none →
    (s.physWrite pa n v).Canonical ∧ (s.physWrite pa n v).physRead pa n = v % 256 ^ n ∧
      memByte (s.physWrite pa n v).mem q = if pa ≤ q ∧ q < pa + n then BitVec.ofNat 8 (v / 256 ^ (q - pa)) else memByte s.mem q

/-! ## Scalar instructions (04_scalar.md) -/

/-- R108, R109, R111, R112, Table 4.6: each integer register operation writes its result to x[d] and changes nothing else; the immediate operations act
as their register forms with the immediate extended; lim and ipc write the shifted immediate, ipc's added to the instruction's own offset
and not reduced modulo 2^19; a division truncates toward zero, and by zero gives all ones or the dividend and sets status.idz. -/
def Obligations.IntegerOperationsWriteTheirResult : Prop :=
  (∀ (d a b : BitVec 5) (s : State), ∀ p ∈ aluRows d a b (s.x a) (s.x b), ∃ t, exec p.1 s = .next t ∧ Writes s t d p.2 4) ∧
  (∀ (d a : BitVec 5) (i : BitVec 15) (n : BitVec 6) (u : BitVec 20) (s : State),
      ∀ p ∈ immediateRows d a i n u (s.x a) s.pc, ∃ t, exec p.1 s = .next t ∧ Writes s t d p.2 4) ∧
  (∀ (d a b : BitVec 5) (s : State), ∀ p ∈ divideRows d a b (s.x a) (s.x b), ∃ t, exec p.1 s = .next t ∧
      WritesStatus s t d p.2 (if s.x b = 0#64 then s.me.ctx.status ||| 1#64 else s.me.ctx.status))

/-- R49, R114, R115: a branch is taken on its condition, to its own offset plus twice the signed halfword offset modulo 2^19, else falls through, and
changes nothing but the program counter; jal and jalr write the offset after them, modulo 2^19, to their link register, and go to their
target, which jalr clears bit 0 of and computes before the link is written; ldst names the link register (R49). -/
def Obligations.BranchesAndJumpsGoToTheirTarget : Prop :=
  (∀ (a b : BitVec 5) (o : BitVec 15) (s : State), ∀ p ∈ branchRows a b o (s.x a) (s.x b), ∃ t, exec p.1 s = .next t ∧
      OnlyPc s t (if p.2 then BitVec.ofInt 19 (s.pc.toNat + 2 * o.toInt) else s.pc + 4#19)) ∧
  (∀ (o : BitVec 25) (d a : BitVec 5) (i : BitVec 15) (s : State),
      (∃ t, exec (.jal o) s = .next t ∧ OnlyGeneral s t ∧ HoldsAt s t 1#5 (BitVec.ofNat 64 ((s.pc.toNat + 4) % 2 ^ 19)) ∧
        t.me.ctx.ldst = 0#1 ++ 1#5 ∧ t.pc = BitVec.ofInt 19 (s.pc.toNat + 2 * o.toInt)) ∧
      (∃ t, exec (.jalr d a i) s = .next t ∧ OnlyGeneral s t ∧ HoldsAt s t d (BitVec.ofNat 64 ((s.pc.toNat + 4) % 2 ^ 19)) ∧
        t.me.ctx.ldst = 0#1 ++ d ∧ t.pc = BitVec.ofInt 19 (((s.x a).toNat + i.toInt) % 2 ^ 19 / 2 * 2)))

/-- R48: a compact form whose L is a scalar register acts on x[L] as its 32-bit instruction, and is two bytes long; where ldst names a
vector register it traps ILLEGAL, and so do c.ld and c.st. -/
def Obligations.CompactScalarFormsActOnTheirL : Prop :=
  ∀ (a b : BitVec 5) (h : BitVec 1) (i : BitVec 10) (l : BitVec 5) (s : State),
    (s.me.ctx.ldst = 0#1 ++ l → ∀ p ∈ compactRows a h i (s.x l) (s.x a), ∃ t, exec p.1 s = .next t ∧ Writes s t l p.2 2) ∧
    (s.me.ctx.ldst = 1#1 ++ l → (∀ p ∈ compactRows a h i 0#64 0#64, exec p.1 s = .next (s.trap 0x01#8 0#64 false s.pc)) ∧
      ∀ j ∈ [Instr.cLd a b, .cSt a b], exec j s = .next (s.trap 0x01#8 0#64 false s.pc))

/-- R65, R76, R77, R79, R80, R83, R84, R78, R116, R117: float arithmetic writes the exact result rounded as fcr says, with an f32 result
zero-extended; its flags join those of fcr, and prng takes one step in stochastic mode. Rounding takes the one of the two neighbours of the
exact sum, product, quotient or root that the mode names, flushes or flags a tiny result, and gives Table 3.8's result on overflow; a sum of
zero is + but for two zeros of one sign and for RDN (log 18); an invalid operation gives the canonical NaN with fnv, a division by zero an
infinity with fdz. fmin and fmax give a number rather than a NaN and put −0 below +0; fcmp's conditions are false on a NaN but unord, and lt
and le signal any NaN; fclass sets the one bit of its operand's class and no flag. -/
def Obligations.FloatArithmeticRoundsOnceAndSelects : Prop :=
  (∀ (d a b c : BitVec 5) (s : State), ∀ p ∈ floatRows d a b c s.me.ctx.fcr (s.x a) (s.x b) (s.x c),
    let q := s.me.ctx
    let next := if fcrRm q.fcr = 5 then xorshift q.prng else q.prng
    let r := p.2.1.finish ⟨fcrRm q.fcr, q.fcr.getLsbD 4, fcrFtz q.fcr p.2.1, drawBits (xorshift q.prng)⟩ p.2.2
    ∃ t, exec p.1 s = .next t ∧ WritesFloat s t d (BitVec.ofNat 64 r.1) (q.fcr ||| BitVec.ofNat 64 (r.2.toNat * 2 ^ 16)) next) ∧
  (∀ (f : FloatFmt) (r : Rounding) (n₁ n₂ : Bool) (m₁ m₂ : Nat) (e₁ e₂ : Int), r.rm < 6 → r.draw < 2 ^ 24 →
    let x : Machine.Num := .fin n₁ m₁ e₁
    let y : Machine.Num := .fin n₂ m₂ e₂
    let k := min e₁ e₂
    let zeros : Bool := if m₁ = 0 ∧ m₂ = 0 ∧ n₁ = n₂ then n₁ else decide (r.rm = 2)
    f.finish r (.val n₁ ⟨0, e₁, false⟩) = (f.sign n₁, 0#6) ∧
    (0 < m₁ → RoundedTo f r n₁ (.quot m₁ 1 e₁) (f.finish r (.val n₁ ⟨m₁, e₁, false⟩))) ∧
    (0 < m₁ → 0 < m₂ → RoundedTo f r (n₁ != n₂) (.quot m₁ m₂ (e₁ - e₂)) (f.finish r (divNum x y))) ∧
    (0 < m₁ → RoundedTo f r false (.root m₁ e₁) (f.finish r (sqrtNum (.fin false m₁ e₁)))) ∧
    ExactlyIs (addNum r.rm x y) (sumAt k [x, y]) k zeros ∧
    (mulNum x y).1.exact (mulNum x y).2 = .val (n₁ != n₂) ⟨m₁ * m₂, e₁ + e₂, false⟩ ∧
    (∀ i ∈ [addNum r.rm (.inf n₁) (.inf !n₁), (mulNum (.inf n₁) (.fin n₂ 0 e₂)).1.exact (mulNum (.inf n₁) (.fin n₂ 0 e₂)).2,
        divNum (.inf n₁) (.inf n₂), divNum (.fin n₁ 0 e₁) (.fin n₂ 0 e₂), sqrtNum (.inf true), sqrtNum (.fin true (m₁ + 1) e₁),
        addNum r.rm (.nan true) x, sqrtNum (.nan true)],
      f.finish r i = (f.nan, 16#6)) ∧
    (0 < m₁ → f.finish r (divNum x (.fin n₂ 0 e₂)) = (f.inf (n₁ != n₂), 8#6)) ∧
    f.finish r (.nan false) = (f.nan, 0#6)) ∧
  (∀ (f : FloatFmt) (b : Nat), ReadsAs f b) ∧
  (∀ (d a b c : BitVec 5) (s : State),
    let q := s.me.ctx
    let A := s.x a
    let B := s.x b
    (∀ p ∈ [(Instr.fminF32 d a b, FloatFmt.f32, false), (.fmaxF32 d a b, .f32, true), (.fminF64 d a b, .f64, false),
        (.fmaxF64 d a b, .f64, true)],
      ∃ t, exec p.1 s = .next t ∧ WritesFloat s t d (minMaxValue p.2.1 q.fcr p.2.2 A B)
        (signalling q.fcr (scalarNum p.2.1 q.fcr A) (scalarNum p.2.1 q.fcr B)) q.prng) ∧
    (c.toNat < 4 → ∀ p ∈ [(Instr.fcmpF32 d a b c, FloatFmt.f32), (.fcmpF64 d a b c, .f64)],
      ∃ t, exec p.1 s = .next t ∧
        WritesFloat s t d (if compareNum c.toNat (scalarNum p.2 q.fcr A) (scalarNum p.2 q.fcr B) then 1#64 else 0#64)
          (compareFcr q.fcr c.toNat (scalarNum p.2 q.fcr A) (scalarNum p.2 q.fcr B)) q.prng) ∧
    (4 ≤ c.toNat → ∀ i ∈ [Instr.fcmpF32 d a b c, .fcmpF64 d a b c], exec i s = .next (s.trap 0x01#8 0#64 false s.pc)) ∧
    (∃ t, exec (.fclassF32 d a) s = .next t ∧ Writes s t d (BitVec.ofNat 64 (2 ^ floatClass 8 23 A.toNat)) 4) ∧
    (∃ t, exec (.fclassF64 d a) s = .next t ∧ Writes s t d (BitVec.ofNat 64 (2 ^ floatClass 11 52 A.toNat)) 4))

/-- R76, R80, R81, R82, R118, R175: a conversion writes its operand's value in the destination format, rounded in the mode in force, with its
flags; a code that Table 2.6 does not assign traps ILLEGAL. A conversion to a float rounds as an arithmetic result does; to an integer it clamps
with fnv; to lns6 it takes the nearest, the lower or the upper of the codes about 16 + 4 × log2; to e8m0 the power below, and Table 3.8's results for
infinities and NaNs. (fof from 2^128 on to e8m0, and fnv without fnx to an integer, by log 67.) -/
def Obligations.ConversionsRoundToTheirDestination : Prop :=
  ∀ (d a c : BitVec 5) (s : State),
    let q := s.me.ctx
    let r (f : FloatFmt) : Rounding := ⟨fcrRm q.fcr, q.fcr.getLsbD 4, fcrFtz q.fcr f, drawBits (xorshift q.prng)⟩
    let next := if fcrRm q.fcr = 5 then xorshift q.prng else q.prng
    (∀ p ∈ convertRows d a r q.fcr (s.x a), ∃ t, exec p.1 s = .next t ∧
      WritesFloat s t d (BitVec.ofNat 64 p.2.1) (q.fcr ||| BitVec.ofNat 64 (p.2.2.toNat * 2 ^ 16)) next) ∧
    (5 ≤ c.toNat → exec (.fcvtF32 d a c) s = .next (s.trap 0x01#8 0#64 false s.pc) ∧
      exec (.fcvtF64 d a c) s = .next (s.trap 0x01#8 0#64 false s.pc)) ∧
    ∀ (r : Rounding) (f : FloatFmt) (neg sg signalling : Bool) (w m : Nat) (e : Int), r.rm < 6 → r.draw < 2 ^ 24 → 0 < w →
      (0 < m → RoundedTo f r neg (.quot m 1 e) ((Elem.float f).convert r (.fin neg m e)) ∧
        RoundedToInt sg w r neg (.quot m 1 e) ((Elem.int sg w).convert r (.fin neg m e)) ∧
        RoundedToLns r neg m e (Elem.lns6.convert r (.fin neg m e)) ∧
        ∀ k : Int, (Size.quot m 1 e).vs 1 k ≠ .lt → (Size.quot m 1 e).vs 1 (k + 1) = .lt →
          let exact : Bool := (Size.quot m 1 e).vs 1 k = .eq
          Elem.e8m0.convert r (.fin neg m e) =
            if 127 ≤ k then (0xFE, (if k = 127 ∧ exact then 0#6 else 33#6) ||| (if 128 ≤ k then 4#6 else 0#6))
            else if k < -127 then (0, 3#6) else ((k + 127).toNat, if exact then 0#6 else 1#6)) ∧
      (Elem.float f).convert r (.fin neg 0 e) = (f.sign neg, 0#6) ∧ (Elem.int sg w).convert r (.fin neg 0 e) = (0, 0#6) ∧
      Elem.lns6.convert r (.fin neg 0 e) = (0, 0#6) ∧ Elem.e8m0.convert r (.fin neg 0 e) = (0, 3#6) ∧
      (Elem.float f).convert r (.inf neg) = awayResult f r.sat neg ∧
      (Elem.int sg w).convert r (.inf neg) =
        ((if neg then (if sg then 2 ^ (w - 1) else 0) else if sg then 2 ^ (w - 1) - 1 else 2 ^ w - 1), 16#6) ∧
      Elem.lns6.convert r (.inf neg) = ((if neg then 63 else 31), 32#6) ∧ Elem.e8m0.convert r (.inf neg) = (0xFF, 16#6) ∧
      (Elem.float f).convert r (.nan signalling) =
        (f.nan, if signalling ∨ f = .e3m2 ∨ f = .e2m3 ∨ f = .e2m1 then 16#6 else 0#6) ∧
      (Elem.int sg w).convert r (.nan signalling) = (0, 16#6) ∧ Elem.lns6.convert r (.nan signalling) = (0, 16#6) ∧
      Elem.e8m0.convert r (.nan signalling) = (0xFF, 16#6)

/-! ## Loads and stores (04_scalar.md R113) -/

/-- R113: a load of an aligned, permitted address writes the bytes that the core sees there, extended; a WB page is served by the scalar L1
where it holds them, else by their home, any other by memory behind the core's queued writes. No byte changes at its home, and as the core
sees it one changes to its home's alone. -/
def Obligations.LoadsReadWhatTheCoreSees : Prop :=
  ∀ (d a l b : BitVec 5) (i : BitVec 15) (s s1 : State) (pa : Nat) (policy : BitVec 2), ∀ p ∈ loadRows d a l b i s,
    Reaches s false p.2.2.1 p.2.2.2.1 s1 pa policy → Healthy s1 →
    ∃ t, exec p.1 s = .next t ∧ OnlyCache s1 t ∧ GeneralRegs s t ∧
      HoldsAt s t p.2.1 (extend p.2.2.2.2.1 p.2.2.2.1 (s1.readAt pa policy p.2.2.2.1)) ∧
      t.pc = s.pc + BitVec.ofNat 19 p.2.2.2.2.2 ∧ t.me.ctx.ldst = 0#1 ++ p.2.1 ∧
      (CacheSound s1 → ∀ q, t.homeByte q = s1.homeByte q ∧ (t.seen q = s1.seen q ∨ t.seen q = s1.homeByte q))

/-- R113: a store of an aligned, permitted address changes exactly its bytes, to the low bytes of its data register, as the core sees them on
a WB page, where a line that makes room is seen as its home has it, and in memory, behind the core's queued writes, on any other; it changes
no register but the program counter. -/
def Obligations.StoresChangeExactlyTheirBytes : Prop :=
  ∀ (d a l b : BitVec 5) (i : BitVec 15) (s s1 : State) (pa : Nat) (policy : BitVec 2), ∀ p ∈ storeRows d a l b i s,
    Reaches s true p.2.2.1 p.2.2.2.1 s1 pa policy → Healthy s1 → CacheSound s1 →
    ∃ t, exec p.1 s = .next t ∧ OnlyCache s1 t ∧ t.me.ctx = { s.me.ctx with pc := s.pc + BitVec.ofNat 19 p.2.2.2.2 } ∧ t.Canonical ∧
      (policy = 0#2 → ∀ q,
        (pa ≤ q → q < pa + p.2.2.2.1 →
          t.seen q = BitVec.ofNat 8 ((s.x p.2.1).toNat / 256 ^ (q - pa)) ∧ t.homeByte q = t.seen q) ∧
        (q < pa ∨ pa + p.2.2.2.1 ≤ q → t.homeByte q = s1.homeByte q ∧ (t.seen q = s1.seen q ∨ t.seen q = s1.homeByte q))) ∧
      (policy ≠ 0#2 → t.me.l1 = s1.me.l1 ∧ StoredAtHome s1 t pa p.2.2.2.1 (s.x p.2.1))

/-- R113: a misaligned load or store traps MISALIGNED with its address, before translation; an aligned one under a watch range traps WATCH, before
translation too (log 42, the model's); one whose translation faults takes that fault, a protected page's as PAGE_PROTECT, and stores no
byte. -/
def Obligations.FaultingAccessesTrapWithTheirAddress : Prop :=
  ∀ (d a l b : BitVec 5) (i : BitVec 15) (s : State) (store : Bool) (j : Instr) (va : Word) (n : Nat),
    (store = false → ∃ p ∈ loadRows d a l b i s, j = p.1 ∧ va = p.2.2.1 ∧ n = p.2.2.2.1) →
    (store = true → ∃ p ∈ storeRows d a l b i s, j = p.1 ∧ va = p.2.2.1 ∧ n = p.2.2.2.1) →
    (va.toNat % n ≠ 0 → exec j s = .next (s.trap 0x03#8 va store s.pc)) ∧
    (va.toNat % n = 0 → s.watched s.who store va n = true → exec j s = .next (s.trap 0x10#8 va store s.pc)) ∧
    (∀ s1 f, va.toNat % n = 0 → s.watched s.who store va n = false → s.translateFirst false store va = (s1, .fault f) →
      exec j s = .next (s1.takeFault f va store s.pc)) ∧
    (∀ s1 : State, s1.takeFault .protect va store s.pc = s1.trap 0x06#8 va store s.pc) ∧
    (∀ s1 : State, (s1.takeFault .protect va store s.pc).mem = s1.mem)

/-! ## Exceptions (07_coroutines.md R206 to R211, 04_scalar.md R121 to R123) -/

/-- R39, R121, R123, R124, R206, R208: a trap saves the context as a forced switch does, gives cause, eaddr and epc the trap's values, holds
the coroutine, and queues a record naming it; a crew 0 coroutine that holds an open record halts the core (R211). Memory and every other slot
and core are as before. svc saves x8 to x31 and the dirty v and m registers, holds its coroutine at the next instruction and queues a SERVICE
record with its number, with cause, eaddr and epc of its own (log 45); brk traps BREAKPOINT with its code at its own offset; a reserved
encoding traps ILLEGAL; ifence moves on. -/
def Obligations.TrapsSaveTheContextAndQueueARecord : Prop :=
  (∀ (code : BitVec 8) (eaddr : Word) (st : Bool) (epc : Offset) (s : State) (n : BitVec 8) (u : Slot),
    s.me.run = some n → s.me.slot? n = some u →
    ∃ t w, s.trap code eaddr st epc = t ∧ t.me.run = none ∧ t.me.slot? n = some w ∧
      w.state = .held ∧ w.records = u.records + 1 ∧ w.kind = .forced ∧ KeptByForce s.me.ctx w.ctx ∧
      w.ctx.cause = causeOf s.me.ctx code st ∧ w.ctx.eaddr = eaddr ∧ w.ctx.epc = epc ∧ w.ctx.pc = epc ∧
      t.me.records = s.me.records ++ [⟨code, st, decide (s.me.ctx.vq ≠ [] ∨ s.me.ctx.mq ≠ []), s.me.id ++ n, eaddr, epc, none, false, s.me.id⟩] ∧
      t.me.halted = (s.me.halted || (decide (n < 4#8) && s.me.ctx.record.isSome)) ∧
      (∀ m, m ≠ n → t.me.slot? m = s.me.slot? m) ∧ t.mem = s.mem ∧ t.others = s.others ∧ t.movements = s.movements) ∧
  (∀ (n : BitVec 12) (s : State) (m : BitVec 8) (u : Slot), s.me.run = some m → s.me.slot? m = some u →
    (∃ t w, exec (.svc n) s = .next t ∧ t.me.run = none ∧ t.me.slot? m = some w ∧ w.state = .held ∧ w.records = u.records + 1 ∧
      w.kind = .voluntary ∧ w.ctx.pc = s.pc + 4#19 ∧ w.ctx.epc = s.pc + 4#19 ∧ w.ctx.cause &&& 0xFF#64 = 0#64 ∧
      w.ctx.eaddr = BitVec.ofNat 64 n.toNat ∧ w.ctx.x = s.me.ctx.x ∧
      (∀ i : Fin 32, s.me.ctx.vdirty.getLsbD i.val = true → w.ctx.v[i] = s.me.ctx.v[i]) ∧
      (∀ i : Fin 8, s.me.ctx.vdirty.getLsbD (32 + i.val) = true → w.ctx.m[i] = s.me.ctx.m[i]) ∧
      t.me.records = s.me.records ++ [⟨0x00#8, false, false, s.me.id ++ m, BitVec.ofNat 64 n.toNat, s.pc + 4#19, none, false, s.me.id⟩] ∧
      t.mem = s.mem ∧ t.others = s.others) ∧
    exec (.brk n) s = .next (s.trap 0x0F#8 (BitVec.ofNat 64 n.toNat) false s.pc) ∧
    exec .reservedEncoding s = .next (s.trap 0x01#8 0#64 false s.pc) ∧
    (∃ t, exec .ifence s = .next t ∧ t.me.ctx = { s.me.ctx with pc := s.pc + 4#19 } ∧ t.me.wq = [] ∧
      (Healthy s → CacheSound s → (∀ l ∈ t.me.l1, l.dirty = 0#64) ∧
        ∀ q, t.homeByte q = s.homeByte q ∧ (t.seen q = s.seen q ∨ t.seen q = s.homeByte q))))

/-- R122, R207, R208: tret closes the record that the running coroutine holds, and the coroutine goes on at the next instruction; the one
named, held by this record alone and waiting for nothing, becomes ready at the record's epc with bit 0 cleared. Without an open record tret
traps ILLEGAL. -/
def Obligations.TretReturnsToTheRecordsEpc : Prop :=
  ∀ (s : State) (r : Record) (u : Slot),
    (s.me.ctx.record = none → exec .tret s = .next (s.trap 0x01#8 0#64 false s.pc)) ∧
    (s.me.ctx.record = some r →
      (r.code = 0x0E#8 ∨ r.detached = true →
        exec .tret s = .next (s.updCtx fun c => { c with record := none, pc := c.pc + 4#19 })) ∧
      (r.code ≠ 0x0E#8 → r.detached = false → SlotsSound (s.coreAt (coidCore r.rcoid)) →
        (s.coreAt (coidCore r.rcoid)).slot? (coidSlot r.rcoid) = some u →
        u.state = .held → u.records = 1 → u.crewFault = false → u.waitFor = .nothing →
        ∃ t w, exec .tret s = .next t ∧ t.me.ctx = { s.me.ctx with record := none, pc := s.pc + 4#19 } ∧
          (t.coreAt (coidCore r.rcoid)).slot? (coidSlot r.rcoid) = some w ∧
          w.state = .ready ∧ w.records = 0 ∧ w.ctx = { u.ctx with pc := r.epc &&& 0x7FFFE#19, epc := r.epc &&& 0x7FFFE#19 } ∧
          t.mem = s.mem))

/-! ## Control registers (04_scalar.md R97, R98, R120) -/

/-- R120, R245, Table 4.2: crd writes the register's value to x[d], and of status waits while an outcome of an earlier operation of the
coroutine is still to come; cwr, cset and cclr store the writable fields of their value at the running
level, leave the other registers, memory and the general registers, and move on. A number that Table 2.10 does not assign traps ILLEGAL, and
tvec at U PRIVILEGE. -/
def Obligations.ControlRegistersTakeTheirWritableFields : Prop :=
  ∀ (d a : BitVec 5) (n : BitVec 12) (s : State),
    let denied : Bool := n == 0x033#12 && !s.sup
    (assignedCreg n = false → ∀ i ∈ [Instr.crd d n, .cwr n a, .cset n a, .cclr n a], exec i s = .next (s.trap 0x01#8 0#64 false s.pc)) ∧
    (assignedCreg n = true → denied = true →
      ∀ i ∈ [Instr.crd d n, .cwr n a, .cset n a, .cclr n a], exec i s = .next (s.trap 0x02#8 0#64 false s.pc)) ∧
    (assignedCreg n = true → denied = false →
      (n ≠ 0x007#12 ∨ s.statusPending s.slotNum = false → ∃ t, exec (.crd d n) s = .next t ∧ Writes s t d (s.creg n) 4) ∧
      (n = 0x007#12 → s.statusPending s.slotNum = true → exec (.crd d n) s = .next s) ∧
      ∀ p ∈ [(Instr.cwr n a, s.x a), (.cset n a, s.creg n ||| s.x a), (.cclr n a, s.creg n &&& ~~~s.x a)],
        ∃ t, exec p.1 s = .next t ∧ t.pc = s.pc + 4#19 ∧ (∀ r, t.x r = s.x r) ∧
          (n ≠ 0x003#12 → t.creg n = cregAfter s.sup n.toNat s.me.ctx.record.isSome (s.creg n) p.2) ∧
          (∀ m, m ≠ n → m ≠ 0x003#12 → t.creg m = s.creg m) ∧
          t.mem = s.mem ∧ t.me.ctx.v = s.me.ctx.v ∧ t.me.ctx.m = s.me.ctx.m ∧ t.others = s.others ∧ t.me.records = s.me.records)

/-! ## Vector instructions (05_lanes.md, 06_vector_arithmetic.md) -/

/-- R48, R140, R158, R162, R163, Table 6.5: a vector integer or bitwise operation writes its result into each computed element, zero into
inactive ones under mz and tail ones under tz, keeps every other element, register and byte of memory, and moves on; an illegal form traps. A
division by zero gives all ones or the dividend and sets status.idz where a computed element's divisor is zero. A compact form traps ILLEGAL
where ldst names a scalar register. -/
def Obligations.IntegerVectorFormsActOnEachElement : Prop :=
  (∀ (d a b : BitVec 5) (p : BitVec 4) (s s1 : State),
    let c := s.me.ctx
    let sg := (vtElem c.vtype).isSigned
    let w := vtW c.vtype
    let n := vtN c.vtype
    ∀ ints : Bool, ∀ r ∈ (if ints then vectorIntRows d a b p sg w else vectorBitRows d a b p),
      ∀ f ∈ plainForms s (!ints || decide (vtEt c.vtype ≤ 7)) d a b p r.1 r.2.1 r.2.2.1,
        VStops s f.instr f.legal ∧
        (VIssues s f.legal (vBits d n) s1 → ∃ t, exec f.instr s = .next t ∧ OnlyVector s s1 t f.len (vBits d n) (1#1 ++ d) 0#6 false ∧
          Elements s t d.toNat n w (c.rule f.p fun i => r.2.2.2 (c.elem f.a.toNat w i) (f.b.at c w i) (c.elem d.toNat w i)))) ∧
  (∀ (d a b : BitVec 5) (p : BitVec 4) (s s1 : State),
    let c := s.me.ctx
    let w := vtW c.vtype
    let n := vtN c.vtype
    ∀ r ∈ vectorDivRows d a b p (vtElem c.vtype).isSigned w, ∀ f ∈ plainForms s (decide (vtEt c.vtype ≤ 7)) d a b p r.1 r.2.1 none,
      VStops s f.instr f.legal ∧
      (VIssues s f.legal (vBits d n) s1 → ∃ t, exec f.instr s = .next t ∧
        (let zero := (List.range (vlLen c.vl)).any fun i => c.computes p i && decide (f.b.at c w i = 0)
         let u := s.updCtx fun k => { k with status := if zero then k.status ||| 1#64 else k.status }
         OnlyVector u s1 t 4 (vBits d n) (1#1 ++ d) 0#6 false) ∧
        Elements s t d.toNat n w (c.rule p fun i => r.2.2 (c.elem a.toNat w i) (f.b.at c w i)))) ∧
  (∀ (a b l : BitVec 5) (s : State), s.me.ctx.ldst = 0#1 ++ l →
    ∀ j ∈ [Instr.cVadd a, .cVsub a, .cVmul a, .cVand a, .cVor a, .cVxor a, .cVmin a, .cVmax a, .cVmacc a b],
      exec j s = .next (s.trap 0x01#8 0#64 false s.pc))

/-- R48, R166, R84, R78: a vector float operation rounds each computed element's exact result once as fcr says; fcr gains the flags of the
computed elements, and prng takes vl steps in stochastic mode where the operation rounds. A compact form traps ILLEGAL where ldst names a scalar
register. -/
def Obligations.FloatVectorFormsRoundEachElementOnce : Prop :=
  ∀ (d a b : BitVec 5) (p : BitVec 4) (s s1 : State),
    let c := s.me.ctx
    let g := (vtElem c.vtype).fmt
    let w := vtW c.vtype
    let n := vtN c.vtype
    let num (x : Nat) : Machine.Num := g.read (fcrDaz c.fcr g) x
    let isFloat : Bool := decide (8 ≤ vtEt c.vtype) && decide (vtEt c.vtype ≤ 11)
    let acts (f : VForm) (draws : Bool) (op : Nat → Nat × FFlags) : Prop :=
      VStops s f.instr f.legal ∧
      (VIssues s f.legal (vBits d n) s1 → ∃ t, exec f.instr s = .next t ∧
        OnlyVector s s1 t f.len (vBits d n) (1#1 ++ d) (c.raised f.p fun i => (op i).2) draws ∧
        Elements s t d.toNat n w (c.rule f.p fun i => (op i).1))
    (∀ r ∈ vectorFloatRows d a b p (fcrRm c.fcr), ∀ f ∈ plainForms s isFloat d a b p r.1 r.2.1 r.2.2.1,
      acts f true fun i => g.finish (c.roundingAt (fcrFtz c.fcr g) i)
        (r.2.2.2 (num (c.elem f.a.toNat w i)) (num (f.b.at c w i)) (num (c.elem d.toNat w i)))) ∧
    (acts (plainForm s isFloat (.vfsqrt d a p) 4 d a (.scalar 0#64) p) true fun i =>
      g.finish (c.roundingAt (fcrFtz c.fcr g) i) (sqrtNum (num (c.elem a.toNat w i)))) ∧
    (∀ f ∈ plainForms s isFloat d a b p (.vfminVv d a b p) (.vfminVx d a b p) (some (.cVfmin b, d)),
      acts f false fun i => minMaxBits g (fcrDaz c.fcr g) false (c.elem f.a.toNat w i) (f.b.at c w i)) ∧
    (∀ f ∈ plainForms s isFloat d a b p (.vfmaxVv d a b p) (.vfmaxVx d a b p) (some (.cVfmax b, d)),
      acts f false fun i => minMaxBits g (fcrDaz c.fcr g) true (c.elem f.a.toNat w i) (f.b.at c w i)) ∧
    (∀ l : BitVec 5, c.ldst = 0#1 ++ l → ∀ j ∈ [Instr.cVfadd a, .cVfsub a, .cVfmul a, .cVfmin a, .cVfmax a, .cVfma a b],
      exec j s = .next (s.trap 0x01#8 0#64 false s.pc))

/-- R164, R165, R169: the widening forms give the exact result in the type of twice the width; vnclip rounds A / 2^B to the nearest even
and clamps; vsel takes A where active and B where not. Their destinations follow R137. -/
def Obligations.WideningNarrowingAndSelection : Prop :=
  ∀ (d a b : BitVec 5) (p : BitVec 4) (s s1 : State),
    let c := s.me.ctx
    let t := vtElem c.vtype
    let w := t.width
    let n := vtN c.vtype
    let et := vtEt c.vtype
    let narrow : Bool := decide (et ≤ 2) || (decide (4 ≤ et) && decide (et ≤ 6))
    let float : Bool := decide (9 ≤ et) && decide (et ≤ 11)
    (∀ r ∈ [(Instr.vwaddVv d a b p, Instr.vwaddVx d a b p, 0), (.vwmulVv d a b p, .vwmulVx d a b p, 1),
        (.vwmaccVv d a b p, .vwmaccVx d a b p, 2)],
      ∀ f ∈ apartForms s (narrow || float) d a b p (2 * n) n r.1 r.2.1,
        VStops s f.instr f.legal ∧
        (VIssues s f.legal (vBits d (2 * n)) s1 → ∃ u, exec f.instr s = .next u ∧
          (let op (i : Nat) := widened t r.2.2 c i (c.elem a.toNat w i) (f.b.at c w i) (c.elem d.toNat (2 * w) i)
           OnlyVector s s1 u 4 (vBits d (2 * n)) (1#1 ++ d) (c.raised p fun i => (op i).2) float ∧
            Elements s u d.toNat (2 * n) (2 * w) (c.rule p fun i => (op i).1)))) ∧
    (∀ f ∈ apartForms s narrow d a b p n (2 * n) (.vnclipVv d a b p) (.vnclipVx d a b p),
      VStops s f.instr f.legal ∧
      (VIssues s f.legal (vBits d n) s1 → ∃ u, exec f.instr s = .next u ∧
        OnlyVector s s1 u 4 (vBits d n) (1#1 ++ d) 0#6 false ∧
        Elements s u d.toNat n w (c.rule p fun i => narrowed t.isSigned w (c.elem a.toNat (2 * w) i) (f.b.at c w i % (2 * w))))) ∧
    (∀ f ∈ plainForms s (p != 0#4) d a b p (.vselVv d a b p) (.vselVx d a b p) none,
      VStops s f.instr f.legal ∧
      (VIssues s f.legal (vBits d n) s1 → ∃ u, exec f.instr s = .next u ∧
        OnlyVector s s1 u 4 (vBits d n) (1#1 ++ d) 0#6 false ∧
        Elements s u d.toNat n w fun i =>
          if decide (c.vstart.toNat ≤ i) && decide (i < vlLen c.vl) then some (if c.activeAt p i then c.elem a.toNat w i else f.b.at c w i)
          else if c.clears i then some 0 else none))

/-- R167, Table 6.7: vfrcp, vfrsqrt, vfexp2, vflog2 and vftanh give the listed result and flags for a NaN, an infinity, a zero and a negative
number, and for any other input the device's value, which log 11 leaves open within the spec's bound. -/
def Obligations.SpecialFunctionsKeepTheirListedCases : Prop :=
  (∀ (d a : BitVec 5) (p : BitVec 4) (s s1 : State),
    let c := s.me.ctx
    let t := vtElem c.vtype
    let w := vtW c.vtype
    let n := vtN c.vtype
    ∀ r ∈ specialRows d a p,
      let f := plainForm s (decide (9 ≤ vtEt c.vtype) && decide (vtEt c.vtype ≤ 11)) r.1 4 d a (.scalar 0#64) p
      let op (i : Nat) := specialFn r.2 t.fmt (vtEt c.vtype) c.fcr (c.elem a.toNat w i)
      VStops s f.instr f.legal ∧
      (VIssues s f.legal (vBits d n) s1 → ∃ u, exec f.instr s = .next u ∧
        OnlyVector s s1 u 4 (vBits d n) (1#1 ++ d) (c.raised p fun i => (op i).2) false ∧
        Elements s u d.toNat n w (c.rule p fun i => (op i).1))) ∧
  ∀ (fn code x : Nat) (f : FloatFmt) (fcr : Word) (r : Nat × FFlags), fn < 5 →
    specialCase f fn (f.read (fcrDaz fcr f) x) = some r → specialFn fn f code fcr x = r

/-- R173, R174: vcvt gives each computed element's value in the target type, integers clamped and every other pair rounded as fcr says; a
pair that Table 6.11 does not list is illegal. -/
def Obligations.VectorConversionsRoundToTheTarget : Prop :=
  ∀ (d a e : BitVec 5) (p : BitVec 4) (s s1 : State) (dst : Elem),
    let c := s.me.ctx
    let src := vtElem c.vtype
    let n := vtN c.vtype
    let nd := max 1 (n * dst.width / src.width)
    let legal : Bool := decide (e.toNat ≤ 18) && converts src dst && decide (n * dst.width ≤ 8 * src.width) && groupOk d nd &&
      groupOk a n && (if src.width = dst.width then sameOrDisjoint d a n else disjoint d nd a n) && predOk c.vtype p
    let draws : Bool := match src, dst with
      | .int _ _, .int _ _ => false
      | _, .e8m0 => false
      | _, _ => true
    let op (i : Nat) := converted src dst c i (c.elem a.toNat src.width i)
    (18 < e.toNat → VStops s (.vcvt d a e p) false) ∧
    (elemOf e.toNat = some dst → VStops s (.vcvt d a e p) legal ∧
      (VIssues s legal (vBits d nd) s1 → ∃ u, exec (.vcvt d a e p) s = .next u ∧
        OnlyVector s s1 u 4 (vBits d nd) (1#1 ++ d) (c.raised p fun i => (op i).2) draws ∧
        Elements s u d.toNat nd dst.width (c.rule p fun i => (op i).1)))

/-- R176, R177: vcvt.mx gives each block of 32 f32 elements a scale byte and each element 2^-scale times its value in the narrow type,
saturating; a block with scale FF holds zeros (that ldst then names d is log 62, the model's). vpack puts the low 6 bits of the containers
side by side, and vunpack takes them apart, from vstart on. -/
def Obligations.BlockScalesAndDensePacking : Prop :=
  ∀ (d a b : BitVec 5) (s s1 : State),
    let c := s.me.ctx
    let t := vtElem c.vtype
    let f := t.fmt
    let w := t.width
    let n := vtN c.vtype
    let na := n * 32 / w
    let len := vlLen c.vl
    let src (i : Nat) : Machine.Num := if vlReal c.vl ≤ i then .fin false 0 0 else FloatFmt.f32.read (fcrDaz c.fcr .f32) (c.elem a.toNat 32 i)
    let scale (k : Nat) : Nat := scaleByte (mxEmax f) ((List.range 32).map fun j => src (32 * k + j))
    let op (i : Nat) : Nat × FFlags :=
      if scale (i / 32) = 255 then (0, 16#6)
      else (Elem.float f).convert { c.roundingAt (fcrFtz c.fcr f) i with sat := true }
        (match src i with
          | .fin g m k => .fin g m (k - ((scale (i / 32) : Int) - 127))
          | x => x)
    let first := 32 * (c.vstart.toNat / 32)
    let mx : Bool := decide (12 ≤ vtEt c.vtype) && decide (vtEt c.vtype ≤ 16) && decide (vtBlk c.vtype = 32) && decide (na ≤ 8) &&
      groupOk d n && groupOk a na && disjoint d n a na && disjoint d n b 1 && disjoint a na b 1
    let dense : Bool := (vtEt c.vtype == 14 || vtEt c.vtype == 15 || vtEt c.vtype == 17) && apartOk c.vtype d a n n (.scalar 0#64) 0#4
    let bytes := (6 * len + 7) / 8
    (VStops s (.vcvtMx d a b) mx ∧
      (VIssues s mx (vBits d n ||| vBits b 1) s1 → ∃ u, exec (.vcvtMx d a b) s = .next u ∧
        OnlyVector s s1 u 4 (vBits d n ||| vBits b 1) (1#1 ++ d)
          (((List.range len).filter fun i => decide (first ≤ i)).foldl (fun acc i => acc ||| (op i).2) 0#6) true ∧
        (∀ i, i < n * 16384 / w → u.me.ctx.elem d.toNat w i =
          if first ≤ i ∧ i < len then (op i).1 else if c.clears i then 0 else c.elem d.toNat w i) ∧
        (∀ k, k < 2048 → u.me.ctx.elem b.toNat 8 k =
          if first / 32 ≤ k ∧ k < len / 32 then scale k
          else if vtTz c.vtype ∧ c.vstart.toNat < len ∧ len / 32 ≤ k ∧ k < vlMax c.vtype / 32 then 0 else c.elem b.toNat 8 k) ∧
        (∀ r : Fin 32, (r.val < d.toNat ∨ d.toNat + n ≤ r.val) → r.val ≠ b.toNat → u.me.ctx.v[r] = c.v[r]))) ∧
    (VStops s (.vpack d a) dense ∧
      (VIssues s dense (vBits d n) s1 → ∃ u, exec (.vpack d a) s = .next u ∧ OnlyVector s s1 u 4 (vBits d n) (1#1 ++ d) 0#6 false ∧
        Elements s u d.toNat n 1 (fun k =>
          if len ≤ c.vstart.toNat ∨ k < 6 * c.vstart.toNat then none
          else if k < 6 * len then some (c.elem a.toNat 8 (k / 6) / 2 ^ (k % 6) % 2)
          else if k < 8 * bytes ∨ vtTz c.vtype then some 0 else none))) ∧
    (VStops s (.vunpack d a) dense ∧
      (VIssues s dense (vBits d n) s1 → ∃ u, exec (.vunpack d a) s = .next u ∧ OnlyVector s s1 u 4 (vBits d n) (1#1 ++ d) 0#6 false ∧
        Elements s u d.toNat n 8 (fun k => if c.vstart.toNat ≤ k ∧ k < len then
            some ((List.range 6).foldl (fun acc j => acc + 2 ^ j * c.elem a.toNat 1 (6 * k + j)) 0)
          else if c.clears k then some 0 else none)))

/-- R170 to R172, R184: a compare writes 1 or 0 into the bits of its computed elements by its condition, with −0 equal to +0 and a NaN
unordered; inactive and tail bits follow mz and tz. Mask logic acts bit by bit from vstart to vl. mpop counts the bits of a mask below vl and
mfirst finds the lowest, all ones where there is none; vmvx reads one element, 0 at vl or above; the last three write x[d] alone. -/
def Obligations.ComparesAndMaskLogicWriteTheirResult : Prop :=
  (∀ (d a b : BitVec 5) (k : BitVec 1) (e p : BitVec 4) (s s1 : State),
      let c := s.me.ctx
      let t := vtElem c.vtype
      let w := t.width
      let n := vtN c.vtype
      let g := maskRegs c.vtype
      let src : VSrc := if k = 1#1 then .scalar (s.x b) else .reg b
      let groups : Bool := decide (d.toNat ≤ 7) && maskOk c.vtype d.toNat && groupOk a n && (decide (k = 1#1) || groupOk b n) && predOk c.vtype p
      let masks : Bool := decide (d.toNat ≤ 7) && decide (a.toNat ≤ 7) && decide (b.toNat ≤ 7) && maskOk c.vtype d.toNat &&
        maskOk c.vtype a.toNat && maskOk c.vtype b.toNat
      let one : Bool := decide (d.toNat ≤ 7) && decide (a.toNat ≤ 7) && maskOk c.vtype d.toNat && maskOk c.vtype a.toNat
      let compares (i : Instr) (legal : Bool) (op : Nat → Bool × FFlags) : Prop :=
        VStops s i legal ∧
        (VIssues s legal (mBits d.toNat g) s1 → ∃ u, exec i s = .next u ∧ OnlyMask s s1 u (mBits d.toNat g) (c.raised p fun j => (op j).2) ∧
          MaskBits s u d.toNat g fun j =>
            if c.computes p j then some (op j).1
            else if decide (c.vstart.toNat ≤ j) && decide (j < vlLen c.vl) && vtMz c.vtype then some false
            else if c.clears j then some false else none)
      let logic (i : Instr) (legal : Bool) (op : Nat → Bool) : Prop :=
        VStops s i legal ∧
        (VIssues s legal (mBits d.toNat g) s1 → ∃ u, exec i s = .next u ∧ OnlyMask s s1 u (mBits d.toNat g) 0#6 ∧
          MaskBits s u d.toNat g fun j =>
            if decide (c.vstart.toNat ≤ j) && decide (j < vlLen c.vl) then some (op j) else if c.clears j then some false else none)
      let bit (r : BitVec 5) (j : Nat) : Bool := c.maskBit r.toNat j
      (compares (.vcmp d a b k e p) (decide (vtEt c.vtype ≤ 7) && decide (e.toNat ≤ 5) && groups) fun j =>
        (intCondition e.toNat (value t.isSigned w (c.elem a.toNat w j)) (value t.isSigned w (src.at c w j)), 0#6)) ∧
      (compares (.vfcmp d a b k e p) (decide (8 ≤ vtEt c.vtype) && decide (vtEt c.vtype ≤ 11) && decide (e.toNat ≤ 7) && groups) fun j =>
        floatCondition e.toNat (t.read c.fcr (c.elem a.toNat w j)) (t.read c.fcr (src.at c w j))) ∧
      logic (.mand d a b) masks (fun j => bit a j && bit b j) ∧ logic (.mor d a b) masks (fun j => bit a j || bit b j) ∧
      logic (.mxor d a b) masks (fun j => bit a j != bit b j) ∧ logic (.mnot d a) one (fun j => !bit a j)) ∧
  (∀ (d a b : BitVec 5) (s : State),
      let c := s.me.ctx
      let ones := (List.range (vlLen c.vl)).filter fun j => c.maskBit a.toNat j
      let maskLegal : Bool := decide (a.toNat ≤ 7) && maskOk c.vtype a.toNat
      let issues : Prop := c.status.getLsbD 8 = false ∧ shapeOk c.vl c.vtype = true
      VStops s (.mpop d a) maskLegal ∧ VStops s (.mfirst d a) maskLegal ∧ VStops s (.vmvx d a b) (groupOk a (vtN c.vtype)) ∧
      (issues → maskLegal = true →
        (∃ t, exec (.mpop d a) s = .next t ∧ Writes s t d (BitVec.ofNat 64 ones.length) 4) ∧
        (∃ t, exec (.mfirst d a) s = .next t ∧ Writes s t d ((ones.head?.map (BitVec.ofNat 64)).getD (BitVec.allOnes 64)) 4)) ∧
      (issues → groupOk a (vtN c.vtype) = true → ∃ t, exec (.vmvx d a b) s = .next t ∧
        Writes s t d (if (s.x b).toNat < vlLen c.vl then asScalar (vtElem c.vtype) (c.elem a.toNat (vtW c.vtype) (s.x b).toNat) else 0#64) 4))

/-- R91, R92, R178 to R180: a reduction combines the active elements below vl, integers in any order and floats by the pairwise tree over their
indices, and writes the result, or the identity where none is present, to x[d]; a scan gives each active element the operation over the
present elements up to it, integers as a prefix and floats row by row with a carry, and its inactive and tail elements follow mz and tz.
Each changes its shadow register besides. -/
def Obligations.ReductionsAndScansFollowTheirTrees : Prop :=
  (∀ (d a b : BitVec 5) (o : BitVec 3) (p : BitVec 4) (float : Bool) (s s1 : State),
    let c := s.me.ctx
    let t := vtElem c.vtype
    let w := t.width
    let present := (List.range (vlLen c.vl)).filter (c.activeAt p)
    let i : Instr := if float then .vfred d a b o p else .vred d a b o p
    let types : Bool := if float then decide (8 ≤ vtEt c.vtype) && decide (vtEt c.vtype ≤ 11) && decide (o.toNat ≤ 2)
      else decide (vtEt c.vtype ≤ 7) && decide (o.toNat ≤ 5)
    let legal : Bool := types && decide (b.toNat ≤ 3) && groupOk a (vtN c.vtype) && predOk c.vtype p
    let leaf (j : Nat) : Option Nat :=
      if c.activeAt p j ∧ j < vlLen c.vl then some (t.fmt.dazBits (fcrDaz c.fcr t.fmt) (c.elem a.toNat w j)) else none
    let tree := pairTree (floatFold t.fmt o.toNat c.fcr) leaf (Nat.log2 (vlMax c.vtype)) 0
    let result : Nat × FFlags :=
      if float then (tree.1.getD (floatIdentity t.fmt o.toNat), tree.2)
      else match present.map fun j => c.elem a.toNat w j with
        | [] => (intIdentity t.isSigned w o.toNat, 0#6)
        | x :: r => (r.foldl (intFold t.isSigned w o.toNat) x, 0#6)
    VStops s i legal ∧
    (VIssues s legal (shBit (b.setWidth 2)) s1 → ∃ u, exec i s = .next u ∧ u.me.ctx.v = c.v ∧ u.me.ctx.m = c.m ∧
      (∃ flags,
        OnlyVector (s.updCtx fun q => { q with x := u.me.ctx.x, sh := u.me.ctx.sh }) s1 u 4 (shBit (b.setWidth 2)) (0#1 ++ d) flags false ∧
        (c.vstart = 0#16 → flags = result.2)) ∧
      (∀ k : Fin 4, k.val ≠ b.toNat → u.me.ctx.sh[k] = c.sh[k]) ∧ (∀ r, r ≠ d → u.x r = s.x r) ∧
      (c.vstart = 0#16 → HoldsAt s u d (asScalar t result.1)))) ∧
  (∀ (d a b : BitVec 5) (o : BitVec 3) (p : BitVec 4) (float : Bool) (s s1 : State),
    let c := s.me.ctx
    let t := vtElem c.vtype
    let w := t.width
    let n := vtN c.vtype
    let k := Nat.log2 (2048 / w)
    let i : Instr := if float then .vscanFloat d a b o p else .vscan d a b o p
    let types : Bool := if float then decide (8 ≤ vtEt c.vtype) && decide (vtEt c.vtype ≤ 11) && decide (o.toNat ≤ 2)
      else decide (vtEt c.vtype ≤ 7) && decide (o.toNat ≤ 5)
    let legal : Bool := types && decide (b.toNat ≤ 3) && apartOk c.vtype d a n n (.scalar 0#64) p
    let dirty := vBits d n ||| shBit (b.setWidth 2)
    let leaf (j : Nat) : Option Nat :=
      if c.activeAt p j ∧ j < vlLen c.vl then some (t.fmt.dazBits (fcrDaz c.fcr t.fmt) (c.elem a.toNat w j)) else none
    let f := floatFold t.fmt o.toNat c.fcr
    let row (j : Nat) : Option Nat × FFlags :=
      rowOutput f (fun m => leaf (j / 2 ^ k * 2 ^ k + m)) k (carryInto f leaf k (j / 2 ^ k)) (j % 2 ^ k)
    let ints (j : Nat) : Nat :=
      match ((List.range (j + 1)).filter (c.activeAt p)).map fun m => c.elem a.toNat w m with
      | [] => 0
      | x :: r => r.foldl (intFold t.isSigned w o.toNat) x
    let op (j : Nat) : Nat × FFlags := if float then ((row j).1.getD 0, (row j).2) else (ints j, 0#6)
    VStops s i legal ∧
    (VIssues s legal dirty s1 → ∃ u, exec i s = .next u ∧
      (∃ flags, OnlyVector (s.updCtx fun q => { q with sh := u.me.ctx.sh }) s1 u 4 dirty (1#1 ++ d) flags false ∧
        (c.vstart = 0#16 → flags = c.raised p fun j => (op j).2)) ∧
      (∀ m : Fin 4, m.val ≠ b.toNat → u.me.ctx.sh[m] = c.sh[m]) ∧
      (∀ r : Fin 32, r.val < d.toNat ∨ d.toNat + n ≤ r.val → u.me.ctx.v[r] = c.v[r]) ∧
      (c.vstart = 0#16 → Elements s u d.toNat n w (c.rule p fun j => (op j).1))))

/-- R182, R183: vslide moves elements by x[b], vrgather picks them by index, both with zero from outside vl; vcompress packs the elements
whose mask bit is set; vid writes indices, vbcast one scalar, vmv.vv a copy. -/
def Obligations.PermutesMoveElements : Prop :=
  ∀ (d a b : BitVec 5) (p : BitVec 4) (s s1 : State),
    let c := s.me.ctx
    let w := vtW c.vtype
    let n := vtN c.vtype
    let len := vlLen c.vl
    let A (j : Nat) : Nat := c.elem a.toNat w j
    let acts (i : Instr) (legal : Bool) (op : Nat → Nat) : Prop :=
      VStops s i legal ∧
      (VIssues s legal (vBits d n) s1 → ∃ u, exec i s = .next u ∧ OnlyVector s s1 u 4 (vBits d n) (1#1 ++ d) 0#6 false ∧
        Elements s u d.toNat n w (c.rule p op))
    let chosen := (List.range (max c.vstart.toNat len)).filter fun j => c.maskBit b.toNat j
    let before := ((List.range c.vstart.toNat).filter fun j => c.maskBit b.toNat j).length
    let packs : Bool := decide (b.toNat ≤ 7) && maskOk c.vtype b.toNat && apartOk c.vtype d a n n (.scalar 0#64) 0#4
    acts (.vslide d a b p) (apartOk c.vtype d a n n (.scalar 0#64) p) (fun j =>
      let q : Int := j + (s.x b).toInt
      if 0 ≤ q ∧ q < len then A q.toNat else 0) ∧
    acts (.vrgather d a b p) (vtEt c.vtype != 16 && apartOk c.vtype d a n n (.reg b) p)
      (fun j => if c.elem b.toNat w j < len then A (c.elem b.toNat w j) else 0) ∧
    acts (.vid d p) (decide (vtEt c.vtype ≤ 7) && plainOk c.vtype d d (.scalar 0#64) p) (fun j => j % 2 ^ w) ∧
    acts (.vbcast d a p) (plainOk c.vtype d d (.scalar 0#64) p) (fun _ => (s.x a).toNat % 2 ^ w) ∧
    acts (.vmvv d a p) (plainOk c.vtype d a (.scalar 0#64) p) A ∧
    VStops s (.vcompress d a b) packs ∧
    (VIssues s packs (vBits d n) s1 → ∃ u, exec (.vcompress d a b) s = .next u ∧
      OnlyVector s s1 u 4 (vBits d n) (1#1 ++ d) 0#6 false ∧
      Elements s u d.toNat n w fun j =>
        if before ≤ j ∧ j < chosen.length then some (A (chosen.getD j 0))
        else if vtTz c.vtype ∧ c.vstart.toNat < len ∧ chosen.length ≤ j ∧ j < vlMax c.vtype then some 0 else none)

/-- R151 to R153, R155: vset and vseti set the type asked for and the length min(avl, VLMAX), rounded up to whole blocks, and write it to
x[d]; a request that vset cannot honour gives vill, and vseti's type above 18 traps. vrel zeroes every v, m and s register and vdirty, and
leaves vl, vtype, vstart, fcr and prng, and by log 62, the model's, ldst; vsync changes nothing once the queues are empty. -/
def Obligations.ShapeIsSetAndReleased : Prop :=
  ∀ (d a b : BitVec 5) (imm : BitVec 12) (s : State), s.Keeps → s.me.stepWaits s.slotNum = false →
    let c := s.me.ctx
    let sets (i : Instr) (req : Word) : Prop :=
      let avl := if a = 0#5 then 2 ^ 64 else (s.x a).toNat
      let bad : Bool := decide (4096 ≤ req.toNat) || decide (18 < req.toNat % 32)
      let vlmax := 16384 * 2 ^ (req.toNat / 32 % 4) / ((elemOf (req.toNat % 32)).getD (.int true 8)).width
      let blk := 2 ^ (req.toNat / 512 % 8)
      let nreal := if bad then 0 else min avl vlmax
      let len := (nreal + blk - 1) / blk * blk
      ∃ t, exec i s = .next t ∧ OnlyContext { s with me := s.me.retireStep s.slotNum } t ∧ HoldsAt s t d (BitVec.ofNat 64 nreal) ∧
        t.me.ctx = { c with
          x := t.me.ctx.x, ldst := 0#1 ++ d, pc := s.pc + 4#19, vtype := if bad then 0x8000000000000000#64 else req,
          vl := BitVec.ofNat 64 (if bad then 0 else nreal * 65536 + len) }
    sets (.vset d a b) (s.x b) ∧
    (imm.toNat % 32 ≤ 18 → sets (.vseti d a imm) (imm.zeroExtend 64)) ∧
    (18 < imm.toNat % 32 → exec (.vseti d a imm) s = .next (s.trap 0x01#8 0#64 false s.pc)) ∧
    (c.status.getLsbD 8 = true → exec .vrel s = .next (s.trap 0x04#8 0#64 false s.pc)) ∧
    (c.status.getLsbD 8 = false → ∃ t, exec .vrel s = .next t ∧ OnlyContext s t ∧
      t.me.ctx = { c with
        pc := s.pc + 4#19, v := Vector.replicate 32 0#16384, m := Vector.replicate 8 0#2048, sh := Vector.replicate 4 0#1024, vdirty := 0#64 }) ∧
    exec .vsync s = .next (s.updCtx fun q => { q with pc := s.pc + 4#19 })

/-! ## Vector memory (10_scratchpad_copy.md, 09_visibility.md) -/

/-- R300, R301, R305, R263, R274: a vector load whose elements all have their translation gives each computed element what its home holds, or
what the scalar L1 keeps of a WB page, its pad above nreal, zero in inactive elements under mz and in the tail under tz, for every field; no
byte of memory as the core sees it, and no other register, changes. -/
def Obligations.VectorLoadsReadEachElement : Prop :=
  ∀ (d a b : BitVec 5) (g : BitVec 6) (p : BitVec 4) (s s1 : State) (pa : Nat → Nat → Nat) (policy : Nat → Nat → BitVec 2), ∀ m ∈ vectorLoads d a b g p s,
    let c := s.me.ctx
    let w := vtW c.vtype
    let n := vtN c.vtype
    let dirty := vBits d (m.fields * n)
    VStops s m.instr m.legal ∧
    (VIssues s m.legal dirty s1 → CacheSound s1 → Healthy s1 → ElementsReach s1 false p (vlReal c.vl) m pa policy →
      (m.instr = .vldChase d a b p → ∀ i, s1.chaseWaits ((s.x b).setWidth 2) (pa i 0) = false) →
      ∃ u, exec m.instr s = .next u ∧ OnlyCache s1 u ∧
        OnlyVector s u u 4 dirty (1#1 ++ d) 0#6 false ∧
        (∀ r : Fin 32, r.val < d.toNat ∨ d.toNat + m.fields * n ≤ r.val → u.me.ctx.v[r] = c.v[r]) ∧
        (∀ f, f < m.fields → ∀ i, i < vlMax c.vtype → u.me.ctx.elem (d.toNat + f * n) w i =
          (c.rule p (fun j => if vlReal c.vl ≤ j then (vtElem c.vtype).pad
            else s1.laneNum (pa j f) (max 1 (w / 8)) (policy j f) / (if w = 4 then 16 ^ (j % 2) else 1) % 2 ^ w) i).getD
              (c.elem (d.toNat + f * n) w i)) ∧
        ∀ q, u.homeByte q = s1.homeByte q)

/-- R301, R276 to R278, R283: a vector store whose elements all have their translation writes each computed element below nreal at its
address and no other byte; of elements that write the same bytes the highest one of an ordered store, and some one of an unordered store,
stays. It changes no register but the program counter and vstart. -/
def Obligations.VectorStoresWriteEachElement : Prop :=
  ∀ (d a b : BitVec 5) (p : BitVec 4) (s s1 : State) (pa : Nat → Nat → Nat) (policy : Nat → Nat → BitVec 2), ∀ m ∈ vectorStores d a b p s,
    let c := s.me.ctx
    let w := vtW c.vtype
    let writers (x : Nat) : List Nat :=
      (List.range (vlReal c.vl)).filter fun i => c.computes p i && takesHalf w i (pa i 0) x
    VStops s m.1.instr m.1.legal ∧
    (VIssues s m.1.legal 0#64 s1 → CacheSound s1 → Healthy s1 → ElementsReach s1 true p (vlReal c.vl) m.1 pa policy →
      ∃ u, exec m.1.instr s = .next u ∧ OnlyCache s1 u ∧ u.me.ctx = { c with pc := s.pc + 4#19, vstart := 0#16 } ∧
        ∀ x, resourceByte (x / 2) = none →
          (writers x = [] → u.homeHalf x = s1.homeHalf x) ∧
          (m.2 = true → ∀ i, (writers x).getLast? = some i → u.homeHalf x = halfAt w i (pa i 0) (c.elem d.toNat w i) x) ∧
          (writers x ≠ [] → ∃ i ∈ writers x, u.homeHalf x = halfAt w i (pa i 0) (c.elem d.toNat w i) x))

/-- R294: vamo.add adds each computed element to the 32 or 64 bits at its address, once each, modulo 2^w; no other byte and no register but
the program counter and vstart changes. R302, R149: a vector access whose first computed element is misaligned stops there with vstart
naming it and its address in eaddr. -/
def Obligations.VectorAtomicsAddAndMisalignedElementsStop : Prop :=
  ∀ (d a b : BitVec 5) (g : BitVec 6) (p : BitVec 4) (s s1 : State) (pa : Nat → Nat → Nat) (policy : Nat → Nat → BitVec 2) (k : BitVec 8)
      (slot : Slot),
    let c := s.me.ctx
    let w := vtW c.vtype
    let n := vtN c.vtype
    let et := vtEt c.vtype
    let m : MForm := ⟨.vamoAdd d a b p, 1, fun i _ => s.x a + BitVec.ofNat 64 (c.elem b.toNat w i * (w / 8)),
      (et == 2 || et == 3 || et == 6 || et == 7) && groupOk d n && groupOk b n && predOk c.vtype p⟩
    (VStops s m.instr m.legal ∧
      (VIssues s m.legal 0#64 s1 → CacheSound s1 → Healthy s1 → ElementsReach s1 true p (vlLen c.vl) m pa policy →
        (∀ i, c.computes p i = true → s1.watched s1.who false (m.addr i 0) (w / 8) = false) →
        (∀ i, pa i 0 < hostBase ∧ resourceByte (pa i 0) = none) →
        ∃ u, exec m.instr s = .next u ∧ OnlyCache s1 u ∧ u.me.ctx = { c with pc := s.pc + 4#19, vstart := 0#16 } ∧
          ∀ q, q % (w / 8) = 0 → resourceByte q = none →
            u.homeNum q (w / 8) = (((List.range (vlLen c.vl)).filter fun i => c.computes p i && decide (pa i 0 = q)).foldl
              (fun acc i => acc + c.elem d.toNat w i) (s1.homeNum q (w / 8))) % 2 ^ w)) ∧
    (∀ f ∈ (vectorLoads d a b g p s).map (fun f => (f, false, vBits d (f.fields * n), vlReal c.vl)) ++
        (vectorStores d a b p s).map (fun f => (f.1, true, 0#64, vlReal c.vl)) ++ [(m, true, 0#64, vlLen c.vl)],
      ∀ i, VIssues s f.1.legal f.2.2.1 s1 → (f.1.instr = .vldChase d a b p → ∀ q, s1.chaseWaits ((s.x b).setWidth 2) q = false) →
        s1.me.run = some k → s1.me.slot? k = some slot →
        (∀ j, j < i → c.computes p j = false) → c.computes p i = true → i < f.2.2.2 → (f.1.addr i 0).toNat % max 1 (w / 8) ≠ 0 →
        ∃ u t, exec f.1.instr s = .next u ∧ u.me.run = none ∧ u.me.slot? k = some t ∧ t.state = .held ∧
          t.ctx.vstart = BitVec.ofNat 16 i ∧ t.ctx.eaddr = f.1.addr i 0 ∧
          t.ctx.cause = (if f.2.1 then 0x303#64 else 0x103#64) ∧ t.ctx.pc = s.pc + 4#19 ∧ t.ctx.vq.length = 1 ∧ u.mem = s1.mem)

/-! ## Atomics, acquires and releases (09_visibility.md) -/

/-- R289 to R291, R464, Table 9.10: an amo writes the old doubleword to x[d] and its operation's result to memory in one step, with the
release before it and the acquire after it that its bits ask for; a hardware resource cell keeps its value; a misaligned address traps
MISALIGNED, one under a watch range for loads or for stores WATCH, before translation by log 42, the model's, and a host address PAGE_FAR but
for add, swap and cas. -/
def Obligations.AtomicsReadAndUpdateOneDoubleword : Prop :=
  ∀ (d a b : BitVec 5) (q l : BitVec 1) (sc : BitVec 3) (s s1 : State) (pa : Nat) (policy : BitVec 2),
    ∀ r ∈ amoRows d a b q l sc (s.x b) (s.x d),
      let va := s.x a
      let s0 := if l = 1#1 then s.release sc else s
      (va.toNat % 8 ≠ 0 → exec r.1 s = .next (s.trap 0x03#8 va true s.pc)) ∧
      (va.toNat % 8 = 0 → s0.watched s0.who false va 8 = true ∨ s0.watched s0.who true va 8 = true → exec r.1 s = .next (s0.trap 0x10#8 va true s.pc)) ∧
      (∀ f, va.toNat % 8 = 0 → s0.watched s0.who false va 8 = false → s0.watched s0.who true va 8 = false →
        s0.translateFirst false true va = (s1, .fault f) →
        exec r.1 s = .next (s1.takeFault f va true s.pc)) ∧
      (Reaches s0 true va 8 s1 pa policy → s0.watched s0.who false va 8 = false → hostBase ≤ pa → r.2.1 = false → exec r.1 s = .next (s1.takeFault .far va true s.pc)) ∧
      (Reaches s0 true va 8 s1 pa policy → s0.watched s0.who false va 8 = false → (pa < hostBase ∨ r.2.1 = true) → Healthy s1 → CacheSound s1 →
        ∃ t, exec r.1 s = .next t ∧ OnlyCache s1 t ∧ GeneralRegs s t ∧
          (let old : Word := BitVec.ofNat 64 (s1.homeNum pa 8)
           HoldsAt s t d old ∧
            (match resourceByte pa, r.2.2 old with
              | none, some v => HomeStored s1 t pa v
              | _, _ => HomeKept s1 t)) ∧
          t.pc = s.pc + 4#19 ∧ t.me.ctx.ldst = 0#1 ++ d ∧ (l = 1#1 → Healthy s → CacheSound s → Released sc t) ∧ (q = 1#1 → Acquired sc t))

/-- R292, R270, R271, R286, R293: ld.aq reads its doubleword at its home beyond core scope and then acquires; st.rl releases and then stores
there, and a form that traps does neither, under a watch range before translation (log 42, the model's); the fences acquire, release or do
both; cclean writes back and cinval also drops the lines of its range, in the scalar L1 and in L2, or all of the scalar L1's where a is 0. -/
def Obligations.AcquiresReleasesAndCleans : Prop :=
  ∀ (d a b : BitVec 5) (sc : BitVec 3) (s s1 : State) (pa : Nat) (policy : BitVec 2),
    let va := s.x a
    (va.toNat % 8 ≠ 0 → exec (.ldAq d a sc) s = .next (s.trap 0x03#8 va false s.pc) ∧
      exec (.stRl d a sc) s = .next (s.trap 0x03#8 va true s.pc)) ∧
    (va.toNat % 8 = 0 →
      (s.watched s.who false va 8 = true → exec (.ldAq d a sc) s = .next (s.trap 0x10#8 va false s.pc)) ∧
      (s.watched s.who true va 8 = true → exec (.stRl d a sc) s = .next (s.trap 0x10#8 va true s.pc)) ∧
      (∀ f, s.watched s.who false va 8 = false → s.translateFirst false false va = (s1, .fault f) →
        exec (.ldAq d a sc) s = .next (s1.takeFault f va false s.pc)) ∧
      (∀ f, s.watched s.who true va 8 = false → s.translateFirst false true va = (s1, .fault f) →
        exec (.stRl d a sc) s = .next (s1.takeFault f va true s.pc))) ∧
    (Reaches s false va 8 s1 pa policy → Healthy s1 → CacheSound s1 → ∃ t, exec (.ldAq d a sc) s = .next t ∧ OnlyCache s1 t ∧
      GeneralRegs s t ∧ HoldsAt s t d (BitVec.ofNat 64 (if sc = 0#3 then s1.readAt pa policy 8 else s1.homeNum pa 8)) ∧
      t.pc = s.pc + 4#19 ∧ t.me.ctx.ldst = 0#1 ++ d ∧ HomeKept s1 t ∧ Acquired sc t) ∧
    (Reaches s true va 8 s1 pa policy → Healthy s1 → CacheSound s1 → resourceByte pa = none →
      ∃ t, exec (.stRl d a sc) s = .next t ∧ OnlyCache s1 t ∧ t.me.ctx = { s.me.ctx with pc := s.pc + 4#19 } ∧
        Released sc t ∧
        (sc ≠ 0#3 ∨ policy = 0#2 → HomeStored s1 t pa (s.x d)) ∧
        (sc = 0#3 → policy ≠ 0#2 → t.me.l1 = s1.me.l1 ∧ StoredAtHome s1 t pa 8 (s.x d))) ∧
    (Healthy s → CacheSound s →
      (∀ p ∈ [(Instr.fenceAcq sc, true, false), (.fenceRel sc, false, true), (.fence sc, true, true)],
        ∃ t, exec p.1 s = .next t ∧ OnlyCache s t ∧ t.me.ctx = { s.me.ctx with pc := s.pc + 4#19 } ∧ HomeKept s t ∧
          (p.2.1 = true → Acquired sc t) ∧ (p.2.2 = true → Released sc t)) ∧
      (∀ p ∈ [(Instr.cclean a b, false), (.cinval a b, true)],
        let n := min (s.x b).toNat (2 ^ 32)
        let starts (o : Nat) : Prop := o < n ∧ (o = 0 ∨ (va.toNat + o) % 4096 = 0)
        ∀ place : Nat → Nat,
          (a ≠ 0#5 → ∀ o, starts o → ∃ policy, s.translateFirst false false (va + BitVec.ofNat 64 o) = (s, .ok (place o) policy)) →
          ∃ t, exec p.1 s = .next t ∧ OnlyCache s t ∧ t.me.ctx = { s.me.ctx with pc := s.pc + 4#19 } ∧ HomeKept s t ∧
            (∀ l ∈ t.me.l1,
              a = 0#5 ∨ (∃ o j, starts o ∧ o + j < n ∧ j < 4096 - (va.toNat + o) % 4096 ∧ l.line = (place o + j) / 64) →
              p.2 = false ∧ l.dirty = 0#64) ∧
            (a ≠ 0#5 → (s.l2.map (·.line)).Nodup → ∀ m ∈ t.l2,
              (∃ o j, starts o ∧ o + j < n ∧ j < 4096 - (va.toNat + o) % 4096 ∧ m.line = (place o + j) / 256) →
              p.2 = false ∧ m.dirty = false)))

/-! ## Tokens (08_tokens.md) -/

/-- R234, R235, R236, R240, R244, R256, R258: tkarrive, tksig and fut.set release, which tkexpect does not; each changes the cell as its kind
says, and moves on; an operation whose kind does not fit only sets status.tkst, where the handle is of this device, and one on a full future
status.futf; with d other than 0 a reply future is told the outcome instead; at S a hardware resource cell takes a tksig, whose effect is the
resource's, and finds any other operation stale; at U it traps PRIVILEGE, and a full outgoing queue makes the instruction wait. (tkexpect of
2^23 or more either way sets RANGE by R256: log 63.) -/
def Obligations.TokenOperationsChangeTheirCell : Prop :=
  ∀ (d a b : BitVec 5) (sc : BitVec 3) (s : State) (slot : BitVec 8), s.me.run = some slot → Healthy s → CacheSound s →
    let h := s.x a
    let c := s.cellOf (hCore h) (hIndex h)
    let wide := max sc.toNat (s.reach s.me.id h).toNat
    let n := if b = 0#5 then 1 else (s.x b).toNat
    let p := max (-8388608) (min (c.ps + (s.x b).toInt) 8388607)
    let quiet : Prop := d = 0#5 ∨ s.x d = 0#64
    let outcome (kinds : List (BitVec 2)) : Nat :=
      if hKind h ∉ kinds then 0x20
      else if (hIndex h).toNat < 16 then
        (if 7 ≤ (hIndex h).toNat ∨ s.poweredOff (hCore h) = true ∨ hGen h ≠ 0#26 ∨ hKind h ≠ 1#2 then 9 else 0)
      else if s.stale s.crew h = true then 9
      else if hKind h = 2#2 ∧ c.phase.getLsbD 0 = true then 0x21
      else 0
    let told := s.x d
    let future (u : State) : TokenCell := u.cellOf (hCore told) (hIndex told)
    let outside (k : Word) (q : Nat) : Prop := q < cellAddr (hCore k) (hIndex k) ∨ cellAddr (hCore k) (hIndex k) + 16 ≤ q
    let moved (t : State) (status : Word) : Prop := t.me.ctx = { s.me.ctx with pc := s.pc + 4#19, status := status }
    let row (i : Instr) (kinds : List (BitVec 2)) (releases : Bool) (after : TokenCell → Prop) : Prop :=
      (s.sup = false → (hIndex h).toNat < 16 → exec i s = .next (s.trap 0x02#8 0#64 false s.pc)) ∧
      (s.sup = true ∨ 16 ≤ (hIndex h).toNat → 16 ≤ s.me.outq.length → exec i s = .next s) ∧
      (s.sup = true ∨ 16 ≤ (hIndex h).toNat → s.me.outq.length < 16 → hKind h ∉ kinds → d = 0#5 →
        ∃ t, exec i s = .next t ∧ moved t (if hDev h = s.devNo then s.me.ctx.status ||| 4#64 else s.me.ctx.status) ∧ HomeKept s t ∧
          t.others = s.others) ∧
      (AppliesAtOnce s h → hKind h ∈ kinds → quiet → ∃ t, exec i s = .next t ∧ after (t.cellOf (hCore h) (hIndex h)) ∧ OnlyCell s t h ∧
        (releases = true → Released (maxScope sc (s.reach s.me.id h)) t) ∧
        moved t (if d = 0#5 ∧ hKind h = 2#2 ∧ c.phase.getLsbD 0 = true then s.me.ctx.status ||| 8#64 else s.me.ctx.status)) ∧
      (s.sup = true → (hIndex h).toNat < 16 → ArrivesAtOnce s h → quiet → ∃ t, exec i s = .next t ∧ HomeKept s t ∧
        moved t (if d = 0#5 ∧ outcome kinds ≠ 0 then s.me.ctx.status ||| 4#64 else s.me.ctx.status) ∧
        (outcome kinds = 0 → hIndex h = 3#16 → (t.coreAt (hCore h)).replayEnd =
          ((s.coreAt (hCore h)).replayEnd || (s.coreAt (hCore h)).replay)) ∧
        t.swapRung = s.swapRung + if outcome kinds = 0 ∧ hIndex h = 6#16 ∧ hCore h = 0#10 then 1 else 0) ∧
      (s.sup = true ∨ 16 ≤ (hIndex h).toNat → d ≠ 0#5 → told ≠ 0#64 → hKind told = 2#2 → AppliesAtOnce s told →
        hKind h ∉ kinds ∨ ArrivesAtOnce s h → (hCore told, hIndex told) ≠ (hCore h, hIndex h) → ∃ t, exec i s = .next t ∧
        FutureAfter (future s) (future t) (if outcome kinds = 0 then 0#64 else BitVec.ofNat 64 (2 ^ 63 + outcome kinds))
          (if hDev h = s.devNo then (reachOf (hCore h) (hCore told)).toNat else 4) ∧
        moved t s.me.ctx.status ∧ ∀ q, outside told q → outside h q → t.homeByte q = s.homeByte q)
    row (.tkarrive d a b sc) [0#2] true (fun t => BarrierAfter c t n c.ps false wide) ∧
    row (.tkexpect d a b) [0#2] false (fun t => BarrierAfter c t 0 p (p ≠ c.ps + (s.x b).toInt ∨ 2 ^ 23 ≤ (s.x b).toInt.natAbs) 0) ∧
    row (.tksig d a b sc) [0#2, 1#2] true (fun t =>
      (hKind h = 0#2 → BarrierAfter c t n c.ps false wide) ∧ (hKind h = 1#2 → CountAfter c t n wide)) ∧
    row (.futSet d a b sc) [2#2] true (fun t => FutureAfter c t (s.x b) wide)

/-- R255, R257, R231, R238: tkinit gives a cell its next generation, kind and counts, and writes the new handle or a failure; tkread and tkpoll read
a cell and acquire, tkpoll 1 or 0 by its condition; on a stale handle tkread traps TOKEN_STALE and tkpoll fails with that code. Each waits while an
earlier operation of its coroutine to the same home core is still to be sent, and while replay holds its request. (That a mailbox is acquired at
the scope of its head slot is log 73, the model's.) -/
def Obligations.TokensAreInitialisedAndRead : Prop :=
  ∀ (d a b : BitVec 5) (e : BitVec 1) (s : State), Healthy s → CacheSound s →
    let h := s.x a
    let c := s.cellOf (hCore h) (hIndex h)
    let i := (hIndex h).toNat
    let may : Bool := (s.crew == 0#7 || s.boundTo (hCore h) s.crew) && (s.sup || decide (256 ≤ i))
    let held : Bool := s.heldByReplay s.crew h || s.behindPosted (mkHandle s.devNo (hCore h) 0#2 0#26 0#16)
    let fails (j : Instr) (code : Nat) : Prop := ∃ t, exec j s = .next t ∧ Writes s t d (BitVec.ofNat 64 (2 ^ 63 + code)) 4
    let reads (j : Instr) (v : Word) (acquires : Bool) : Prop := ∃ t, exec j s = .next t ∧ OnlyCache s t ∧ GeneralRegs s t ∧ HoldsAt s t d v ∧
      t.pc = s.pc + 4#19 ∧ t.me.ctx.ldst = 0#1 ++ d ∧ HomeKept s t ∧
      (acquires = true → Acquired (s.acquireScope s.me.id h) t) ∧ (acquires = false → t.me.l1 = s.me.l1)
    (i < 16 → s.sup = true → fails (.tkinit d a b) 6) ∧
    (i < 16 → s.sup = false → exec (.tkinit d a b) s = .next (s.trap 0x02#8 0#64 false s.pc)) ∧
    (16 ≤ i → may = false → fails (.tkinit d a b) 1) ∧
    (16 ≤ i → may = true → 4096 ≤ i ∨ InitBad (hKind h) (s.x b) → fails (.tkinit d a b) 6) ∧
    (16 ≤ i → i < 4096 → may = true → ¬InitBad (hKind h) (s.x b) → held = true → exec (.tkinit d a b) s = .next s) ∧
    (16 ≤ i → i < 4096 → may = true → ¬InitBad (hKind h) (s.x b) → held = false → c.dval = false →
      ∃ t, exec (.tkinit d a b) s = .next t ∧ OnlyCell s t h ∧
        (let new := t.cellOf (hCore h) (hIndex h)
         let gen : BitVec 26 := if c.gen = 0x3FFFFFF#26 then 1#26 else c.gen + 1#26
         new.gen = gen ∧ new.kind = hKind h ∧ new.phase = 0#4 ∧ new.err = 0#8 ∧ new.dval = false ∧
          (hKind h = 0#2 → new.pa = (s.x b).toNat ∧ new.reload = (s.x b).toNat ∧ new.ps = 0) ∧ (hKind h = 1#2 → new.lower = s.x b) ∧
          (hKind h = 2#2 → new.lower = 0#64) ∧
          (hKind h = 3#2 → new.head = 0#16 ∧ new.tail = 0#16 ∧ new.posted = 0#16 ∧ new.notify = (s.x b).getLsbD 0) ∧
          HoldsAt s t d (s.devNo ++ hCore h ++ hKind h ++ gen ++ hIndex h)) ∧
        t.pc = s.pc + 4#19 ∧ t.me.ctx.v = s.me.ctx.v ∧ t.me.ctx.status = s.me.ctx.status) ∧
    (hDev h = s.devNo → s.heldByReplay s.crew h = true ∨ s.behindPosted h = true →
      exec (.tkread d a e) s = .next s ∧ exec (.tkpoll d a b) s = .next s) ∧
    (hDev h = s.devNo → s.heldByReplay s.crew h = false → s.behindPosted h = false →
      (s.stale s.crew h = true → exec (.tkread d a e) s = .next (s.trap 0x09#8 h false s.pc) ∧ fails (.tkpoll d a b) 9) ∧
      (s.stale s.crew h = false → reads (.tkread d a e) (if e = 1#1 then c.upper else c.lower) true ∧
        (s.cellCondition h (phaseFor h (s.x b)) = true → reads (.tkpoll d a b) 1#64 true) ∧
        (s.cellCondition h (phaseFor h (s.x b)) = false → reads (.tkpoll d a b) 0#64 false)))

/-! ## Waiting, creating and ending coroutines (07_coroutines.md, 08_tokens.md) -/

/-- R186, R197, R222, R223, R238, R258, R261: await leaves the core until its cell's condition holds, at once ready where it does; fut.get and recv
take the future's value or the mailbox's next message where there is one and wait where not, with ldst naming d (02_encoding.md R49); fnext
takes the next index of a count cell, all ones past its threshold. Each asks only once no earlier operation of its coroutine to the same home
core is still to be sent (R238). (A recv of a mailbox of another home is BADARG before its kind is tried: log 73, the model's.) -/
def Obligations.WaitsEndWhenTheConditionHolds : Prop :=
  ∀ (d a b : BitVec 5) (s : State) (n : BitVec 8) (u : Slot), s.me.run = some n → s.me.slot? n = some u → Healthy s → CacheSound s →
    let own (h : Word) : Prop := hDev h = s.devNo ∧ hCore h = s.me.id ∧ 16 ≤ (hIndex h).toNat
    let heldUp (h : Word) : Bool := s.heldByReplay s.crew h || s.behindPosted h
    let usable (h : Word) : Prop := hDev h = s.devNo ∧ heldUp h = false ∧ s.stale s.crew h = false
    let fails (j : Instr) (code : Nat) : Prop := ∃ t, exec j s = .next t ∧ Writes s t d (BitVec.ofNat 64 (2 ^ 63 + code)) 4
    let names (t : State) : Prop := ∀ w, t.me.slot? n = some w → w.ctx.ldst = 0#1 ++ d
    (let h := s.x d
     let recordToken : Prop := hIndex h = 2#16 ∧ hKind h = 1#2 ∧ hGen h = 0#26
     (recordToken → s.sup = false ∨ s.me.ctx.record.isSome = true → exec (.await d a b) s = .next (s.trap 0x02#8 0#64 false s.pc)) ∧
     (¬(recordToken ∧ (s.sup = false ∨ s.me.ctx.record.isSome = true)) → hDev h = s.devNo ∨ s.hasRoute (hDev h) = true →
       ∃ t, exec (.await d a b) s = .next t ∧ WaitsFor s t n (s.x b) h (s.x a) .none ∧
        (own h → ∀ w, t.me.slot? n = some w → (w.state = .ready ↔ s.condition s.crew h (phaseFor h (s.x a)) = true)))) ∧
    (let h := s.x a
     let c := s.cellOf (hCore h) (hIndex h)
     (hKind h ≠ 2#2 → exec (.futGet d a b) s = .next (s.trap 0x09#8 h false s.pc)) ∧
     (hDev h = s.devNo → heldUp h = true → (hKind h = 2#2 → exec (.futGet d a b) s = .next s) ∧ exec (.fnext d a) s = .next s ∧
       (hCore h = s.me.id → hKind h = 3#2 → exec (.recv d a b) s = .next s)) ∧
     (hKind h = 2#2 → hDev h = s.devNo → heldUp h = false → s.stale s.crew h = true →
       exec (.futGet d a b) s = .next (s.trap 0x09#8 h false s.pc)) ∧
     (hKind h = 2#2 → usable h → c.phase.getLsbD 0 = true → ∃ t, exec (.futGet d a b) s = .next t ∧ OnlyCache s t ∧ GeneralRegs s t ∧
       HoldsAt s t d c.lower ∧ t.pc = s.pc + 4#19 ∧ t.me.ctx.ldst = 0#1 ++ d ∧ HomeKept s t ∧ Acquired (s.acquireScope s.me.id h) t) ∧
     (hKind h = 2#2 → usable h → c.phase.getLsbD 0 = false →
       ∃ t, exec (.futGet d a b) s = .next t ∧ WaitsFor s t n (s.x b) h 0#64 (.futGet d) ∧ names t) ∧
     (¬(hDev h = s.devNo ∧ hCore h = s.me.id) → fails (.recv d a b) 6) ∧
     (hDev h = s.devNo → hCore h = s.me.id → hKind h = 3#2 → usable h → 16 ≤ (hIndex h).toNat →
       resourceByte (s.headWord h) = none → cellAddr (hCore h) (hIndex h) + 16 ≤ s.headWord h →
       (s.cellCondition h 0#64 = true → ∃ t, exec (.recv d a b) s = .next t ∧ GeneralRegs s t ∧ t.pc = s.pc + 4#19 ∧
         HoldsAt s t d (BitVec.ofNat 64 (s.physRead (s.headWord h) 8)) ∧
         (t.cellOf (hCore h) (hIndex h)).head = c.head + 1#16 ∧ t.physRead (s.headWord h) 8 = 0 ∧
         ∀ q, q < cellAddr (hCore h) (hIndex h) ∨ (cellAddr (hCore h) (hIndex h) + 16 ≤ q ∧ q < s.headWord h) ∨ s.headWord h + 8 ≤ q →
           t.homeByte q = s.homeByte q) ∧
       (s.cellCondition h 0#64 = false → ∃ t, exec (.recv d a b) s = .next t ∧ WaitsFor s t n (s.x b) h 0#64 (.recv d) ∧ names t)) ∧
     (usable h → 16 ≤ (hIndex h).toNat → (hKind h ≠ 1#2 → fails (.fnext d a) 6) ∧
       (hKind h = 1#2 → c.threshold ≤ c.count → ∃ t, exec (.fnext d a) s = .next t ∧ Writes s t d (BitVec.allOnes 64) 4) ∧
       (hKind h = 1#2 → c.count < c.threshold → ∃ t, exec (.fnext d a) s = .next t ∧ GeneralRegs s t ∧ HoldsAt s t d (BitVec.ofNat 64 c.count) ∧
         t.pc = s.pc + 4#19 ∧ OnlyCell s t h ∧
         (t.cellOf (hCore h) (hIndex h)).count = c.count + 1 ∧ (t.cellOf (hCore h) (hIndex h)).threshold = c.threshold)))

/-- R218 to R221, R224, R212: spawn and spawn.on create a coroutine with the registers that R218 lists in the lowest empty slot of their level,
on the core named or the one of the scope with the most empty slots, ready or deferred on a count cell, and write its id; a full core makes
them wait on its slot token, one without room for the context gives NOROOM, and spawn queues a CONTEXT_PRESSURE record there; farm creates one
worker on each core of its set that takes one and writes how many; yield leaves ready at the tail of
its class with its live registers; exit empties its slot, returns the record that it holds open to the head of its queue, and signals once, and
waits where the outgoing queue is full (R240). (spawn.on's class is the spawner's, and a misaligned farm descriptor traps, by log 47.) -/
def Obligations.CoroutinesAreCreatedAndEnd : Prop :=
  ∀ (d a b c : BitVec 5) (s : State) (n : BitVec 8) (u : Slot), s.me.run = some n → s.me.slot? n = some u → Healthy s → CacheSound s →
    let own := s.me.ctx.quantum.extractLsb' 62 2
    let fails (j : Instr) (code : Nat) : Prop := ∃ t, exec j s = .next t ∧ Writes s t d (BitVec.ofNat 64 (2 ^ 63 + code)) 4
    let rises (asked : BitVec 2) : BitVec 2 := if s.sup = false ∧ asked < own then own else asked
    let mine (k : BitVec 10) : Prop := s.crew = 0#7 ∨ (s.coreAt k).bound = s.crew
    let free (k : BitVec 10) : Nat := (s.coreAt k).emptySlots s.sup
    let coid : Word := (s.me.id ++ n).zeroExtend 64
    let room (k : BitVec 10) (m : BitVec 8) : Prop :=
      0 < free k ∧ (s.coreAt k).lowestSlot s.sup = some m ∧ ((s.coreAt k).takeContext m).isSome = true
    let noRoom (k : BitVec 10) : Prop :=
      0 < free k ∧ ∃ m, (s.coreAt k).lowestSlot s.sup = some m ∧ (s.coreAt k).takeContext m = none
    (let p := s.x a
     let any : Bool := p.getLsbD 13
     let legal : Prop := any = true → bits p 12 10 ≤ 3
     let cand (k : BitVec 10) : Prop := mine k ∧ (if any then (reachOf s.me.id k).toNat ≤ bits p 12 10 else k = p.setWidth 10)
     let chosen (k : BitVec 10) : Prop := cand k ∧ ∀ i, cand i → free i ≤ free k ∧ (free i = free k → k ≤ i)
     (¬legal → fails (.spawn d a b c) 6) ∧
     (legal → (∀ k, ¬cand k) → fails (.spawn d a b c) 1) ∧
     (∀ k, legal → cand k → (∀ i, cand i → k ≤ i ∧ free i = 0) → ∃ t, exec (.spawn d a b c) s = .next t ∧ SuspendedAt s t n k 0#16) ∧
     (∀ k, legal → chosen k → noRoom k → ∃ t, exec (.spawn d a b c) s = .next t ∧ HoldsAt s t d 0x8000000000000002#64 ∧
       t.pc = s.pc + 4#19 ∧ t.me.run = some n ∧ t.mem = s.mem ∧ (t.coreAt k).slots = (s.coreAt k).slots ∧
       (t.coreAt k).records = (s.coreAt k).records ++
         if ∃ r ∈ (s.coreAt k).records, r.code = 0x0E#8 then [] else [⟨0x0E#8, false, false, s.me.id ++ n, 0#64, 0#19, none, false, k⟩]) ∧
     (∀ k m, legal → chosen k → s.crewFaulted s.crew = false → room k m → ∃ t, exec (.spawn d a b c) s = .next t ∧
       HoldsAt s t d ((k ++ m).zeroExtend 64) ∧ t.pc = s.pc + 4#19 ∧ t.me.run = some n ∧ HomeKept s t ∧ Released (reachOf s.me.id k) t ∧
       CreatedAs t k m (givenBy s (s.x b) (s.x c) coid (rises (p.extractLsb' 14 2)) (reachOf s.me.id k)) .ready)) ∧
    (let h := s.x a
     let k := hCore h
     let cell := s.cellOf k (hIndex h)
     let j := Instr.spawnOn d a b c
     (hDev h ≠ s.devNo ∨ ¬mine k → fails j 1) ∧
     (hDev h = s.devNo → mine k → hKind h ≠ 1#2 → fails j 6) ∧
     (hDev h = s.devNo → mine k → hKind h = 1#2 → s.heldByReplay s.crew h = true ∨ s.behindPosted h = true → exec j s = .next s) ∧
     (hDev h = s.devNo → mine k → hKind h = 1#2 → s.heldByReplay s.crew h = false → s.behindPosted h = false → 16 ≤ (hIndex h).toNat →
       (s.stale s.crew h = true → exec j s = .next (s.trap 0x09#8 h false s.pc)) ∧
       (s.stale s.crew h = false → cell.dval = true → fails j 5) ∧
       (s.stale s.crew h = false → cell.dval = false → free k = 0 → ∃ t, exec j s = .next t ∧ SuspendedAt s t n k 0#16) ∧
       (s.stale s.crew h = false → cell.dval = false → noRoom k → fails j 2) ∧
       (∀ m, s.stale s.crew h = false → cell.dval = false → s.crewFaulted s.crew = false → room k m → ∃ t, exec j s = .next t ∧
         HoldsAt s t d ((k ++ m).zeroExtend 64) ∧ t.pc = s.pc + 4#19 ∧ t.me.run = some n ∧
         CreatedAs t k m (givenBy s (s.x b) (s.x c) coid own (reachOf s.me.id k)) (if cell.threshold ≤ cell.count then .ready else .waiting) ∧
         (t.cellOf k (hIndex h)).dslot = m ∧ (t.cellOf k (hIndex h)).dval = true ∧ OnlyCell s t h))) ∧
    ((s.x a).toNat % 64 ≠ 0 → exec (.farm d a b) s = .next (s.trap 0x03#8 (s.x a) false s.pc)) ∧
    (∀ (s1 : State) f va, (s.x a).toNat % 64 = 0 → s.loadDws (s.x a) 6 = (s1, .error (f, va)) →
      exec (.farm d a b) s = .next (s1.takeFault f va false s.pc)) ∧
    (∀ (s1 : State) (l : List Word), (s.x a).toNat % 64 = 0 → s.loadDws (s.x a) 6 = (s1, .ok l) → s1.me.ctx = s.me.ctx →
      let h := s.x b
      let j := Instr.farm d a b
      let field := (l.getD 5 0).toNat
      let cls : BitVec 2 := if field = 0 then own else rises (BitVec.ofNat 2 (field - 1))
      let s2 := s1.farmCounter h (l.getD 1 0)
      (hDev h = s1.devNo → s1.heldByReplay s1.crew h = true ∨ s1.behindPosted h = true → exec j s = .next s1) ∧
      (hDev h = s1.devNo → s1.heldByReplay s1.crew h = false → s1.behindPosted h = false →
        (s1.stale s1.crew h = true → exec j s = .next (s1.trap 0x09#8 h false s.pc)) ∧
        (s1.stale s1.crew h = false → 16 ≤ (hIndex h).toNat →
          (hKind h ≠ 1#2 ∨ 4 < field → ∃ t, exec j s = .next t ∧ Writes s1 t d (BitVec.ofNat 64 (2 ^ 63 + 6)) 4) ∧
          (hKind h = 1#2 → field ≤ 4 → ∀ cores : List (BitVec 10), cores.Nodup → (∀ k, k ∈ cores ↔ InSet (l.getD 2 0) (l.getD 3 0) k) →
            ∃ t, exec j s = .next t ∧ HoldsAt s t d (BitVec.ofNat 64 (s2.workers s1.crew cores)) ∧ t.pc = s.pc + 4#19 ∧ t.me.run = some n ∧
              Farmed s2 t s1.crew cores (givenBy s (l.getD 0 0) (l.getD 4 0) h cls 3#3) ∧
              (t.cellOf (hCore h) (hIndex h)).threshold = (l.getD 1 0).toNat % 2 ^ 32 ∧
              (t.cellOf (hCore h) (hIndex h)).count = 0 ∧ (Healthy s1 → CacheSound s1 → Released 3#3 t ∧ OnlyCell s1 t h) ∧
              t.me.ctx.v = s.me.ctx.v)))) ∧
    (∃ t w, exec (.yield a) s = .next t ∧ LeavesBy s t n (s.x a) w ∧ w.state = .ready ∧ w.seq = s.me.seqCount ∧ w.waitFor = .nothing ∧
      t.mem = s.mem ∧ t.others = s.others ∧
      ∀ m, m ≠ n → (t.me.slot? m).map (fun u => { u with spilled := false }) = (s.me.slot? m).map fun u => { u with spilled := false }) ∧
    (s.x a ≠ 0#64 → 16 ≤ s.me.outq.length → exec (.exit a) s = .next s) ∧
    (s.x a = 0#64 → s.me.ctx.record = none → ∃ t, exec (.exit a) s = .next t ∧ t.me.run = none ∧ t.me.slot? n = none ∧
      (∀ m, m ≠ n → t.me.slot? m = s.me.slot? m) ∧ t.mem = s.mem ∧ t.others = s.others ∧ t.me.records = s.me.records) ∧
    (∀ r, s.x a = 0#64 → s.me.ctx.record = some r → ∃ t, exec (.exit a) s = .next t ∧ t.me.run = none ∧ t.me.slot? n = none ∧
      (∀ m, m ≠ n → t.me.slot? m = s.me.slot? m) ∧ t.mem = s.mem ∧ (t.coreAt r.queue).records = r :: (s.coreAt r.queue).records ∧
      ∀ k, k ≠ r.queue → (t.coreAt k).records = (s.coreAt k).records) ∧
    (let h := s.x a
     AppliesAtOnce s h → hKind h = 1#2 → s.me.ctx.record = none → ∃ t, exec (.exit a) s = .next t ∧ t.me.run = none ∧ t.me.slot? n = none ∧
      CountAfter (s.cellOf (hCore h) (hIndex h)) (t.cellOf (hCore h) (hIndex h)) 1 (s.reach s.me.id h).toNat ∧ OnlyCell s t h)

/-- R216, R225, R226: vctx.save and vctx.restore are of level S; vctx.save writes a coroutine's image to its address and empties its slot,
with the record that it holds open kept so; vctx.restore puts the coroutine of an image into an empty slot, whole or with its vector part
deferred, held where its crew has faulted, or adds the deferred part. vctx.save waits while an outcome for the coroutine's status is
outstanding (R245). The frame has its fields at their offsets, and a restore reads the registers back. (By log 48 the serial is the counter's
value before it grows, an x[a] of 2^18 or more is BADARG, and a restore that finds no room for the context is NOROOM; by log 68 a crew above
64 is tried first, as BADFRAME.) -/
def Obligations.ContextsAreSavedAndRestored : Prop :=
  ∀ (d a b c : BitVec 5) (s : State),
    let i := s.x a
    let va := s.x b
    let n : BitVec 8 := i.setWidth 8
    let fails (s1 : State) (j : Instr) (code : Nat) : Prop := ∃ t, exec j s = .next t ∧ Writes s1 t d (BitVec.ofNat 64 (2 ^ 63 + code)) 4
    let own : Prop := i.extractLsb' 8 10 = s.me.id ∧ va.toNat % 4096 = 0
    (s.sup = false → ∀ j ∈ [Instr.vctxSave d a b c, .vctxRestore d a b c], exec j s = .next (s.trap 0x02#8 0#64 false s.pc)) ∧
    (s.sup = true →
      (let j := Instr.vctxSave d a b c
       (¬(own ∧ i.toNat < 2 ^ 18) → fails s j 6) ∧
       (own → i.toNat < 2 ^ 18 →
        (s.me.slot? n = none → fails s j 3) ∧
        (∀ u, s.me.slot? n = some u →
          (u.state = .running → fails s j 3) ∧
          (u.state ≠ .running → s.me.completionMasks n ≠ 0#64 → fails s j 5) ∧
          (u.state ≠ .running → s.me.completionMasks n = 0#64 → s.statusPending n = true → exec j s = .next s) ∧
          (∀ s1, u.state ≠ .running → s.me.completionMasks n = 0#64 → s.statusPending n = false → Healthy s1 → CacheSound s1 →
            s.storeBlocks va ((0, u.frame s.me.id (s.me.crewOf n) s.me.saveCount) ::
              if u.deferred.isSome then [] else u.parts (queueImage s.fresh)) = (s1, none) →
            ∃ t, exec j s = .next t ∧ t.me.slot? n = none ∧ (∀ m, m ≠ n → t.me.slot? m = s.me.slot? m) ∧ GeneralRegs s t ∧
              HoldsAt s t d (s.me.saveCount.zeroExtend 64) ∧ t.pc = s.pc + 4#19 ∧ t.me.saveCount = s.me.saveCount + 1#32 ∧
              OnlyCell s1 t u.handle ∧ ∀ r, u.ctx.record = some r → r.entry = none → r.code ≠ 0x0E#8 → r.rcoid ∈ t.recordsAway)))) ∧
      (let j := Instr.vctxRestore d a b c
       let parts : BitVec 2 := (s.x c).setWidth 2
       let placed (t : State) : Prop := GeneralRegs s t ∧ HoldsAt s t d 0#64 ∧ t.pc = s.pc + 4#19 ∧ OtherSlotsKept s t n
       (¬own ∨ parts = 0#2 → fails s j 6) ∧
       (∀ s1 l, own → parts.getLsbD 0 = true → s.loadBlock va 0 128 = (s1, .ok l) →
        let crew := frameDw l 0xB0
        let bad : Prop := (s1.me.slot? n).isSome = true ∨ (n.toNat < 4 ↔ crew ≠ 0#64) ∨ (crew ≠ 0#64 ∧ s1.me.bound.zeroExtend 64 ≠ crew)
        (64 < crew.toNat → fails s1 j 4) ∧
        (crew.toNat ≤ 64 → bad → fails s1 j 3) ∧
        (crew.toNat ≤ 64 → ¬bad → frameOk l = false → fails s1 j 4) ∧
        (∀ s2 q, crew.toNat ≤ 64 → ¬bad → frameOk l = true → s1.readQueue va (frameDw l 0) = (s2, .ok (some q)) →
          (parts = 1#2 → frameVector l = true →
            let c1 := { frameCtx l with status := (frameCtx l).status ||| 0x100#64 }
            (s2.me.takeIn (frameSlot l n c1) = none → fails s2 j 2) ∧
            ((s2.me.takeIn (frameSlot l n c1)).isSome = true → ∃ t w, exec j s = .next t ∧ placed t ∧ t.me.slot? n = some w ∧
              RestoredSlot l w c1 (s2.crewFaulted (s2.me.crewOf n)) ∧ w.deferred = some ((frameDw l 0).extractLsb' 16 32))) ∧
          (∀ s3 c1, parts = 3#2 ∨ frameVector l = false →
            s2.loadVector va (frameDw l 8) ((frameDw l 0).getLsbD 52) q
              { frameCtx l with status := (frameCtx l).status &&& ~~~0x100#64 } = (s3, .ok c1) →
            (s3.me.takeIn (frameSlot l n c1) = none → fails s3 j 2) ∧
            ((s3.me.takeIn (frameSlot l n c1)).isSome = true → ∃ t w, exec j s = .next t ∧ placed t ∧ t.me.slot? n = some w ∧
              RestoredSlot l w c1 (s3.crewFaulted (s3.me.crewOf n)) ∧ w.deferred = none)))) ∧
       (own → parts = 2#2 →
        (s.me.slot? n = none → fails s j 5) ∧
        (∀ u, s.me.slot? n = some u →
          (u.state ≠ .held ∨ u.ctx.status.getLsbD 8 = false → fails s j 5) ∧
          (∀ s1 l, u.state = .held → u.ctx.status.getLsbD 8 = true → s.loadBlock va 0 2 = (s1, .ok l) →
            (u.deferred ≠ some ((frameDw l 0).extractLsb' 16 32) → fails s1 j 4) ∧
            (∀ s2 q s3 c1, u.deferred = some ((frameDw l 0).extractLsb' 16 32) → s1.readQueue va (frameDw l 0) = (s2, .ok (some q)) →
              s2.loadVector va (frameDw l 8) ((frameDw l 0).getLsbD 52) q { u.ctx with status := u.ctx.status &&& ~~~0x100#64 } =
                (s3, .ok c1) →
              let whole : Slot := { u with ctx := c1, deferred := none, deferredVq := none }
              (s3.me.reseat whole = none → fails s3 j 2) ∧
              ((s3.me.reseat whole).isSome = true →
                ∃ t w, exec j s = .next t ∧ placed t ∧ t.me.slot? n = some w ∧ w.ctx = c1 ∧ w.deferred = none ∧ w.state = .held))))))) ∧
    (∀ (u : Slot) (core : BitVec 10) (crew : BitVec 7) (serial : BitVec 32),
      let l := u.frame core crew serial
      l.length = 128 ∧ (∀ f ∈ frameFields u crew, frameDw l f.1 = f.2) ∧
        (∀ r : BitVec 5, (frameCtx l).getX r = u.ctx.getX r) ∧ (frameCtx l).sh = u.ctx.sh ∧
        (frameCtx l).pc = u.ctx.pc &&& 0x7FFFE#19 ∧ (frameCtx l).ldst = u.ctx.ldst ∧ (frameCtx l).vstart = u.ctx.vstart)

/-- R227, R228: preempt is of level S; it writes whether the coroutine was running and takes it off its core, ready at the tail of its
class, or, where it is to be held and has no own record yet, held by a record of cause PREEMPT; crew.bind is of level S and binds a crew
that exists to its core where no user slot and no copy command of the last one is left, which zeroes the scratchpad outside crew 0's part,
the grant, the latches and mshape; each watch that the core holds stays or is answered. (preempt ignores bits 63:18 of x[a]: log 69.) -/
def Obligations.CoroutinesArePreemptedAndCrewsBound : Prop :=
  ∀ (d a b : BitVec 5) (s : State),
    let fails (j : Instr) (code : Nat) : Prop := ∃ t, exec j s = .next t ∧ Writes s t d (BitVec.ofNat 64 (2 ^ 63 + code)) 4
    (s.sup = false → ∀ j ∈ [Instr.preempt d a b, .crewBind d a], exec j s = .next (s.trap 0x02#8 0#64 false s.pc)) ∧
    (s.sup = true →
      (let i : BitVec 18 := (s.x a).setWidth 18
       let core := coidCore i
       let n := coidSlot i
       let j := Instr.preempt d a b
       let k := s.coreAt core
       let hold : Prop := (s.x b).getLsbD 0 = true ∧ s.hasOwnRecord i = false
       (k.slot? n = none → fails j 3) ∧
       (∀ u, k.slot? n = some u → (u.state = .running ↔ k.run = some n) →
        ∃ t w, exec j s = .next t ∧ (t.coreAt core).slot? n = some w ∧ t.mem = s.mem ∧
          (core ≠ s.me.id ∨ k.run ≠ some n → GeneralRegs s t ∧ HoldsAt s t d (if u.state = .running then 1#64 else 0#64) ∧
            t.pc = s.pc + 4#19) ∧
          (hold → w.state = .held ∧ w.records = u.records + 1 ∧ (k.run = some n → (t.coreAt core).run = none) ∧
            ∃ r, (t.coreAt core).records = k.records ++ [r] ∧ r.code = 0x0D#8 ∧ r.rcoid = i ∧ r.epc = w.ctx.pc ∧ r.entry = none) ∧
          (¬hold → (t.coreAt core).records = k.records ∧
            (k.run = some n → (t.coreAt core).run = none ∧ w.state = .ready ∧ w.seq = k.seqCount ∧ w.kind = .forced) ∧
            (k.run ≠ some n → w = u)) ∧
          (k.run = some n → core ≠ s.me.id → KeptByForce k.ctx w.ctx ∧ w.ctx.pc = k.ctx.pc))) ∧
      (let m := s.x a
       let n : BitVec 7 := m.setWidth 7
       let j := Instr.crewBind d a
       let lo := 0x10000001000 + s.me.id.toNat * 0x100000
       (64 < m.toNat → fails j 6) ∧
       (m.toNat ≤ 64 → n ≠ 0#7 → s.crew? n = none → fails j 1) ∧
       (m.toNat ≤ 64 → n = 0#7 ∨ (s.crew? n).isSome = true →
        ((∃ u ∈ s.me.slots, 4 ≤ u.num.toNat) ∨ (s.me.bound ≠ 0#7 ∧ ∃ q ∈ s.me.copies, q.crew = s.me.bound) → fails j 5) ∧
        ((∀ u ∈ s.me.slots, u.num.toNat < 4) → (s.me.bound = 0#7 ∨ ∀ q ∈ s.me.copies, q.crew ≠ s.me.bound) →
          ∃ t, exec j s = .next t ∧ GeneralRegs s t ∧ HoldsAt s t d 0#64 ∧ t.pc = s.pc + 4#19 ∧ t.me.bound = n ∧
            t.me.space = ((s.crew? n).map (·.space)).getD 0#64 ∧ t.me.grant = [] ∧ t.me.slots = s.me.slots ∧
            (t.me.latches = Vector.replicate 2 ⟨0#131072, 0#8192, false⟩) ∧ t.me.mshape = 0x8000000000000000#64 ∧
            (∀ w ∈ t.me.watches, w ∈ s.me.watches) ∧
            (∀ w ∈ s.me.watches, w ∈ t.me.watches ∨ (if w.dev = s.devNo then Instr.wake w ∈ t.inbox else
              ∃ r ∈ t.podOut, r.kind = .watch ∧ r.dev = w.dev ∧ r.addr = w.handle ∧ r.op.srcSlot = w.slot)) ∧
            ((∀ p ∈ s.swaps, p.near + 65536 ≤ hbmSize ∧ (p.far + 65536 ≤ hbmSize ∨ hostBase ≤ p.far)) →
              ∀ q, memByte t.mem q = if lo ≤ q ∧ q < lo + 0xFF000 then 0#8 else memByte s.mem q)))))

/-! ## Copy commands (10_scratchpad_copy.md, 11_multigrid.md, 15_complications.md, 16_pod.md) -/

/-- R311, R312, R315, R318 to R323, R339, R423, R449: a copy instruction reads its descriptor, which is aligned to its size, fails with BADARG
for one that breaks its table, and else joins the copy queue, with its id as result; it adds its sectors to its barrier where it asks for
that, and suspends on the copy queue token where no entry is free. cp.gather's marker writes the conflict mask of its indices. (BADARG is
tried before cp.tile's GRANT and its busy chase slot by log 31, the model's.) -/
def Obligations.CopyCommandsAreAccepted : Prop :=
  ∀ (d a b c : BitVec 5) (m : BitVec 3) (s : State) (n : BitVec 8) (u : Slot), s.me.run = some n → s.me.slot? n = some u →
    let va := s.x a
    let q := s.me.ctx
    let fails (s1 : State) (j : Instr) (code : Nat) : Prop := ∃ t, exec j s = .next t ∧ Writes s1 t d (BitVec.ofNat 64 (2 ^ 63 + code)) 4
    let free : Prop := ∃ e, ∀ p ∈ s.me.copies, p.entry ≠ e
    let full (j : Instr) : Prop := ¬free → ∃ t, exec j s = .next t ∧ SuspendedOn s t n 4#16 ∧ t.me.cpqwait = s.me.cpqwait + 1#64 ∧
      t.me.copies = s.me.copies
    let reads (j : Instr) (align k : Nat) (then_ : State → List Word → Prop) : Prop :=
      (va.toNat % align ≠ 0 → exec j s = .next (s.trap 0x03#8 va false s.pc)) ∧
      (∀ s1 f at_, va.toNat % align = 0 → s.loadDws va k = (s1, .error (f, at_)) → exec j s = .next (s1.takeFault f at_ false s.pc)) ∧
      (∀ s1 l, va.toNat % align = 0 → s.loadDws va k = (s1, .ok l) → Healthy s1 → CacheSound s1 → then_ s1 l)
    let joins (j : Instr) (s1 : State) (kind : CopyKind) (control : Word) (desc : List Word) (masks : Bool) (expects : Bool)
        (barrier : Word) : Prop :=
      let dirty := if masks then completionDirty control else 0#64
      full j ∧
      (free → expects = false →
        ∃ t, exec j s = .next t ∧ Accepted s t n d kind control desc [] ∧ GeneralAndDirty s t dirty ∧ t.mem = s1.mem) ∧
      (free → expects = true → AppliesAtOnce s1 barrier →
        ∃ t, exec j s = .next t ∧ Accepted s t n d kind control desc [] ∧ GeneralAndDirty s t dirty ∧ Expected s1 t barrier ∧
          OnlyCell s1 t barrier) ∧
      (free → expects = true → 16 ≤ s.me.outq.length → exec j s = .next s1)
    (let j := Instr.cpTile d a
     reads j 64 8 fun s1 l =>
      let control := l.getD 0 0#64
      (badTile l = true → fails s1 j 6) ∧
      (∀ k, badTile l = false → (tilesReached control l).find? (fun k => decide (s.me.grant.length ≤ k)) = some k →
        exec j s = .next (s1.trap 0x0B#8 (BitVec.ofNat 64 k) false s.pc)) ∧
      (badTile l = false → (∀ k ∈ tilesReached control l, k < s.me.grant.length) →
        (ChaseHeld s control → fails s1 j 5) ∧
        (¬ChaseHeld s control → joins j s1 .tile control l true (control.getLsbD 59) (l.getD 1 0#64)))) ∧
    (let j := Instr.cpStream d a
     reads j 128 16 fun s1 l =>
      let cmd := s1.newCopy .stream (l.getD 0 0#64) l
      let held : Prop := ∃ p ∈ s.me.copies, p.kind = .stream ∧ p.slot = n ∧ p.issuer = .present
      (badStream cmd = true → fails s1 j 6) ∧
      (badStream cmd = false → held → fails s1 j 5) ∧
      (badStream cmd = false → ¬held → joins j s1 .stream (l.getD 0 0#64) l false (decide (0 < cmd.outputs)) (l.getD 3 0#64))) ∧
    (let j := Instr.cpKvs d a
     reads j 128 16 fun s1 l =>
      let cmd := s1.newCopy .kvs (l.getD 0 0#64) l
      (badKvs cmd = true → fails s1 j 6) ∧
      (badKvs cmd = false → joins j s1 .kvs (l.getD 0 0#64) l true ((l.getD 0 0#64).getLsbD 59) (l.getD 1 0#64))) ∧
    (let j := Instr.cpMg d a
     reads j 128 16 fun s1 l =>
      let control := l.getD 0 0#64
      (∀ e, s1.readTable (l.getD 2 0#64) = .bad e → exec j s = .next (s1.padFault e)) ∧
      (s1.readTable (l.getD 2 0#64) = .breach → fails s1 j 6) ∧
      (∀ header weights, s1.readTable (l.getD 2 0#64) = .ok header weights →
        let cmd := s1.newCopy .grid control (l ++ [header, va])
        (badGrid cmd = true → fails s1 j 6) ∧
        (badGrid cmd = false → joins j s1 .grid control (l ++ [header, va]) true (control.getLsbD 59) (l.getD 1 0#64)))) ∧
    (let j := Instr.wst d a b c
     let length := (s.x c).toNat
     (length = 0 ∨ 2 ^ 24 < length → fails s j 6) ∧
     (0 < length → length ≤ 2 ^ 24 → joins j s .remote 0#64 [s.x a, s.x b, s.x c] false false 0#64)) ∧
    (let j := Instr.cpGather d a b m
     let w := vtW q.vtype
     let reals := vlReal q.vl
     let index (i : Nat) : Nat := q.elem b.toNat w i
     let legal : Prop := shapeOk q.vl q.vtype = true ∧ b.toNat % vtN q.vtype = 0 ∧ (vtEt q.vtype = 6 ∨ vtEt q.vtype = 7) ∧
       vlLen q.vl ≤ 2048
     (q.status.getLsbD 8 = true → exec j s = .next (s.trap 0x04#8 0#64 false s.pc)) ∧
     (q.status.getLsbD 8 = false → ¬legal → exec j s = .next (s.trap 0x01#8 0#64 false s.pc)) ∧
     (q.status.getLsbD 8 = false → legal → reads j 64 8 fun s1 l =>
      let control := l.getD 0 0#64
      let dirty : Word := BitVec.ofNat 64 (2 ^ (32 + m.toNat))
      (badGather l m reals = true → fails s1 j 6) ∧
      (badGather l m reals = false → full j ∧
        (∀ s2, free → control.getLsbD 59 = false → s.Keeps → s1.claimDirty dirty = (s2, true) →
          ∃ t, exec j s = .next t ∧ Accepted s t n d .gather control l ((List.range reals).map index) ∧ t.mem = s1.mem ∧
            t.me.ctx = { q with
              x := t.me.ctx.x, pc := t.me.ctx.pc, ldst := t.me.ctx.ldst, m := t.me.ctx.m, vstart := 0#16,
              vdirty := q.vdirty ||| completionDirty control ||| dirty } ∧
            MaskBits s t m.toNat 1 (fun i => some (decide (i < reals ∧ ∃ k < i, index k = index i)))))))

/-- R324, R325, R340: cp.status writes the status word of the command that an id names, cp.resume queues a stopped one again and cp.cancel
takes one out of the queue; an id of another core, or at U of another crew, fails with BADARG, and one whose command is gone reads 0 or
fails with BUSY. mg.check describes a valid stencil-weight table. -/
def Obligations.CopyCommandsAreControlled : Prop :=
  ∀ (d a : BitVec 5) (s : State),
    let id := s.x a
    let e := id.extractLsb' 29 3
    let seq := id.extractLsb' 0 29
    let fails (j : Instr) (code : Nat) : Prop := ∃ t, exec j s = .next t ∧ Writes s t d (BitVec.ofNat 64 (2 ^ 63 + code)) 4
    let status := Instr.cpStatus d a
    let resume := Instr.cpResume d a
    let cancel := Instr.cpCancel d a
    let here : Prop := id.toNat < 2 ^ 42 ∧ id.extractLsb' 32 10 = s.me.id
    let gone : Prop := (∃ t, exec status s = .next t ∧ Writes s t d 0#64 4) ∧ fails resume 5 ∧ fails cancel 5
    (¬here → fails status 6 ∧ fails resume 6 ∧ fails cancel 6) ∧
    (here → (∀ c ∈ s.me.copies, c.entry ≠ e) → gone) ∧
    (∀ c, here → s.me.copies.find? (fun q => q.entry = e) = some c →
      (seq ≠ 0x1FFFFFFF#29 → seq ≠ c.seq → gone) ∧
      (seq = 0x1FFFFFFF#29 ∨ seq = c.seq → s.sup = false → c.crew ≠ s.crew → fails status 6 ∧ fails resume 6 ∧ fails cancel 6) ∧
      (seq = 0x1FFFFFFF#29 ∨ seq = c.seq → s.sup = true ∨ c.crew = s.crew →
        (let code := match c.state with
          | .marker => 1
          | .queued => 1
          | .running => 2
          | .waiting => 3
          | .stopped => 4
         ∃ t, exec status s = .next t ∧ Writes s t d (BitVec.ofNat 64 (code * 2 ^ 60 + (if 3 ≤ code then c.cause.toNat * 2 ^ 52 else 0) +
           c.lastChan.toNat * 2 ^ 48 + c.slot.toNat * 2 ^ 32 + c.done % 2 ^ 32)) 4) ∧
        (c.state ≠ .stopped → fails resume 5) ∧
        (c.state = .stopped → ∃ t, exec resume s = .next t ∧ GeneralRegs s t ∧ HoldsAt s t d 0#64 ∧ t.pc = s.pc + 4#19 ∧
          t.me.copies = s.me.copies.map (fun q => if q.entry = e then { c with state := .queued, cause := 0#8, fetched := [] } else q) ∧
          t.mem = s.mem) ∧
        (∃ t, exec cancel s = .next t ∧ GeneralRegs s t ∧ HoldsAt s t d (BitVec.ofNat 64 c.sent) ∧ t.pc = s.pc + 4#19 ∧
          t.me.copies = s.me.copies.filter (fun q => q.entry ≠ e) ∧ t.mem = s.mem ∧
          t.windows = s.windows.map fun w => if c.kind = .remote ∧ c.partIn = 1 ∧ w.index = ptrWindow (c.dw 0) then
            { w with inflight := w.inflight - 1 } else w))) ∧
    (let j := Instr.mgCheck d a
     (∀ at_, s.readTable id = .bad at_ → exec j s = .next (s.padFault at_)) ∧
     (s.readTable id = .breach → fails j 6) ∧
     (∀ header weights, s.readTable id = .ok header weights →
      let z := weights.map f32Units
      ∃ t, exec j s = .next t ∧ Writes s t d (BitVec.ofNat 64 (weights.length + (z.filter (· ≠ 0)).length * 2 ^ 8 +
        (if z.sum = 2 ^ 149 then 2 ^ 15 else 0) + (if z.all fun y => y == 0 || (List.range 300).any fun k => y == 2 ^ k then 2 ^ 16 else 0))) 4))

/-! ## The matrix engine (12_matrix.md) -/

/-- R87 to R90, R342 to R349, R351, R359, R360, R363 to R370: mattach takes the lowest free units and mdetach gives the last ones back; mshape
sets a legal pair of types; mldb loads a latch; mma and mma.mx add to every accumulator of a tile its row and column product, and raise mnan
and minf: the products of a block of 32, scaled in mma.mx, are summed exactly where they lie within the window, and rounded once to the
nearest f32, lns6 products in one block of 64; mzero, mfill and mload write a tile, mdrain and msave read one. A tile outside the grant traps
GRANT, a form on a vector register while voff is set VECTOR_OFF, a pair outside Table 12.3 ILLEGAL. (An entry runs in the step that issues it
where the queues are empty, log 24; GRANT is tried before the alignment of msave and mload, log 42.) -/
def Obligations.MatrixInstructionsActOnTiles : Prop :=
  ∀ (tile : BitVec 3) (g : BitVec 2) (l : BitVec 1) (a b : BitVec 5) (s : State) (n : BitVec 8) (u0 : Slot), s.me.run = some n →
    s.me.slot? n = some u0 → s.me.ctx.vq = [] → s.me.ctx.mq = [] →
    let voff : Prop := s.me.ctx.status.getLsbD 8 = true
    let granted : Prop := tile.toNat < s.issueCount
    let u := s.me.grant.getD tile.toNat 0#3
    let shape := s.me.mshape
    let at_ := bits shape 4 0
    let bt := bits shape 12 8
    let narrow (t : Nat) : Prop := 12 ≤ t ∧ t ≤ 15
    let traps (j : Instr) (code : BitVec 8) (e : Word) (st : Bool) : Prop := exec j s = .next (s.trap code e st s.pc)
    let base := 8 * g.toNat
    let half := (s.x b).getLsbD 0
    let lo := if half then 4096 else 0
    let group : BitVec 5 := g ++ 0#3
    let mxPair : Prop := (narrow at_ ∧ narrow bt) ∨ (at_ = 16 ∧ bt = 16)
    let o := (s.x a).toNat
    let pad : Word := BitVec.ofNat 64 (0x10000000000 + s.me.id.toNat * 0x100000 + o)
    let badAt (i : Nat) : Prop := i < 4096 ∧ s.accBad u (lo + i) ∧ ∀ k < i, ¬s.accBad u (lo + k)
    let stopsAt (j : Instr) : Prop := ∀ i, badAt i → ∃ t, exec j s = .next t ∧ StopsAtAccumulator s t n (32768 * tile.toNat + 4 * (lo + i))
    let sound : Prop := ∀ i < 4096, ¬s.accBad u (lo + i)
    let flagged (t : State) : Prop := ∀ i, t.me.mshape.getLsbD i = true ↔ shape.getLsbD i = true ∨
      (i = 62 ∧ ∃ k < 8192, 8192 * u.toNat + k ∉ s.mov.bad ∧ isNan32 (t.tileAcc u k) = true) ∨
      (i = 61 ∧ ∃ k < 8192, 8192 * u.toNat + k ∉ s.mov.bad ∧ isInf32 (t.tileAcc u k) = true)
    ((∀ v ∈ s.me.slots, v.ctx.mq = []) → s.issueCount = s.me.grant.length) ∧
    (voff → ∀ j ∈ [Instr.mma tile a l, .mmaMx tile a b l, .mldb l g, .mdrain g tile b, .mfill tile g b], traps j 0x04#8 0#64 false) ∧
    (¬voff → shape.getLsbD 63 = true → traps (.mma tile a l) 0x01#8 0#64 false) ∧
    (¬voff → shape.getLsbD 63 = true ∨ ¬mxPair → traps (.mmaMx tile a b l) 0x01#8 0#64 false) ∧
    (¬granted → (¬voff → shape.getLsbD 63 = false → traps (.mma tile a l) 0x0B#8 (tile.zeroExtend 64) false ∧
        (mxPair → traps (.mmaMx tile a b l) 0x0B#8 (tile.zeroExtend 64) false)) ∧
      (¬voff → ∀ j ∈ [Instr.mdrain g tile b, .mfill tile g b], traps j 0x0B#8 (tile.zeroExtend 64) false) ∧
      ∀ j ∈ [Instr.mzero tile, .msave tile a b, .mload tile a b], traps j 0x0B#8 (tile.zeroExtend 64) false) ∧
    (let want := min (s.x a).toNat (8 - s.me.grant.length)
     let free := ((List.range 8).map (BitVec.ofNat 3)).filter fun i => (s.mov.owner[i.toNat]'(i.isLt)).isNone && !s.mov.freeing.contains i
     let got := free.take want
     ∃ t, exec (.mattach a) s = .next t ∧ OnlyMatrix s t ∧ t.me.grant = s.me.grant ++ got ∧ t.me.latches = s.me.latches ∧
       t.me.mshape = shape ∧ t.me.copies = s.me.copies ∧ t.me.rowwait = s.me.rowwait + (if got.length < want then 1#64 else 0#64) ∧
       t.mov = { s.mov with owner := t.mov.owner } ∧
       ∀ i : BitVec 3, t.mov.owner[i.toNat]'(i.isLt) = if i ∈ got then some s.me.id else s.mov.owner[i.toNat]'(i.isLt)) ∧
    ((s.me.copies.map (·.entry)).Nodup →
     let keep := s.me.grant.length - min (s.x a).toNat s.me.grant.length
     let gone := s.me.grant.drop keep
     ∃ t, exec (.mdetach a) s = .next t ∧ OnlyMatrix s t ∧ t.me.grant = s.me.grant.take keep ∧ t.me.latches = s.me.latches ∧
       t.me.mshape = shape ∧ t.me.rowwait = s.me.rowwait ∧
       t.me.copies = s.me.copies.filter (fun c => !c.unitsTouched.any gone.contains) ∧
       t.mov = { s.mov with owner := t.mov.owner, freeing := s.mov.freeing ++ gone } ∧
       ∀ i : BitVec 3, t.mov.owner[i.toNat]'(i.isLt) = if i ∈ gone then none else s.mov.owner[i.toNat]'(i.isLt)) ∧
    (let w := s.x a
     let pa := bits w 4 0
     let pb := bits w 12 8
     let legal : Prop := bits w 63 13 = 0 ∧ bits w 7 5 = 0 ∧ ((narrow pa ∧ narrow pb) ∨ (pa = pb ∧ pa ∈ [10, 11, 16, 17]))
     ∃ t, exec (.mshape a) s = .next t ∧ t = { s with me := { s.me with
       ctx := { s.me.ctx with pc := s.pc + 4#19 }, mshape := t.me.mshape } } ∧
       (legal → t.me.mshape = w) ∧ (¬legal → t.me.mshape = 0x8000000000000000#64)) ∧
    (¬voff → ∃ t, exec (.mldb l g) s = .next t ∧ t = { s with me := { s.me with
       ctx := { s.me.ctx with pc := s.pc + 4#19 }, latches := t.me.latches } } ∧
       (∀ k : BitVec 1, k ≠ l → t.me.latches[k.toNat]'(k.isLt) = s.me.latches[k.toNat]'(k.isLt)) ∧
       (t.me.latches[l.toNat]'(l.isLt)).valid = false ∧
       ∀ i, i < 4096 → (t.me.latches[l.toNat]'(l.isLt)).data.toNat / 2 ^ (32 * i) % 2 ^ 32 = s.me.ctx.elem base 32 i) ∧
    (granted →
      (¬voff → shape.getLsbD 63 = false →
        let row (r : Nat) : Nat := elemAt 512 (s.me.ctx.vReg a.toNat) r
        let column (x : BitVec 131072) (j : Nat) : Nat := elemAt 512 x.toNat j
        let latch := s.me.latches[l.toNat]'(l.isLt)
        let rule (scale : Nat → Nat → Option (Nat → Nat × Nat)) (i : Nat) : Nat :=
          if 8192 * u.toNat + i ∈ s.mov.bad then s.tileAcc u i
          else accumulateRow shape (row (i / 256)) (column latch.data (i % 256)) (s.tileAcc u i) (scale (i / 256) (i % 256))
        (∃ t, exec (.mma tile a l) s = .next t ∧ OnlyMatrix s t ∧ TileIs s t u (rule fun _ _ => none) (fun _ => False) ∧
          flagged t ∧ t.me.latches = s.me.latches ∧ t.me.grant = s.me.grant ∧ t.me.copies = s.me.copies) ∧
        (mxPair →
          let v := s.me.ctx.vReg b.toNat
          let scales := if latch.valid then latch.scales else BitVec.ofNat 8192 (v / 2 ^ 2048)
          ∃ t, exec (.mmaMx tile a b l) s = .next t ∧ OnlyMatrix s t ∧
            TileIs s t u (rule fun r j => some fun q => (elemAt 8 v (4 * r + q), elemAt 8 scales.toNat (4 * j + q))) (fun _ => False) ∧
            flagged t ∧ t.me.grant = s.me.grant ∧ t.me.copies = s.me.copies ∧
            t.me.latches[l.toNat]'(l.isLt) = ⟨latch.data, scales, true⟩ ∧
            ∀ k : BitVec 1, k ≠ l → t.me.latches[k.toNat]'(k.isLt) = s.me.latches[k.toNat]'(k.isLt))) ∧
      (let inHalf (i : Nat) : Prop := lo ≤ i ∧ i < lo + 4096
       let kept (t : State) : Prop := OnlyMatrix s t ∧ t.me.latches = s.me.latches ∧ t.me.grant = s.me.grant ∧ t.me.mshape = shape ∧
         t.me.copies = s.me.copies
       (∃ t, exec (.mzero tile) s = .next t ∧ kept t ∧ TileIs s t u (fun _ => 0) (fun _ => True)) ∧
       (¬voff → ∃ t, exec (.mfill tile g b) s = .next t ∧ kept t ∧
         TileIs s t u (fun i => if lo ≤ i ∧ i < lo + 4096 then s.me.ctx.elem base 32 (i - lo) else s.tileAcc u i) inHalf) ∧
       (¬voff → ∀ s1, s.claimDirty (BitVec.ofNat 64 (255 * 2 ^ base)) = (s1, true) →
         stopsAt (.mdrain g tile b) ∧
         (sound → ∃ t, exec (.mdrain g tile b) s = .next t ∧ OnlyContext s1 t ∧ Elements s t base 8 32 (fun i => some (s.tileAcc u (lo + i))) ∧
           t.me.ctx = { s.me.ctx with
             pc := s.pc + 4#19, v := t.me.ctx.v, vdirty := s.me.ctx.vdirty ||| BitVec.ofNat 64 (255 * 2 ^ base), ldst := 1#1 ++ group })) ∧
       (o % 1024 ≠ 0 → traps (.msave tile a b) 0x03#8 pad true ∧ traps (.mload tile a b) 0x03#8 pad false) ∧
       (o % 1024 = 0 → o < 0x10000 ∨ 0x100000 < o + 16384 →
         traps (.msave tile a b) 0x06#8 pad true ∧ traps (.mload tile a b) 0x06#8 pad false) ∧
       (o % 1024 = 0 → 0x10000 ≤ o → o + 16384 ≤ 0x100000 → Healthy s → CacheSound s →
         let s0 := s.drained
         stopsAt (.msave tile a b) ∧
         (sound → ∃ t, exec (.msave tile a b) s = .next t ∧
           t = { s0 with me := { s0.me with ctx := { s.me.ctx with pc := s.pc + 4#19 } }, mem := t.mem, l2 := t.l2 } ∧
           (∀ i, i < 4096 → t.physRead (pad.toNat + 4 * i) 4 = s.tileAcc u (lo + i)) ∧
           ∀ q, q < pad.toNat ∨ pad.toNat + 16384 ≤ q → memByte t.mem q = memByte s0.mem q) ∧
         (∃ t, exec (.mload tile a b) s = .next t ∧ OnlyMatrix s0 t ∧ t.me.latches = s.me.latches ∧ t.me.grant = s.me.grant ∧
           t.me.mshape = shape ∧ t.me.copies = s.me.copies ∧
           TileIs s t u (fun i => if lo ≤ i ∧ i < lo + 4096 then s0.physRead (pad.toNat + 4 * (i - lo)) 4 else s.tileAcc u i) inHalf)))) ∧
    (∀ (terms : List Machine.Num) (k : Int) (acc : Nat) (x : Exact), terms.all (fun t => !t.isNan) = true →
      (∀ n m e, Machine.Num.fin n m e ∈ terms → k ≤ e) →
      (∀ n m e i j f, Machine.Num.fin n m e ∈ terms → Machine.Num.fin i j f ∈ terms → 0 < m → 0 < j → (Size.quot j 1 f).vs 1 (e + 120) = .lt) →
      ((∀ t ∈ terms, ∃ n m e, t = .fin n m e) →
        ExactlyIs (exactSum terms) (sumAt k terms) k (decide (terms ≠ []) && terms.all fun t => t.isZero && t.isNeg)) ∧
      (Machine.Num.inf true ∈ terms → Machine.Num.inf false ∈ terms → exactSum terms = .nan true) ∧
      (∀ n, Machine.Num.inf n ∈ terms → Machine.Num.inf (!n) ∉ terms → exactSum terms = .inf n false) ∧
      (∀ v ∈ terms, exactSum (.nan false :: v :: terms) = .nan true) ∧
      accumulate acc x = (FloatFmt.f32.finish ⟨0, false, false, 0⟩ (addNum 0 (FloatFmt.f32.read false acc) x.num)).1) ∧
    (∀ (word : Word) (r c acc : Nat) (scale : Nat → Nat × Nat),
      let ta := bits word 4 0
      let width (t : Nat) : Nat := if t = 16 then 4 else if t = 10 ∨ t = 11 then 16 else 8
      let num (t b : Nat) : Machine.Num := ((elemOf t).getD .lns6).read 0#64 b
      let product (i : Nat) : Machine.Num := (mulNum (num ta (elemAt (width ta) r i)) (num (bits word 12 8) (elemAt (width (bits word 12 8)) c i))).1
      let block (q : Nat) : Exact := exactSum ((List.range 32).map fun i => product (32 * q + i))
      let scaled (q : Nat) : Exact :=
        if (scale q).1 = 255 ∨ (scale q).2 = 255 then .nan false
        else (mulNum (block q).num (.fin false 1 (((scale q).1 : Int) + (scale q).2 - 254))).1.exact false
      let blocks := List.range (512 / width ta / 32)
      (elemOf ta).isSome = true → (elemOf (bits word 12 8)).isSome = true →
      (ta ≠ 17 → accumulateRow word r c acc none = blocks.foldl (fun a q => accumulate a (block q)) acc ∧
        accumulateRow word r c acc (some scale) = blocks.foldl (fun a q => accumulate a (scaled q)) acc) ∧
      (ta = 17 → accumulateRow word r c acc none =
        accumulate acc (exactSum ((List.range 64).map fun i => lnsProduct (elemAt 8 r i % 64) (elemAt 8 c i % 64))))) ∧
    (∀ x y : Nat, x < 64 → y < 64 →
      let s := ((x % 32 + y % 32 : Nat) : Int) - 32
      lnsProduct x y = if x % 32 = 0 ∨ y % 32 = 0 then .fin false 0 0
        else .fin (x.testBit 5 != y.testBit 5) ([8388608, 9975792, 11863283, 14107901].getD (s % 4).toNat 0) (s / 4 - 23))

/-! ## Pages and spaces (13_address_space.md) -/

/-- R391, R393, R396, R397: palloc takes the top frame of a pool, which is then held by its crew, and acquires; pfree gives a held frame back
to a pool, after a release. An empty pool fails with NOROOM, a mapped frame with BUSY, a frame of no such state and a pool word of the wrong
level with BADARG, a crew that does not exist with PRIVILEGE. (The bits of the pool word that R396 does not name are ignored: log 40, the
model's.) -/
def Obligations.FramesMoveBetweenPoolsAndCrews : Prop :=
  ∀ (d a b : BitVec 5) (s : State),
    let w := s.x a
    let named := bits w 10 4
    let s1 := s.release 3#3
    let fails (s' : State) (j : Instr) (code : Nat) : Prop := ∃ t, exec j s = .next t ∧ Writes s' t d (BitVec.ofNat 64 (2 ^ 63 + code)) 4
    let badWord : Prop := (s.sup = false ∧ named ≠ 0) ∨ (s.sup = true ∧ (named = 0 ∨ 64 < named))
    let nobody : Prop := s.crew? (if s.sup then BitVec.ofNat 7 named else s.crew) = none
    (badWord → fails s (.palloc d a) 6 ∧ fails s (.pfree d a b) 6) ∧
    (¬badWord → nobody → fails s (.palloc d a) 1 ∧ fails s (.pfree d a b) 1) ∧
    (∀ r pool, PoolNamed s w r pool → PoolPlaced r pool → Healthy s → CacheSound s →
      let at_ := r.poolTable + 32 * pool
      (s.poolTop r pool = none → fails s (.palloc d a) 2) ∧
      (∀ f, s.poolTop r pool = some f → ∃ t, exec (.palloc d a) s = .next t ∧ GeneralRegs s t ∧
        HoldsAt s t d (BitVec.ofNat 64 (f * 65536)) ∧ t.pc = s.pc + 4#19 ∧ t.me.ctx.ldst = 0#1 ++ d ∧
        FrameIs s t ⟨f, .held, r.num, 0xFFFFFF#24⟩ ∧ Acquired 3#3 t ∧
        (PoolQuiet s r pool → ∀ q, memByte t.mem q = poolByte s r pool
          (nextHead (s.physRead at_ 8) (((s.frame? f).map fun e => e.link.toNat).getD 0xFFFFFF)) (s.physRead (at_ + 8) 4 - 1) q)) ∧
      (let x := (s.x b).toNat
       let f := x / 65536
       let j := Instr.pfree d a b
       let outside : Prop := x % 65536 ≠ 0 ∨ hbmSize ≤ x ∨ s.romBase ≤ x
       let heldBy : Prop := ∃ e, s.frame? f = some e ∧ e.state = .held ∧ e.crew = r.num
       (outside → fails s1 j 6) ∧
       (¬outside → (∃ e, s.frame? f = some e ∧ e.state = .mapped) → fails s1 j 5) ∧
       (¬outside → (∀ e, s.frame? f = some e → e.state ≠ .mapped) → ¬heldBy → ¬(s.sup = true ∧ s.frame? f = none) → fails s1 j 6) ∧
       (¬outside → heldBy ∨ (s.sup = true ∧ s.frame? f = none) → ∃ t, exec j s = .next t ∧ GeneralRegs s t ∧ HoldsAt s t d 0#64 ∧
         t.pc = s.pc + 4#19 ∧ t.me.ctx.ldst = 0#1 ++ d ∧ Released 3#3 t ∧
         FrameIs s t ⟨f, .pooled, r.num, BitVec.ofNat 24 (s1.physRead at_ 8)⟩ ∧
         ∀ q, memByte t.mem q = poolByte s1 r pool (nextHead (s1.physRead at_ 8) f) (s1.physRead (at_ + 8) 4 + 1) q)))

/-- R387, R394, R395: pcommit gives the page of an arena a held frame, or one from its arena's pool, zeroed, and writes its 16 entries;
pdecommit clears them, drops the page's translations and holds or frees the frame; no core then holds anything of the frame. A page that is
already as asked for fails with BUSY, an address of no arena page, a frame the crew does not hold, a reserved flag and, in mode 0xB, a frame
that BAR2 does not map (log 60) with BADARG, an empty pool with NOROOM; pdecommit waits while a swap pair of the page is active (R414). -/
def Obligations.PagesAreCommittedAndDecommitted : Prop :=
  ∀ (d a b : BitVec 5) (s : State),
    let va := (s.x a).toNat / 65536 * 65536
    let y := s.x b
    let s1 := s.release 3#3
    let fails (s' : State) (j : Instr) (code : Nat) : Prop := ∃ t, exec j s = .next t ∧ Writes s' t d (BitVec.ofNat 64 (2 ^ 63 + code)) 4
    let answers (t : State) (f : Nat) : Prop := GeneralRegs s t ∧ HoldsAt s t d (BitVec.ofNat 64 (f * 65536)) ∧ t.pc = s.pc + 4#19 ∧
      t.me.ctx.ldst = 0#1 ++ d
    let commit := Instr.pcommit d a b
    let decommit := Instr.pdecommit d a b
    (s.arenaPage va = none → fails (s.consumePath va) commit 6 ∧ fails (s.consumePath va) decommit 6 ∧ (Healthy s → s.consumePath va = s)) ∧
    (∀ r arena pte, s.arenaPage va = some (r, arena, pte) → y.toNat < 2 → (∃ p ∈ s.swaps, p.nearEntry = pte ∨ p.farEntry = pte) →
      exec decommit s = .next s) ∧
    (∀ r arena pte, s.arenaPage va = some (r, arena, pte) → pte % 8 = 0 → (∀ i < 16, resourceByte (pte + 8 * i) = none) → Healthy s → CacheSound s →
      let asid := spaceAsid r.space
      let pool := bits (arena.getD 2 0#64) 3 0
      let pbmt := bits (arena.getD 2 0#64) 62 61
      let at_ := r.poolTable + 32 * pool
      let leaf (page : Nat) : Nat := (2 ^ 63 + pbmt * 2 ^ 61 + (page * 16 + 8) * 2 ^ 10 + 0xD7) % 2 ^ 64
      let covered (i : BitVec 16) (base size : Nat) : Prop := i = asid ∧ base < va + 65536 ∧ va < base + size
      let heldBy : Prop := ∃ e, s.frame? (y.toNat / 65536) = some e ∧ e.state = .held ∧ e.crew = r.num
      let badFrame : Prop := y.toNat % 65536 ≠ 0 ∨ (y ≠ 0#64 ∧ ¬heldBy)
      (badFrame → fails s commit 6) ∧
      (¬badFrame → NothingWaits s asid va →
        (¬EntriesRead s1 pte 0 → fails s1 commit 5) ∧
        (EntriesRead s1 pte 0 → y ≠ 0#64 → s.tablePage r (y.toNat / 65536) = none → fails s1 commit 6) ∧
        (∀ page, EntriesRead s1 pte 0 → y ≠ 0#64 → s.tablePage r (y.toNat / 65536) = some page → ∃ t, exec commit s = .next t ∧
          answers t (y.toNat / 65536) ∧ Released 3#3 t ∧ EntriesRead t pte (leaf page) ∧ FrameIs s t ⟨y.toNat / 65536, .mapped, r.num, 0xFFFFFF#24⟩ ∧
          (CoresSound s → NoneHolds t y.toNat (y.toNat + 65536)) ∧
          (OthersQuiet s → ∀ q, q < pte ∨ pte + 128 ≤ q → memByte t.mem q = memByte s1.mem q)) ∧
        (EntriesRead s1 pte 0 → y = 0#64 → PoolPlaced r pool →
          (s1.poolTop r pool = none → fails s1 commit 2) ∧
          (∀ f, s1.poolTop r pool = some f → PoolQuiet s1 r pool → s.tablePage r f = none → fails s1 commit 6) ∧
          (∀ f page, s1.poolTop r pool = some f → PoolQuiet s1 r pool → s.tablePage r f = some page → ∃ t, exec commit s = .next t ∧
            answers t f ∧ EntriesRead t pte (leaf page) ∧ FrameIs s t ⟨f, .mapped, r.num, 0xFFFFFF#24⟩ ∧
            (CoresSound s → NoneHolds t (f * 65536) (f * 65536 + 65536)) ∧
            ((∀ k ∈ s.others, ∀ w ∈ k.wq, w.meets (f * 65536) 65536 = false) → ∀ q, q < pte ∨ pte + 128 ≤ q → memByte t.mem q =
              if f * 65536 ≤ q ∧ q < f * 65536 + 65536 then 0#8
              else poolByte s1 r pool (nextHead (s1.physRead at_ 8) (((s.frame? f).map fun e => e.link.toNat).getD 0xFFFFFF))
                (s1.physRead (at_ + 8) 4 - 1) q)))) ∧
      (2 ≤ y.toNat → fails s decommit 6) ∧
      (y.toNat < 2 → NothingWaits s asid va →
        (EntriesRead s1 pte 0 → fails s1 decommit 5) ∧
        (¬EntriesRead s1 pte 0 →
          let f := s.tableFrame r (s1.physRead pte 8 / 2 ^ 10 % 2 ^ 44 / 16)
          (y = 0#64 → ∃ t, exec decommit s = .next t ∧ answers t f ∧ Released 3#3 t ∧ FrameIs s t ⟨f, .held, r.num, 0xFFFFFF#24⟩ ∧
            TranslationsGone s t covered ∧ (CoresSound s → NoneHolds t (f * 65536) (f * 65536 + 65536)) ∧
            (OthersQuiet s → EntriesRead t pte 0 ∧ ∀ q, q < pte ∨ pte + 128 ≤ q → memByte t.mem q = memByte s1.mem q)) ∧
          (y = 1#64 → PoolPlaced r pool → at_ + 32 ≤ pte ∨ pte + 128 ≤ at_ → ∃ t, exec decommit s = .next t ∧ answers t f ∧
            TranslationsGone s t covered ∧ (CoresSound s → NoneHolds t (f * 65536) (f * 65536 + 65536)) ∧
            (OthersQuiet s → EntriesRead t pte 0 ∧ FrameIs s t ⟨f, .pooled, r.num, BitVec.ofNat 24 (s1.physRead at_ 8)⟩ ∧
              ∀ q, q < pte ∨ pte + 128 ≤ q → memByte t.mem q =
                poolByte s1 r pool (nextHead (s1.physRead at_ 8) f) (s1.physRead (at_ + 8) 4 + 1) q)))))

/-- R380, R398, R399: tlbinv and space are of level S: tlbinv releases and removes the translations that its selector covers from the whole
device, once what they led to is performed;
space gives a user crew another space, under its own asid, on the cores bound to it as well, once the vector accesses in flight there are
drained, and answers the old one. -/
def Obligations.TranslationsAndSpacesAreSupervised : Prop :=
  ∀ (d a b c : BitVec 5) (s : State),
    let fails (j : Instr) (code : Nat) : Prop := ∃ t, exec j s = .next t ∧ Writes s t d (BitVec.ofNat 64 (2 ^ 63 + code)) 4
    (s.sup = false → ∀ j ∈ [Instr.tlbinv d a b c, .space d a b], exec j s = .next (s.trap 0x02#8 0#64 false s.pc)) ∧
    (s.sup = true →
      (let sel := s.x a
       let asid := sel.extractLsb' 44 16
       let base := (s.x b).toNat
       let len := min (s.x c).toNat (2 ^ 47)
       let covered (i : BitVec 16) (page size : Nat) : Prop := bits sel 1 0 = 2 ∨ (i = asid ∧ (bits sel 1 0 = 1 ∨
         (0 < len ∧ page < base + len ∧ base < page + size)))
       (bits sel 1 0 = 3 → fails (.tlbinv d a b c) 6) ∧
       (bits sel 1 0 ≠ 3 → (∀ e ∈ s.faults, covered e.asid (e.key * e.size) e.size → e.signalled = true) → Healthy s → CacheSound s →
         ∃ t, exec (.tlbinv d a b c) s = .next t ∧ GeneralRegs s t ∧ HoldsAt s t d 0#64 ∧ t.pc = s.pc + 4#19 ∧ t.me.ctx.ldst = 0#1 ++ d ∧
           Released 3#3 t ∧ (OthersQuiet s → HomeKept s t) ∧ t.frames = s.frames ∧ TranslationsGone s t covered ∧
           (∀ m e, e ∈ (t.movAt m).tlb ↔ e ∈ (s.movAt m).tlb ∧ ¬covered e.asid e.base e.size) ∧
           (∀ e, e ∈ t.pointers ↔ e ∈ s.pointers ∧ ¬covered e.asid e.base (2 ^ (12 + 9 * e.level))) ∧
           ∀ e, e ∈ t.ats ↔ e ∈ s.ats ∧ ¬covered e.asid (e.page * 4096) 4096)) ∧
      (let n := (s.x a).toNat
       let mode := bits (s.x b) 63 60
       let j := Instr.space d a b
       (n = 0 ∨ 64 < n → fails j 6) ∧
       (1 ≤ n → n ≤ 64 → s.crew? (BitVec.ofNat 7 n) = none → fails j 1) ∧
       (∀ r, 1 ≤ n → n ≤ 64 → s.crew? (BitVec.ofNat 7 n) = some r →
        (mode ∉ [0, 10, 11] → fails j 6) ∧
        (mode ∈ [0, 10, 11] →
          let bound := (s.others.filter fun k => k.bound = BitVec.ofNat 7 n).map (·.id)
          let s1 := bound.foldl State.emptyQueues s
          ((∃ k ∈ bound, s1.drainsYet k = true) → exec j s = .next s1) ∧
          ((∀ k ∈ bound, s1.drainsYet k = false) → ∃ t w, exec j s = .next t ∧ GeneralRegs s1 t ∧ HoldsAt s1 t d r.space ∧
            t.pc = s1.pc + 4#19 ∧ t.me.ctx.ldst = 0#1 ++ d ∧ t.mem = s1.mem ∧ w.extractLsb' 44 16 = BitVec.ofNat 16 (0x100 + n) ∧
            (∀ i, i < 44 ∨ 60 ≤ i → w.getLsbD i = (s.x b).getLsbD i) ∧
            t.crews = s1.crews.map (fun q => if q.num = BitVec.ofNat 7 n then { q with space := w } else q) ∧
            ∀ k, (t.coreAt k).space = if (s1.coreAt k).bound = BitVec.ofNat 7 n then w else (s1.coreAt k).space) ∧
          ((∀ k ∈ bound, s.drainsYet k = false) → s1.mem = s.mem ∧ s1.me = s.me ∧ s1.crews = s.crews ∧ ∀ k, s1.coreAt k = s.coreAt k)))))

/-! ## Messages and rankings (08_tokens.md, 09_visibility.md, 15_complications.md) -/

/-- R250, R259, R260, R288: send reads its block, reserves the buffer at its mailbox's tail and queues the copy of its bytes; it waits for a
buffer, fails where the block, the kind or the buffer is wrong, and is logged where its crew is not bound to the home core (R246, R252). post
puts a buffer behind the posted ones. Both wait while an earlier operation to the home core is still to be sent (R238). vfence.arrive
signals its token at its commit, for which the outgoing queue must have room. -/
def Obligations.MessagesAreSentAndBuffersPosted : Prop :=
  ∀ (d a b : BitVec 5) (sc : BitVec 3) (s : State) (n : BitVec 8) (u : Slot), s.me.run = some n → s.me.slot? n = some u →
    let h := s.x a
    let served (s' : State) : Prop := s'.behindPosted h = false ∧ (s.crew = 0#7 ∨
      (s'.boundTo (hCore h) s.crew = true ∧ (s'.coreAt (hCore h)).replay = false))
    let usable (s' : State) : Prop := served s' ∧ s'.stale s.crew h = false
    let fails (s' : State) (j : Instr) (code : Nat) : Prop := ∃ t, exec j s = .next t ∧ Writes s' t d (BitVec.ofNat 64 (2 ^ 63 + code)) 4
    (let va := s.x b
     let j := Instr.send d a b
     (s.sup = false → (hIndex h).toNat < 16 → exec j s = .next (s.trap 0x02#8 0#64 false s.pc)) ∧
     (s.sup = true ∨ 16 ≤ (hIndex h).toNat → va.toNat % 32 ≠ 0 → exec j s = .next (s.trap 0x03#8 va false s.pc)) ∧
     (∀ s1 l, 16 ≤ (hIndex h).toNat → va.toNat % 32 = 0 → s.loadDws va 4 = (s1, .ok l) → Healthy s1 → CacheSound s1 →
      let len := (l.getD 1 0#64).toNat
      let good : Prop := len < 2 ^ 24 ∧ l.getD 3 0#64 = 0#64
      let free : Prop := ∃ e, ∀ p ∈ s.me.copies, p.entry ≠ e
      let s2 := s1.release (s1.reach s1.me.id h)
      let c := s2.cellOf (hCore h) (hIndex h)
      let buffer := s2.physRead (slotAddr (hCore h) c c.tail.toNat) 8
      (¬good → fails s1 j 6) ∧ (good → hKind h ≠ 3#2 → fails s1 j 0x20) ∧
      (good → hKind h = 3#2 → ¬free → ∃ t, exec j s = .next t ∧ SuspendedOn s t n 4#16 ∧ t.me.copies = s.me.copies) ∧
      (good → hKind h = 3#2 → free → hDev h = s.devNo →
        (s2.behindPosted h = true → exec j s = .next s2) ∧
        (∀ r, s2.behindPosted h = false → s.crew ≠ 0#7 → s2.crew? s.crew = some r → s2.boundTo (hCore h) s.crew = false →
          r.logTail - r.logHead < 2 ^ r.logSize.toNat →
          ∃ t, exec j s = .next t ∧ GeneralRegs s t ∧ HoldsAt s t d 1#64 ∧ t.pc = s.pc + 4#19 ∧ t.me.copies = s.me.copies ∧
            (r.faulted = false → (t.crew? s.crew).map (·.logTail) = some (r.logTail + 1)) ∧
            (t.coreAt (hCore h)).slots = (s2.coreAt (hCore h)).slots) ∧
        (served s2 → s2.stale s.crew h = true → fails s2 j 9) ∧
        (usable s2 → c.posted = 0#16 → ∃ t w, exec j s = .next t ∧ t.me.run = none ∧ t.me.slot? n = some w ∧ w.waitFor = .resource ∧
          w.handle = h ∧ w.phase = 0x8000000000000000#64 ∧ w.ctx.pc = s.pc) ∧
        (usable s2 → c.posted ≠ 0#16 → buffer % 256 * 256 < len → fails s2 j 6) ∧
        (usable s2 → c.posted ≠ 0#16 → len ≤ buffer % 256 * 256 → ∃ t q, exec j s = .next t ∧ GeneralRegs s t ∧ HoldsAt s t d 0#64 ∧
          t.pc = s.pc + 4#19 ∧ t.me.run = some n ∧ Released (s.reach s.me.id h) t ∧ OnlyCell s2 t h ∧
          (t.cellOf (hCore h) (hIndex h)).tail = c.tail + 1#16 ∧ (t.cellOf (hCore h) (hIndex h)).posted = c.posted - 1#16 ∧
          (t.cellOf (hCore h) (hIndex h)).head = c.head ∧
          t.me.copies = s.me.copies ++ [q] ∧ (∀ p ∈ s.me.copies, p.entry ≠ q.entry) ∧ q.kind = .send ∧ q.state = .queued ∧ q.slot = n ∧
          q.desc.take 3 = l.take 3 ∧ q.dw 4 = h ∧ (q.dw 5).toNat = c.tail.toNat ∧ (q.dw 6).toNat = buffer / 256 * 256)))) ∧
    (let j := Instr.post d a b
     let c := s.cellOf (hCore h) (hIndex h)
     let here : Prop := hDev h = s.devNo ∧ hCore h = s.me.id
     let at_ := slotAddr (hCore h) c (c.tail.toNat + c.posted.toNat)
     let held : Prop := (c.tail - c.head).toNat + c.posted.toNat = 2 ^ c.lsize
     (¬here ∨ (s.x b).toNat % 256 = 0 → fails s j 6) ∧
     (here → (s.x b).toNat % 256 ≠ 0 →
      (hKind h ≠ 3#2 → fails s j 0x20) ∧
      (hKind h = 3#2 → s.heldByReplay s.crew h = true ∨ s.behindPosted h = true → exec j s = .next s) ∧
      (hKind h = 3#2 → s.heldByReplay s.crew h = false → s.behindPosted h = false →
        (s.stale s.crew h = true → fails s j 9) ∧
        (s.stale s.crew h = false → held → fails s j 2) ∧
        (s.stale s.crew h = false → ¬held → Healthy s → CacheSound s → 16 ≤ (hIndex h).toNat → resourceByte at_ = none →
          cellAddr (hCore h) (hIndex h) + 16 ≤ at_ → ∃ t, exec j s = .next t ∧ GeneralRegs s t ∧ HoldsAt s t d 0#64 ∧ t.pc = s.pc + 4#19 ∧
          (t.cellOf (hCore h) (hIndex h)).posted = c.posted + 1#16 ∧ (t.cellOf (hCore h) (hIndex h)).tail = c.tail ∧
          (t.cellOf (hCore h) (hIndex h)).head = c.head ∧ t.physRead at_ 16 = (s.x b).toNat ∧
          ∀ q, q < cellAddr (hCore h) (hIndex h) ∨ (cellAddr (hCore h) (hIndex h) + 16 ≤ q ∧ q < at_) ∨ at_ + 16 ≤ q →
            t.homeByte q = s.homeByte q)))) ∧
    (let j := Instr.vfenceArrive d a b sc
     let c := s.cellOf (hCore h) (hIndex h)
     let amount := if b = 0#5 then 1 else (s.x b).toNat
     (s.sup = false → (hIndex h).toNat < 16 → exec j s = .next (s.trap 0x02#8 0#64 false s.pc)) ∧
     (s.Keeps → 16 ≤ s.me.outq.length → s.sup = true ∨ 16 ≤ (hIndex h).toNat → ∃ t, exec j s = .next t ∧ t.mem = s.mem ∧
       t.me.outq = s.me.outq ∧ t.me.ctx.vq.length = 1 ∧ t.me.ctx = { s.me.ctx with pc := s.pc + 4#19, vq := t.me.ctx.vq }) ∧
     (s.Keeps → s.me.outq.length < 16 → s.sup = true ∨ 16 ≤ (hIndex h).toNat → Healthy s → CacheSound s →
      (hKind h ∉ [0#2, 1#2] → d = 0#5 → ∃ t, exec j s = .next t ∧ t.mem = s.mem ∧
        t.me.ctx = { s.me.ctx with
          pc := s.pc + 4#19, vstart := 0#16, status := if hDev h = s.devNo then s.me.ctx.status ||| 4#64 else s.me.ctx.status }) ∧
      (AppliesAtOnce s h → d = 0#5 ∨ s.x d = 0#64 → hKind h ∈ [0#2, 1#2] → ∃ t, exec j s = .next t ∧ OnlyCell s t h ∧
        t.me.ctx = { s.me.ctx with pc := s.pc + 4#19, vstart := 0#16 } ∧
        (hKind h = 0#2 → BarrierAfter c (t.cellOf (hCore h) (hIndex h)) amount c.ps false sc.toNat) ∧
        (hKind h = 1#2 → CountAfter c (t.cellOf (hCore h) (hIndex h)) amount sc.toNat))))

/-- R416 to R420, R429 to R431: topk writes the indices and keys of the k best scores, in order of rank, and its image; um.round commits the
best masked positions, clears their mask bits and lists them; um.dirty spreads the committed positions' blocks through the layers. The last
two fail with BADARG for a malformed block and change nothing else. -/
def Obligations.RankingsSelectTheBest : Prop :=
  ∀ (d a b : BitVec 5) (k : BitVec 2) (s : State),
    let c := s.me.ctx
    let fails (j : Instr) : Prop := ∃ t, exec j s = .next t ∧ Writes s t d (BitVec.ofNat 64 (2 ^ 63 + 6)) 4
    (∀ s1 : State,
      let t := vtElem c.vtype
      let w := t.width
      let n := vtN c.vtype
      let j := Instr.topk d a b k
      let legal : Bool := decide (vtEt c.vtype ∈ [2, 9, 10, 11, 13]) && decide (vlLen c.vl ≤ 4096) && groupOk a n && decide (d.toNat % 2 = 0) &&
        disjoint d 2 a n
      let dirty := vBits d 2 ||| shBit k
      let best := bits (s.x b) 8 0 + 1
      let merge := (s.x b).getLsbD 9
      let img := c.shadow k
      let valid := bits (shDw img 0) 18 16 == 4 && !(shDw img 0).getLsbD 31 && bits (shDw img 0) 26 22 == vtEt c.vtype && bits (shDw img 2) 9 0 == best
      let base := if merge && valid then bits (shDw img 1) 31 0 else (s.x b).toNat / 2 ^ 32
      let item (key i : Nat) (old : Bool) : RankItem := ⟨key, t.read 0#64 key, i, old⟩
      let merged := if merge then ((List.range best).filter fun i => c.elem d.toNat 32 i ≠ 0xFFFFFFFF).map fun i =>
        item (c.elem (d.toNat + 1) 32 i % 2 ^ w) (c.elem d.toNat 32 i) true else []
      let fresh := ((List.range (vlReal c.vl)).filter fun i => (base + i) % 2 ^ 32 ≠ 0xFFFFFFFF).map fun i =>
        item (c.elem a.toNat w i) ((base + i) % 2 ^ 32) false
      VStops s j legal ∧
      (VIssues s legal dirty s1 → ∃ u order, exec j s = .next u ∧ OnlyContext s1 u ∧
        u.me.ctx = { c with
          pc := s.pc + 4#19, v := u.me.ctx.v, sh := u.me.ctx.sh, vdirty := c.vdirty ||| dirty, ldst := 1#1 ++ d, vstart := 0#16 } ∧
        (vlLen c.vl = 0 → u.me.ctx.v = c.v ∧ u.me.ctx.sh = c.sh) ∧
        (0 < vlLen c.vl → List.Perm order (merged ++ fresh) ∧ order.Pairwise (fun p q => ranksBefore q p = false) ∧
          (∀ r : Fin 32, r.val ≠ d.toNat → r.val ≠ d.toNat + 1 → u.me.ctx.v[r] = c.v[r]) ∧
          (∀ i, i < 512 → u.me.ctx.elem d.toNat 32 i = (((order.take best)[i]?).map (·.index)).getD 0xFFFFFFFF ∧
            u.me.ctx.elem (d.toNat + 1) 32 i = (((order.take best)[i]?).map (·.keyBits)).getD 0) ∧
          (∀ m : BitVec 2, m ≠ k → u.me.ctx.shadow m = c.shadow m) ∧
          (u.me.ctx.shadow k).toNat = vtEt c.vtype * 2 ^ 22 + 4 * 2 ^ 16 + (base + vlReal c.vl) % 2 ^ 32 * 2 ^ 64 + best * 2 ^ 128))) ∧
    (let o := (s.x a).toNat
     let outside : Prop := o % 64 ≠ 0 ∨ o < 0x10000 ∨ 0x100000 < o + 64
     (outside → fails (.umRound d a b) ∧ fails (.umDirty d a)) ∧
     (¬outside → Healthy s → CacheSound s →
      let block := (List.range 8).map fun i => BitVec.ofNat 64 (s.pad (o + 8 * i) 8)
      let w (i : Nat) : Nat := (block.getD i 0#64).toNat
      (badRound block = true → fails (.umRound d a b)) ∧
      (badRound block = false →
        let n := w 0 % 2 ^ 13
        let f16 : Bool := (block.getD 0 0#64).getLsbD 16
        let conf (p : Nat) : Nat := if f16 then s.pad (w 1 + 2 * p) 2 else s.pad (w 1 + 4 * p) 4
        let key (p : Nat) : RankItem := ⟨conf p, (Elem.float (if f16 then .f16 else .f32)).read 0#64 (conf p), p, false⟩
        let masked := (List.range n).filter fun p => (s.pad (w 3 + p / 8) 1).testBit (p % 8)
        let r := masked.length
        let share := s.x b
        let count := if r = 0 then 0 else if share.getLsbD 31 then min r (bits share 12 0)
          else min r (max 1 ((bits share 15 0 * r + 65535) / 65536))
        Apart (w 3) ((n + 7) / 8) (w 4) (4 * n) → Apart (w 3) ((n + 7) / 8) (w 5) (4 * n) → Apart (w 4) (4 * n) (w 5) (4 * n) →
        ∃ t order, exec (.umRound d a b) s = .next t ∧ OnlyGeneralAndMemory s t ∧ HoldsAt s t d (BitVec.ofNat 64 count) ∧
          List.Perm order masked ∧ order.Pairwise (fun p q => ranksBefore (key p) (key q) = true) ∧
          (let chosen := order.take count
           (∀ p ∈ chosen, t.pad (w 4 + 4 * p) 4 = s.pad (w 2 + 4 * p) 4) ∧
           (∀ i, i < count → t.pad (w 5 + 4 * i) 4 = chosen.getD i 0) ∧
           (∀ p, p < 8 * ((n + 7) / 8) → (t.pad (w 3 + p / 8) 1).testBit (p % 8) =
             ((s.pad (w 3 + p / 8) 1).testBit (p % 8) && decide (p ∉ chosen))) ∧
           PadKept s t fun q => (∃ p ∈ chosen, w 4 + 4 * p ≤ q ∧ q < w 4 + 4 * p + 4) ∨ (w 3 ≤ q ∧ q < w 3 + (n + 7) / 8) ∨
             (w 5 ≤ q ∧ q < w 5 + 4 * count))) ∧
      (badDirty block = true → fails (.umDirty d a)) ∧
      (badDirty block = false →
        let layers := w 0 % 2 ^ 9
        let nb := w 0 / 2 ^ 16 % 2 ^ 7
        let merge : Bool := (block.getD 0 0#64).getLsbD 24
        ∃ (t : State) (dirty : Nat → Nat),
          (∀ i, (dirty 0).testBit i = true ↔ i < nb ∧ ∃ p, p < w 3 ∧ s.pad (w 2 + 4 * p) 4 / 64 = i) ∧
          (∀ l i, l < layers → ((dirty (l + 1)).testBit i = true ↔ i < nb ∧ ∃ m, m < nb ∧ (dirty l).testBit m = true ∧
            (s.pad (w 1 + l) 1 = 0xFF ∨ (i ≤ m + s.pad (w 1 + l) 1 ∧ m ≤ i + s.pad (w 1 + l) 1)))) ∧
          (let out (l : Nat) : Nat := if merge then s.pad (w 4 + 8 * l) 8 ||| dirty l else dirty l
           exec (.umDirty d a) s = .next t ∧ OnlyGeneralAndMemory s t ∧ (∀ l, l < layers → t.pad (w 4 + 8 * l) 8 = out l) ∧
             PadKept s t (fun q => w 4 ≤ q ∧ q < w 4 + 8 * layers) ∧
             HoldsAt s t d (BitVec.ofNat 64 (((List.range layers).map fun l => popNat 64 (out l)).sum))))))

/-! ## Windows and remote operations (16_pod.md) -/

/-- R437, R443, R446 to R448, R450, R451: wopen opens the next free window as its descriptor says and answers its pointer; wclose closes one
of its own crew; wld and the wamo operations through a window of this device read, or update, the bytes at its base plus the pointer's offset
in its owner's space, and trap WINDOW_CLOSED where no window admits them or there is no route, else with the target's failure, once the
coroutine's earlier operations to the device have passed and the host has answered for the page: the check at the window is made once, before
that wait (R439), and an uncorrectable unit is consumed (R440);
wfence.flag releases and signals its token behind the coroutine's remote stores. -/
def Obligations.WindowsAreOpenedAndUsed : Prop :=
  ∀ (d a b : BitVec 5) (size : BitVec 2) (q l : BitVec 1) (s : State) (n : BitVec 8) (u : Slot), s.me.run = some n → s.me.slot? n = some u →
    let p := s.x a
    let fails (s' : State) (j : Instr) (code : Nat) : Prop := ∃ t, exec j s = .next t ∧ Writes s' t d (BitVec.ofNat 64 (2 ^ 63 + code)) 4
    (let j := Instr.wopen d a
     (p.toNat % 64 ≠ 0 → exec j s = .next (s.trap 0x03#8 p false s.pc)) ∧
     (∀ s1 f at_, p.toNat % 64 = 0 → s.loadDws p 8 = (s1, .error (f, at_)) → exec j s = .next (s1.takeFault f at_ false s.pc)) ∧
     (∀ s1 l, p.toNat % 64 = 0 → s.loadDws p 8 = (s1, .ok l) →
      (badWindow l = true → fails s1 j 6) ∧
      (badWindow l = false → (∀ i, ∃ w ∈ s.windows, w.index = i) → fails s1 j 2) ∧
      (∀ i : Nat, badWindow l = false → 1 ≤ i → i ≤ 4096 → (∀ w ∈ s.windows, w.index ≠ s.lastWindow + BitVec.ofNat 12 i) →
        (∀ k, 1 ≤ k → k < i → ∃ w ∈ s.windows, w.index = s.lastWindow + BitVec.ofNat 12 k) →
        ∃ t w, exec j s = .next t ∧ GeneralRegs s t ∧ HoldsAt s t d (s.devNo ++ (s.lastWindow + BitVec.ofNat 12 i) ++ 0#42) ∧
          t.pc = s.pc + 4#19 ∧ t.mem = s1.mem ∧ t.windows = w :: s.windows ∧ w.index = s.lastWindow + BitVec.ofNat 12 i ∧
          t.lastWindow = w.index ∧ WindowDescribed w s.crew l))) ∧
    (let j := Instr.wclose d a b
     let i := p.extractLsb' 42 12
     ((∀ w ∈ s.windows, w.index ≠ i) → fails s j 1) ∧
     (∀ w, s.windows.find? (fun v => v.index = i) = some w →
      (hDev p ≠ s.devNo ∨ w.owner ≠ s.crew → fails s j 1) ∧
      (hDev p = s.devNo → w.owner = s.crew → w.state = .closing → fails s j 5) ∧
      (hDev p = s.devNo → w.owner = s.crew → w.state = .opened → ∃ t, exec j s = .next t ∧ GeneralRegs s t ∧ HoldsAt s t d 0#64 ∧
        t.pc = s.pc + 4#19 ∧ t.mem = s.mem ∧
        t.windows = s.windows.map fun v => if v.index = i then { v with state := .closing, completion := s.x b } else v))) ∧
    (let k := 2 ^ size.toNat
     let j := Instr.wld d a size q
     (p.toNat % k ≠ 0 → exec j s = .next (s.trap 0x03#8 p false s.pc)) ∧
     (p.toNat % k = 0 → ¬NothingBefore s n (hDev p) false → exec j s = .next s) ∧
     (p.toNat % k = 0 → NothingBefore s n (hDev p) false →
      (hDev p ≠ s.devNo → s.hasRoute (hDev p) = false → exec j s = .next ((s.countRefusal s.me.id).trap 0x0A#8 p false s.pc)) ∧
      (hDev p ≠ s.devNo → s.hasRoute (hDev p) = true → ∃ t r, exec j s = .next t ∧ t.podOut = s.podOut ++ [r] ∧ r.kind = .load ∧ r.addr = p ∧
        r.crew = s.crew ∧ r.bytes.toNat = k ∧ t.mem = s.mem) ∧
      (hDev p = s.devNo → s.me.passed ≠ some p → (∀ w, ¬Admits s w (·.r) p k) →
        exec j s = .next ((s.countRefusal s.me.id).trap 0x0A#8 p false s.pc)) ∧
      (∀ w s1, Passes s w (·.r) p k →
        let va := w.base + BitVec.ofNat 64 (bits p 41 0)
        let here : State := { s with me := { s.me with passed := none } }
        (s.endpointPage w false va = (s1, .error .wait) → exec j s = .next { s1 with me := { s1.me with passed := some p } }) ∧
        (∀ f, f ≠ .wait → here.endpointPage w false va = (s1, .error f) → exec j s = .next (s1.trap f.failCode p false s.pc)) ∧
        (∀ pa, here.endpointPage w false va = (s1, .ok pa) → s1.isBad pa k = true →
          exec j s = .next ((s1.consumeAt 0#10 pa va.toNat).trap 0x08#8 p false s.pc)) ∧
        (∀ pa, here.endpointPage w false va = (s1, .ok pa) → Healthy s1 → ∃ t, exec j s = .next t ∧ GeneralRegs s t ∧
          HoldsAt s t d (BitVec.ofNat 64 (s1.physRead pa k)) ∧ t.pc = s.pc + 4#19 ∧ t.mem = s1.mem ∧ (q = 1#1 → Acquired 4#3 t))))) ∧
    (∀ r ∈ wamoRows d a b q l (s.x b) (s.x d),
      let s0 := if l = 1#1 then s.release 4#3 else s
      (p.toNat % 8 ≠ 0 → exec r.1 s = .next (s.trap 0x03#8 p true s.pc)) ∧
      (p.toNat % 8 = 0 → ¬NothingBefore s n (hDev p) false → exec r.1 s = .next s) ∧
      (p.toNat % 8 = 0 → NothingBefore s n (hDev p) false →
        (hDev p ≠ s.devNo → s.hasRoute (hDev p) = false → exec r.1 s = .next ((s0.countRefusal s.me.id).trap 0x0A#8 p true s.pc)) ∧
        (hDev p ≠ s.devNo → s.hasRoute (hDev p) = true → ∃ t x, exec r.1 s = .next t ∧ t.podOut = s.podOut ++ [x] ∧ x.addr = p ∧
          x.crew = s.crew ∧ x.operand = s.x b ∧ x.expected = s.x d ∧ t.mem = s0.mem) ∧
        (hDev p = s.devNo → s.me.passed ≠ some p → (∀ w, ¬Admits s w (·.a) p 8) →
          exec r.1 s = .next ((s0.countRefusal s.me.id).trap 0x0A#8 p true s.pc)) ∧
        (∀ w s1, Passes s w (·.a) p 8 →
          let va := w.base + BitVec.ofNat 64 (bits p 41 0)
          let here : State := { s0 with me := { s0.me with passed := none } }
          (s0.endpointPage w true va = (s1, .error .wait) → exec r.1 s = .next { s1 with me := { s1.me with passed := some p } }) ∧
          (∀ f, f ≠ .wait → here.endpointPage w true va = (s1, .error f) → exec r.1 s = .next (s1.trap f.failCode p true s.pc)) ∧
          (∀ pa, here.endpointPage w true va = (s1, .ok pa) → s1.isBad pa 8 = true →
            exec r.1 s = .next ((s1.consumeAt 0#10 pa va.toNat).trap 0x08#8 p true s.pc)) ∧
          (∀ pa, here.endpointPage w true va = (s1, .ok pa) → Healthy s1 → resourceByte pa = none →
            let old : Word := BitVec.ofNat 64 (s1.physRead pa 8)
            ∃ t, exec r.1 s = .next t ∧ GeneralRegs s t ∧ HoldsAt s t d old ∧ t.pc = s.pc + 4#19 ∧ (q = 1#1 → Acquired 4#3 t) ∧
              ∀ x, memByte t.mem x = if s1.redirect pa ≤ x ∧ x < s1.redirect pa + 8 then
                BitVec.ofNat 8 (((r.2 old).getD old).toNat / 256 ^ (x - s1.redirect pa)) else memByte s1.mem x)))) ∧
    (let j := Instr.wfenceFlag d a b
     let c := s.cellOf (hCore p) (hIndex p)
     let amount := if b = 0#5 then 1 else (s.x b).toNat
     (s.sup = false → (hIndex p).toNat < 16 → exec j s = .next (s.trap 0x02#8 0#64 false s.pc)) ∧
     (s.sup = true ∨ 16 ≤ (hIndex p).toNat → 16 ≤ s.me.outq.length → exec j s = .next s) ∧
     (s.sup = true ∨ 16 ≤ (hIndex p).toNat → s.me.outq.length < 16 → ¬NothingBefore s n (hDev p) true → hKind p ∈ [0#2, 1#2] → Healthy s →
       CacheSound s → ∃ t o, exec j s = .next t ∧ t.me.ctx = { s.me.ctx with pc := s.pc + 4#19 } ∧ Released 4#3 t ∧ HomeKept s t ∧
         t.me.outq = s.me.outq ++ [o] ∧ o.op.handle = p ∧ o.op.operand.toNat = amount ∧ o.op.scope = 4#3) ∧
     (AppliesAtOnce s p → NothingBefore s n (hDev p) true → hKind p ∈ [0#2, 1#2] → d = 0#5 ∨ s.x d = 0#64 → Healthy s → CacheSound s →
      ∃ t, exec j s = .next t ∧ t.me.ctx = { s.me.ctx with pc := s.pc + 4#19 } ∧ Released 4#3 t ∧ OnlyCell s t p ∧
        (hKind p = 0#2 → BarrierAfter c (t.cellOf (hCore p) (hIndex p)) amount c.ps false 4) ∧
        (hKind p = 1#2 → CountAfter c (t.cellOf (hCore p) (hIndex p)) amount 4)))

/-! ## The device's own steps -/

/-- R187, R194, R198, R203, R205: at quantum expiry with a rival ready the running coroutine is switched out with cause QUANTUM, held under a
record where tvec.qrec is 1; without one its quantum reloads. A ready supervisor switches a user coroutine out with cause PREEMPT. A spill
takes the context least recently ready, those that are not ready first, where its reserve can take it, and a refill one of the first four
ready. -/
def Obligations.TheEscapementSwitchesAndSpills : Prop :=
  ∀ (s : State) (slot : BitVec 8),
    (s.me.run = none → exec .quantumExpiry s = .next s ∧ exec .preemptSwitch s = .next s) ∧
    (∀ n u, s.me.run = some n → s.me.slot? n = some u →
      let q := s.me.ctx.quantum
      let reload := bits q 57 34
      let r := s.updCtx fun c => { c with quantum := BitVec.ofNat 64 (q.toNat / 2 ^ 34 * 2 ^ 34 + reload * 1024) }
      let rival : Prop := ∃ w ∈ s.me.slots, w.state = .ready ∧ w.num ≠ n ∧
        if supSlot w.num = supSlot n then w.cls ≤ u.cls else supSlot w.num = true
      let above : Prop := ∃ w ∈ s.me.slots, w.state = .ready ∧ supSlot w.num = true
      (q.toNat % 2 ^ 34 ≠ 0 ∨ reload = 0 → exec .quantumExpiry s = .next s) ∧
      (q.toNat % 2 ^ 34 = 0 → reload ≠ 0 →
        (¬rival → exec .quantumExpiry s = .next r) ∧
        (rival → s.me.tvec.getLsbD 0 = false → ∃ t, exec .quantumExpiry s = .next t ∧ SwitchedOut r t n 0x0C#8) ∧
        (rival → s.me.tvec.getLsbD 0 = true → ∃ t w e, exec .quantumExpiry s = .next t ∧ t.me.run = none ∧ t.me.slot? n = some w ∧
          w.state = .held ∧ w.records = u.records + 1 ∧ KeptByForce r.me.ctx w.ctx ∧ w.ctx.pc = s.pc ∧ t.me.records = s.me.records ++ [e] ∧
          e.code = 0x0C#8 ∧ e.rcoid = coidOf s.me.id n ∧ e.epc = s.pc ∧ t.mem = s.mem ∧ ∀ m, m ≠ n → t.me.slot? m = s.me.slot? m)) ∧
      (supSlot n = true ∨ ¬above → exec .preemptSwitch s = .next s) ∧
      (supSlot n = false → above → ∃ t, exec .preemptSwitch s = .next t ∧ SwitchedOut s t n 0x0D#8)) ∧
    ((∀ u ∈ s.me.slots, ¬InCache u) → exec .contextSpill s = .next s) ∧
    ((∃ u ∈ s.me.slots, InCache u) → ∃ v ∈ s.me.slots, InCache v ∧
      (∀ u ∈ s.me.slots, InCache u → (v.state = .ready → u.state = .ready) ∧ ((u.state = .ready ↔ v.state = .ready) → v.recent ≤ u.recent)) ∧
      (s.me.reserveFree (supSlot v.num) < v.spillSize → exec .contextSpill s = .next s) ∧
      (v.spillSize ≤ s.me.reserveFree (supSlot v.num) → exec .contextSpill s = .next { s with me := { s.me with
        slots := s.me.slots.map (fun u => if u.num = v.num then { u with spilled := true } else u), spills := s.me.spills + 1#64 } })) ∧
    (∀ u, s.me.slot? slot = some u →
      let first := s.me.readyOrder.take 4
      let room : Prop := u.units ≤ s.me.freeUnits ∧ (supSlot slot = true ∨ 1 ≤ s.me.freeFrames)
      (u ∈ first → u.spilled = true → room → exec (.contextRefill slot) s = .next { s with me := { s.me with
        slots := s.me.slots.map (fun w => if w.num = slot then { w with spilled := false } else w) } }) ∧
      ((∀ w ∈ first, w.num = slot → w.spilled = false) ∨ ¬room → exec (.contextRefill slot) s = .next s))

/-- R132, R145, R146, R149, R153, R181, R288, R346, R354, R421: the oldest vector instruction runs one element group a micro-operation, a memory
access also a part of one (log 21), or to
the element where it stops, which vstart then holds; one that begins at or above vl changes nothing. The last group of an instruction that
accesses no memory becomes architectural at its commit. Once finished it commits with its own
effect, and vstart is 0, but for the markers of vset and vrel. A topk is served by the sorter, a vfence.arrive marker sends its signal, a
matrix entry starts once no vector instruction before it writes what it reads, and a released tile unit is zeroed and free. -/
def Obligations.TheQueuesAndTilesAdvance : Prop :=
  ∀ (s : State) (m : BitVec 8) (unit : BitVec 3),
    (s.me.ctx.vq = [] → ∀ j ∈ [Instr.vectorMicroOp, .vectorCommit, .vfenceSignal, .sorterService], exec j s = .next s) ∧
    (∀ e q, s.me.ctx.vq = e :: q →
      let s0 : State := { s with pauses := if e.op.isMemory then s.pauses.drop 1 else s.pauses }
      let pause := s.pauses.headD 0
      let stop := if e.op.isMemory = true ∧ pause ≠ 0 then min e.next (e.pos + pause) else e.next
      let group := { e.masked s.me.ctx with lim := stop }
      let all := { e.masked s.me.ctx with lim := vlLen e.vl }
      let due : Prop := e.finished = false ∧ s.me.ctx.mq = [] ∧ s.vWaits e = false
      let held : Prop := e.op.isMemory = false ∧ vlLen e.vl ≤ stop
      let queued (s1 : State) (f : VEntry) (vstart : Nat) : State := s1.updCtx fun c => { c with vq := f :: q, vstart := BitVec.ofNat 16 vstart }
      let gone (vstart : Nat) : State := (s.vFinish e).updCtx fun c => { c with vq := q, vstart := BitVec.ofNat 16 vstart }
      (∀ op, e.op = .int op → e.next = min (vlLen e.vl) ((e.pos / (2048 / vtW e.vtype) + 1) * (2048 / vtW e.vtype))) ∧
      (e.finished = true ∨ s.me.ctx.behindMatrix e = true ∨ s.vWaits e = true → exec .vectorMicroOp s = .next s0) ∧
      (due → e.idle = true → exec .vectorMicroOp s = .next (queued s0 { group with lim := 0, finished := true } e.pos)) ∧
      (due → e.idle = false → held → exec .vectorMicroOp s = .next (queued s0 { group with finished := true } e.pos)) ∧
      (∀ s1, due → e.idle = false → ¬held → s0.vPerform group = (s1, none) →
        exec .vectorMicroOp s = .next (queued s1 { group with pos := stop, finished := decide (vlLen e.vl ≤ stop) } stop)) ∧
      (∀ s1 va k, due → e.idle = false → ¬held → s0.vPerform group = (s1, some (.protect, va, k)) →
        exec .vectorMicroOp s = .next ((queued s1 { group with pos := k } k).trap 0x06#8 va e.op.isStore s.pc)) ∧
      (e.lim < vlLen e.vl ∨ e.op.isStore = true → s.vFinish e = s) ∧
      (vlLen e.vl ≤ e.lim → e.op.isMemory = false → e.pins = 0#64 → e.statusPins = 0#64 → s.vFinish e = s.updCtx e.compute) ∧
      (vlLen e.vl ≤ e.lim → ∀ f a, (e.op = .load f a → s.vFinish e = s.updCtx (e.loadTail 1)) ∧
        ∀ i, e.op = .loadSeg i a → s.vFinish e = s.updCtx (e.loadTail i)) ∧
      (e.finished = false ∨ s.vWaits e = true → exec .vectorCommit s = .next s) ∧
      (e.finished = true → s.vWaits e = false →
        match e.op with
        | .reduce _ o k => exec .vectorCommit s = .next ((gone 0).updCtx fun c => e.pinned c (e.reduced c o.toNat k))
        | .scan _ _ k => vlLen e.vl ≠ 0 → exec .vectorCommit s = .next ((gone 0).updCtx fun c => c.setShadow k (shSettled (c.shadow k)))
        | .shape => exec .vectorCommit s = .next { gone e.pos with me := (gone e.pos).me.retireStep s.slotNum }
        | .release => exec .vectorCommit s = .next (gone e.pos)
        | .gatherMarker i seq =>
          exec .vectorCommit s = .next { gone 0 with me := (gone 0).me.startGather i seq (e.gatherIndices (gone 0).me.ctx) }
        | .fenceArrive _ _ _ _ => exec .vectorCommit s = exec .vfenceSignal s
        | .drained v => exec .vectorCommit s = .next ((gone 0).updCtx fun c => c.drainInto e.d v)
        | _ => exec .vectorCommit s = .next (gone 0)) ∧
      ((∀ control k, e.op ≠ .topk control k) → exec .sorterService s = .next s) ∧
      (∀ control k, e.op = .topk control k → due → e.idle = false →
        exec .sorterService s = .next (s.updCtx fun c => { all.topk c control k with vq := q, vstart := 0#16 })) ∧
      ((∀ h a r sc, e.op ≠ .fenceArrive h a r sc) → exec .vfenceSignal s = .next s) ∧
      (∀ h amount reply sc, e.op = .fenceArrive h amount reply sc → due → Healthy s → CacheSound s → AppliesAtOnce s h →
        e.d = 0#5 ∨ reply = 0#64 → hKind h ∈ [0#2, 1#2] →
        let c := s.cellOf (hCore h) (hIndex h)
        ∃ t, exec .vfenceSignal s = .next t ∧ OnlyCell s t h ∧ t.me.ctx = { s.me.ctx with vq := q, vstart := 0#16 } ∧
          (hKind h = 0#2 → BarrierAfter c (t.cellOf (hCore h) (hIndex h)) amount.toNat c.ps false sc.toNat) ∧
          (hKind h = 1#2 → CountAfter c (t.cellOf (hCore h) (hIndex h)) amount.toNat sc.toNat))) ∧
    (s.matrixReady = false → exec .matrixEntryStart s = .next s) ∧
    (∀ e q, s.me.ctx.mq = e :: q → s.matrixReady = true →
      (∀ s1, s.mExecute e = (s1, none) → exec .matrixEntryStart s = .next (s1.updCtx fun c => { c with mq := q })) ∧
      (∀ w, e.op = .shape w → exec .matrixEntryStart s =
        .next { s with me := { s.me with mshape := w, ctx := { s.me.ctx with mq := q } } }) ∧
      (e.op = .zero → ∃ t, exec .matrixEntryStart s = .next t ∧ TileIs s t e.unit (fun _ => 0) (fun _ => True) ∧
        t = { s with me := { s.me with ctx := { s.me.ctx with mq := q } }, movements := t.movements }) ∧
      (∀ s1 x, s.mExecute e = (s1, some x) → exec .matrixEntryStart s = .next ((s.consumeBad s.who x).trap 0x08#8 x false s.pc))) ∧
    (let v := s.movAt m
     (unit ∉ v.freeing → exec (.tileUnitFree m unit) s = .next s) ∧
     (unit ∈ v.freeing → ∃ t, exec (.tileUnitFree m unit) s = .next t ∧ t = { s with movements := t.movements } ∧
       (∀ n, n ≠ m → t.movAt n = s.movAt n) ∧ (∀ u, u ∈ (t.movAt m).freeing ↔ u ∈ v.freeing ∧ u ≠ unit) ∧
       (∀ u : BitVec 3, (t.movAt m).rows[u.toNat]'(u.isLt) = if u = unit then 0#262144 else v.rows[u.toNat]'(u.isLt)) ∧
       (t.movAt m).owner = v.owner ∧ (t.movAt m).tlb = v.tlb ∧ (t.movAt m).power = v.power))

/-- R313 to R316, R385, R404, R439: a free channel takes a startable command, one that restarts first; a unit's bytes are those of its sector,
moved as they were before it, and the next unit follows or the entry is freed; a unit whose access faults stops the command with a COPY_FAULT
record, or where the fault is serviced leaves it waiting on its fault token, and what it had fetched is fetched again; a unit that waits for
the host changes nothing but the requests sent, the decision on its cp.kvs entry (R426) and a wst's passage of its window (R439); a command
whose fault token is signalled is queued again, or stopped with PAGE_PROTECT, a wst's sector then no longer in flight. A gather's unit moves
its elements, which it takes in the order of its bursts' queues, and keeps the bursts. -/
def Obligations.CopyChannelsMoveTheirUnits : Prop :=
  ∀ (s : State) (ch : BitVec 4) (entry : BitVec 3),
    let m := movOf s.me.id
    (s.channelBusy m ch = true ∨ s.nextCopy m ch = none → exec (.copyChannelStart ch) s = .next s) ∧
    (∀ k c, s.channelBusy m ch = false → s.nextCopy m ch = some (k, c) →
      (k, c) ∈ s.copyOrder m ∧ c.state = .queued ∧
      (∀ p ∈ s.copyOrder m, (s.coreAt p.1).startable p.2 = true → p.2.allowed ch = true → p.2.priority = true → c.priority = true) ∧
      ∃ t, exec (.copyChannelStart ch) s = .next t ∧ t.mem = s.mem ∧ (∀ j, j ≠ k → t.coreAt j = s.coreAt j) ∧
        t.coreAt k = { s.coreAt k with copies := (s.coreAt k).copies.map fun e =>
          if e.entry = c.entry then { e with state := .running, chan := some ch, lastChan := ch, priority := false } else e }) ∧
    ((∀ c, s.me.copy? entry = some c → c.state ≠ .running) →
      ∀ j ∈ [Instr.copyUnitComplete entry, .copyFault entry, .gatherUnitBurst entry], exec j s = .next s) ∧
    (∀ c src dst len, s.me.copy? entry = some c → PadCopy s c src dst len → Healthy s → CacheSound s →
      let scr := 0x10000000000 + s.me.id.toNat * 0x100000
      let units := (dst % 256 + len + 255) / 256
      let lo := max dst ((dst / 256 + c.done) * 256)
      let hi := min (dst + len) ((dst / 256 + c.done + 1) * 256)
      c.done < units →
      (0x10000 ≤ src → ∃ t, exec (.copyUnitComplete entry) s = .next t ∧
        (∀ q, memByte t.mem q = if scr + lo ≤ q ∧ q < scr + hi then memByte s.mem (q - dst + src) else memByte s.mem q) ∧
        t.me.ctx = s.me.ctx ∧ t.others = s.others ∧ t.me.slots = s.me.slots ∧
        (c.done + 1 < units → t.me.copy? entry = some { c with done := c.done + 1 }) ∧
        (c.done + 1 = units → t.me.copy? entry = none) ∧ ∀ e, e ≠ entry → t.me.copy? e = s.me.copy? e) ∧
      (0x10000 ≤ src → exec (.copyFault entry) s = .next s) ∧
      (src + (lo - dst) < 0x10000 → supSlot c.slot = false → c.issuer = .present → s.me.run ≠ some c.slot →
        exec (.copyUnitComplete entry) s = .next s ∧
        ∃ t, exec (.copyFault entry) s = .next t ∧ CopyStopped s t c 0x06#8 (BitVec.ofNat 64 (scr + src + (lo - dst))) false)) ∧
    (∀ c, s.me.copy? entry = some c →
      (c.kind ≠ .gather → exec (.gatherUnitBurst entry) s = .next s) ∧
      (∀ s1 c1, c.kind = .gather → c.state = .running → c.control.getLsbD 55 = false → c.dw 1 = 0#64 → c.done < c.unitCount →
        s.gatherRuns (c.who s.me.id) c (s.byQueue (c.who s.me.id) (c.unitRuns c.done)) = (s1, c1, none) →
        ∃ t, exec (.gatherUnitBurst entry) s = .next t ∧ t.mem = s1.mem ∧ t.me.ctx = s1.me.ctx ∧ c1 = { c with fetched := c1.fetched } ∧
          (c.done + 1 < c.unitCount → t.me.copy? entry = some { c1 with done := c.done + 1 }) ∧
          (c.done + 1 = c.unitCount → t.me.copy? entry = none)) ∧
      (∀ s1 c1, c.workable = true → s.copyAttempt c = (s1, c1, some .wait) → exec (.copyFault entry) s = .next s ∧
        (c.kind ≠ .kvs ∨ c1.decided = c.decided → c.kind ≠ .remote ∨ c1.partIn = c.partIn →
          exec (.copyUnitComplete entry) s = .next { s with atsOut := s1.atsOut }) ∧
        (c.kind = .remote → c1.partIn ≠ c.partIn → exec (.copyUnitComplete entry) s = .next { s with
          atsOut := s1.atsOut, windows := s1.windows, me := s.me.setCopy { c with partIn := c1.partIn } }) ∧
        (∀ i skip, c.kind = .kvs → c1.decided = c.decided ++ [(i, skip)] → ∃ t, exec (.copyUnitComplete entry) s = .next t ∧
          t.me.copy? entry = some { c with decided := c1.decided } ∧ t.me.ctx = s.me.ctx ∧ t.others = s.others)) ∧
      (∀ s1 c1 cause arena addr st token s2, c.workable = true → s.copyAttempt c = (s1, c1, some (.fault cause arena addr st)) →
        c1.entry = entry → s1.me.id = s.me.id → (s1.me.copy? entry).isSome = true →
        cause = 0x07#8 ∨ (cause = 0x05#8 ∧ arena ≠ none) →
        s1.claimFault (s1.faultWho s.me.id c1 st) arena addr st (coidOf s.me.id c1.slot) (some (c1.id s.me.id)) = (s2, .claimed token) →
        s2.me = s1.me → ∃ t, exec (.copyFault entry) s = .next t ∧ t.mem = s2.mem ∧ t.faults = s2.faults ∧ t.me.ctx = s1.me.ctx ∧
          t.me.copy? entry =
            some { c1 with state := .waiting, cause := cause, chan := none, token := token, addr := addr, store := st, fetched := [] } ∧
          (arena ≠ none → t.me.records = s1.me.records) ∧
          (arena = none → ∃ r, t.me.records = s1.me.records ++ [r] ∧ r.code = cause ∧ r.eaddr = addr ∧ r.entry = some entry ∧
            r.detached = true)) ∧
      (let cell := s.cellOf (hCore c.token) (hIndex c.token)
       (c.state ≠ .waiting ∨ (cell.gen = hGen c.token ∧ cell.phase.getLsbD 0 = false) → exec (.copyRestart entry) s = .next s) ∧
       (c.state = .waiting → cell.gen ≠ hGen c.token ∨ (cell.phase.getLsbD 0 = true ∧ cell.lower = 0#64) →
         ∃ t, exec (.copyRestart entry) s = .next t ∧ t = { s with me := { s.me with copies := t.me.copies } } ∧
           t.me.copy? entry = some { c with state := .queued, priority := true } ∧ ∀ e, e ≠ entry → t.me.copy? e = s.me.copy? e) ∧
       (c.state = .waiting → cell.gen = hGen c.token → cell.phase.getLsbD 0 = true → cell.lower ≠ 0#64 → c.issuer = .present →
         s.me.run ≠ some c.slot → ∃ t, exec (.copyRestart entry) s = .next t ∧ (c.kind ≠ .remote → CopyStopped s t c 0x06#8 c.addr c.store) ∧
           (c.kind = .remote → CopyStopped s t { c with partIn := 0 } 0x06#8 c.addr c.store ∧ t.windows = s.windows.map fun w =>
             if w.index = ptrWindow (c.dw 0) ∧ c.partIn = 1 then { w with inflight := w.inflight - 1 } else w))))

/-- R235 to R240, R243 to R246, R248, R249, R251, R256, R258, R260: an operation that arrives changes its cell as its kind says, is dropped
where its handle is stale, or joins its crew's log, which is full to a fault; a queued operation is sent in order; a replay-pending core
applies its log; a watch is answered, kept, or joins the overflow set; a wake makes its slot ready and a recheck sends the watches again, or
has them refused where there is no route (16_pod.md R435). -/
def Obligations.TokenHomesApplyAndWake : Prop :=
  ∀ (s : State) (op : TokenOp) (w : Watch), Healthy s → CacheSound s →
    let at_ (t : State) (h : Word) : TokenCell := t.cellOf (hCore h) (hIndex h)
    let deliver := Instr.tokenOpApply op
    (hDev op.handle ≠ s.devNo → exec deliver s = .next s) ∧
    (TakenAtOnce s op → ∃ t, exec deliver s = .next t ∧ CellTakes (at_ s op.handle) (at_ t op.handle) op ∧ OnlyCell s t op.handle ∧
      t.me.ctx = s.me.ctx) ∧
    (hDev op.handle = s.devNo → 16 ≤ (hIndex op.handle).toNat → op.toStatus = false → op.reply = 0#64 → op.crew = 0#7 →
      s.stale 0#7 op.handle = true → exec deliver s = .next s) ∧
    (∀ r, hDev op.handle = s.devNo → s.crew? op.crew = some r → op.crew ≠ 0#7 →
      (r.faulted = true → exec deliver s = .next s) ∧
      (s.boundTo (hCore op.handle) op.crew = false ∨ (s.coreAt (hCore op.handle)).replay = true →
      (r.faulted = false → LogSound r → r.logTail < r.logHead + 2 ^ r.logSize.toNat → ∃ t, exec deliver s = .next t ∧
        t.crew? op.crew = some { r with logTail := r.logTail + 1 } ∧ Logged t r r.logTail op ∧
        (∀ q, q < logPlace r r.logTail ∨ logPlace r r.logTail + 32 ≤ q → memByte t.mem q = memByte s.mem q) ∧ t.me.ctx = s.me.ctx ∧
        (t.coreAt (hCore op.handle)).logappend = (s.coreAt (hCore op.handle)).logappend + 1#64) ∧
      (r.faulted = false → r.logHead + 2 ^ r.logSize.toNat ≤ r.logTail → ∃ t, exec deliver s = .next t ∧ t.mem = s.mem ∧
        t.crew? op.crew = some { r with faulted := true } ∧
        t.kerlo.errors = s.kerlo.errors ++ [BitVec.ofNat 64 (2 * 2 ^ 56 + op.crew.toNat)] ∧
        ∀ k ∈ t.cores, k.bound = op.crew → ∀ u ∈ k.slots, supSlot u.num = false → u.state = .held ∧ u.crewFault = true))) ∧
    (s.me.outq = [] → exec .tokenOpSend s = .next s) ∧
    (∀ o q, s.me.outq = o :: q → o.op = op →
      let ctx := if s.me.run = some op.srcSlot then s.me.ctx else ((s.me.slot? op.srcSlot).map (·.ctx)).getD Ctx.reset
      ((∃ c ∈ s.me.copies, c.seq ∈ o.whole ∨ (c.seq ∈ o.first ∧ c.done = 0)) ∨ (∃ e ∈ ctx.vq, e.op.isMemory = true ∧ e.ord ≤ o.vector) ∨
          (∃ e ∈ ctx.mq, e.op.isSave = true ∧ e.ord ≤ o.vector) → exec .tokenOpSend s = .next s) ∧
      ((∀ c ∈ s.me.copies, c.seq ∉ o.whole ∧ (c.seq ∉ o.first ∨ c.done ≠ 0)) → (∀ e ∈ ctx.vq, e.op.isMemory = true → o.vector < e.ord) →
          (∀ e ∈ ctx.mq, e.op.isSave = true → o.vector < e.ord) →
        (TakenAtOnce s op → ∃ t, exec .tokenOpSend s = .next t ∧ t.me.outq = q ∧ CellTakes (at_ s op.handle) (at_ t op.handle) op ∧
          OnlyCell s t op.handle ∧ t.me.ctx = s.me.ctx) ∧
        (hDev op.handle ≠ s.devNo → s.hasRoute (hDev op.handle) = true → ∃ r, r.kind = .token ∧ r.addr = op.handle ∧ r.op = op ∧
          let sent : State := { s with me := { s.me with outq := q }, podOut := s.podOut ++ [r], fresh := s.fresh + 1 }
          (Config.remoteOutcome s.fresh ≠ 1#8 → exec .tokenOpSend s = .next sent) ∧
          (Config.remoteOutcome s.fresh = 1#8 → op.srcCore = s.me.id → op.reply = 0#64 → exec .tokenOpSend s = .next
            { sent with me := { sent.me with winrefuse := s.me.winrefuse + 1#64 } })) ∧
        (hDev op.handle ≠ s.devNo → s.hasRoute (hDev op.handle) = false → op.srcCore = s.me.id → op.reply = 0#64 →
          exec .tokenOpSend s = .next { s with me := { s.me with outq := q, winrefuse := s.me.winrefuse + 1#64 } }))) ∧
    (s.me.replay = false ∨ s.me.replayEnd = false → exec .logReplay s = .next s) ∧
    (s.me.replay = true → s.me.replayEnd = true → ∀ r, s.crew? s.me.bound = some r → LogSound r →
      (r.faulted = true ∨ (∀ i, r.logHead ≤ i → i < r.logTail → ¬ReplayDue s r i s.me.id) → ∃ t, exec .logReplay s = .next t ∧
        t.me.replay = false ∧ t.me.replayEnd = false ∧ t.me.ctx = s.me.ctx ∧ t.mem = s.mem ∧ t.crews = s.crews) ∧
      (∀ i, r.faulted = false → r.logHead ≤ i → i < r.logTail → (∀ j, r.logHead ≤ j → j < i → ¬ReplayDue s r j s.me.id) → Logged s r i op →
        hCore op.handle = s.me.id → op.code ≠ 6#8 → op.reply = 0#64 → 16 ≤ (hIndex op.handle).toNat → s.stale r.num op.handle = false →
        ∃ t head, exec .logReplay s = .next t ∧ t.me.replay = true ∧ t.me.ctx = s.me.ctx ∧
          CellTakes (at_ s op.handle) (at_ t op.handle) op ∧ (t.logWord r i 1).getLsbD 63 = false ∧
          (∀ q, (q < logPlace r i + 8 ∨ logPlace r i + 16 ≤ q) →
            (q < cellAddr (hCore op.handle) (hIndex op.handle) ∨ cellAddr (hCore op.handle) (hIndex op.handle) + 16 ≤ q) →
            memByte t.mem q = memByte s.mem q) ∧
          t.crew? s.me.bound = some { r with logHead := head } ∧ r.logHead ≤ head ∧ head ≤ r.logTail ∧
          (∀ j, r.logHead ≤ j → j < head → (t.logWord r j 1).getLsbD 63 = false) ∧
          (head < r.logTail → (t.logWord r head 1).getLsbD 63 = true))) ∧
    (let home := hCore w.handle
     let k := s.coreAt home
     let holds : Bool := s.condition w.crew w.handle w.phase
     (holds = true → w.dev = s.devNo → exec (.tokenWatch w) s = .next { s with inbox := s.inbox ++ [.wake w] }) ∧
     (holds = true → w.dev ≠ s.devNo → ∃ r, r.kind = .watch ∧ r.dev = w.dev ∧ r.addr = w.handle ∧ r.op.srcCore = hCore w.handle ∧
       r.op.srcSlot = w.slot ∧ exec (.tokenWatch w) s = .next { s with podOut := s.podOut ++ [r] }) ∧
     (holds = false → w ∈ k.watches → exec (.tokenWatch w) s = .next s) ∧
     (holds = false → w ∉ k.watches → k.watches.length < 64 → ∃ t, exec (.tokenWatch w) s = .next t ∧
       (t.coreAt home).watches = k.watches ++ [w] ∧ OnlyCell s t w.handle ∧ t.me.ctx = s.me.ctx ∧
       (16 ≤ (hIndex w.handle).toNat → (hIndex w.handle).toNat < 4096 → (at_ t w.handle).wp = true)) ∧
     (holds = false → w ∉ k.watches → 64 ≤ k.watches.length → 16 ≤ (hIndex w.handle).toNat →
       (hIndex w.handle).toNat < 4096 → ∃ t, exec (.tokenWatch w) s = .next t ∧
       (if w.dev = s.devNo then w.core ∈ (t.coreAt home).overflowCores else w.dev ∈ (t.coreAt home).overflowDevs) ∧
       (t.coreAt home).watches = k.watches ∧ (at_ t w.handle).wp = true ∧ OnlyCell s t w.handle) ∧
     (holds = false → w ∉ k.watches → 64 ≤ k.watches.length → (hIndex w.handle).toNat < 16 → ∃ t, exec (.tokenWatch w) s = .next t ∧
       (if w.dev = s.devNo then w.core ∈ (t.coreAt home).overflowCores else w.dev ∈ (t.coreAt home).overflowDevs) ∧
       (t.coreAt home).watches = k.watches ∧ hIndex w.handle ∈ (t.coreAt home).overflowCells ∧ t.mem = s.mem)) ∧
    (∀ u, (s.coreAt w.core).slot? w.slot = some u → ((s.coreAt w.core).slots.map (·.num)).Nodup → u.state = .waiting →
      u.waitFor = .token ∨ u.waitFor = .resource →
      u.handle = w.handle → u.asks = w.phase → s.sees (s.coreAt w.core) u.handle = false → ∃ t x, exec (.wake w) s = .next t ∧
        (t.coreAt w.core).slot? w.slot = some x ∧ x.state = .ready ∧ x.ctx = u.ctx ∧ t.mem = s.mem ∧ t.me.ctx = s.me.ctx) ∧
    (∀ (dev home : BitVec 10) (u : Slot), u ∈ s.me.slots → u.state ≠ .running → u.waitFor = .token ∨ u.waitFor = .resource → u.woken = false →
      hDev u.handle = dev → ∃ t, exec (.recheck dev home) s = .next t ∧ t.mem = s.mem ∧
        (dev = s.devNo → t = { s with inbox := t.inbox }) ∧
        (dev = s.devNo → hCore u.handle = home → home ≠ s.me.id →
          Instr.tokenWatch ⟨u.handle, u.asks, s.devNo, s.me.id, u.num, s.me.crewOf u.num⟩ ∈ t.inbox) ∧
        (dev ≠ s.devNo → s.hasRoute dev = true → ∃ r ∈ t.podOut, r.kind = .watch ∧ r.dev = s.devNo ∧ r.addr = u.handle ∧ r.operand = u.asks ∧
          r.op.srcCore = s.me.id ∧ r.op.srcSlot = u.num) ∧
        (dev ≠ s.devNo → s.hasRoute dev = false → (s.cores.map (·.id)).Nodup → SlotsSound s.me → t.podOut = s.podOut ∧
          t.me.winrefuse = s.me.winrefuse + BitVec.ofNat 64 (s.me.slots.filter fun x => x.state != .running &&
            (x.waitFor == .token || x.waitFor == .resource) && !x.woken && hDev x.handle == dev).length ∧
          (t.me.slot? u.num).map (·.refused) = some true))

/-- R17, R246, R248, R251, R252, R260, R433, R437 to R441, R447, R452, R453: a reservation takes the next posted buffer of its mailbox, joins
its crew's log, or answers why not, and a delivery marks its slot and adds 1 to the count cell that its mailbox notifies; an operation of
another device waits for its window's entry, is refused without a window that admits it, waits for the host, or is performed and answered; a
closing window with nothing in flight is freed; a port that fails gives its routes to another; the device number stays while a user crew is
bound. -/
def Obligations.MailboxesAndTheIngressAnswer : Prop :=
  ∀ (s : State) (h word value : Word) (len : BitVec 24) (crew : BitVec 7) (dev : BitVec 10) (pos : BitVec 16) (req : RemoteReq)
      (index : BitVec 12) (port spare : BitVec 5) (core : BitVec 10), Healthy s → CacheSound s →
    let c := s.cellOf (hCore h) (hIndex h)
    let answers (i : Instr) (s1 : State) (v code : Word) : Prop := ∃ t r, exec i s = .next t ∧ t = { s1 with podOut := s1.podOut ++ [r] } ∧
      r.operand = v ∧ r.expected = code
    (let j := Instr.mailboxReservation h len crew (dev ++ core)
     let buffer : Word := BitVec.ofNat 64 (s.physRead (slotAddr (hCore h) c c.tail.toNat) 8)
     let a := cellAddr (hCore h) (hIndex h)
     (s.tokenWindow (hCore h) crew dev = none → answers j s (failWord 0x0A) 0#64) ∧
     (∀ w, s.tokenWindow (hCore h) crew dev = some w → s.crewFaulted w.owner = true → exec j s = .next s) ∧
     (∀ w r, s.tokenWindow (hCore h) crew dev = some w → w.owner ≠ 0#7 → s.crew? w.owner = some r → r.faulted = false → LogSound r →
      r.logTail < r.logHead + 2 ^ r.logSize.toNat → s.boundTo (hCore h) w.owner = false ∨ (s.coreAt (hCore h)).replay = true →
      ∃ t op q, exec j s = .next t ∧ t.podOut = s.podOut ++ [q] ∧ q.operand = 0x4000000000000000#64 ∧
        t.crew? w.owner = some { r with logTail := r.logTail + 1 } ∧ Logged t r r.logTail op ∧ op.code = 6#8 ∧ op.handle = h ∧
        op.srcDev = dev ∧ op.srcCore = core ∧ op.operand = len.zeroExtend 64) ∧
     (∀ w, s.tokenWindow (hCore h) crew dev = some w → s.crewFaulted w.owner = false →
      w.owner = 0#7 ∨ (s.boundTo (hCore h) w.owner = true ∧ (s.coreAt (hCore h)).replay = false) →
      (s.stale w.owner h = true → answers j s (failWord 9) 0#64) ∧
      (s.stale w.owner h = false → c.posted = 0#16 → answers j s (failWord 0x23) 0#64) ∧
      (s.stale w.owner h = false → c.posted ≠ 0#16 → 256 * (buffer.toNat % 256) < len.toNat → answers j s (failWord 6) 0#64) ∧
      (s.stale w.owner h = false → c.posted ≠ 0#16 → len.toNat ≤ 256 * (buffer.toNat % 256) → 16 ≤ (hIndex h).toNat →
        ∃ t r, exec j s = .next t ∧ t.podOut = s.podOut ++ [r] ∧ r.operand = BitVec.ofNat 64 c.tail.toNat ∧
          r.expected = buffer &&& ~~~0xFF#64 ∧ OnlyCell s t h ∧ t.me.ctx = s.me.ctx ∧
          (t.cellOf (hCore h) (hIndex h)).tail = c.tail + 1#16 ∧ (t.cellOf (hCore h) (hIndex h)).posted = c.posted - 1#16 ∧
          (t.cellOf (hCore h) (hIndex h)).head = c.head))  ∧
     (let at_ := slotAddr (hCore h) c pos.toNat + 8
      let d := Instr.mailboxDelivery h pos word 0#64
      (s.stale 0#7 h = true → exec d s = .next s) ∧
      let told := s.cellOf (hCore h) (hIndex h + 1#16)
      (s.stale 0#7 h = false → 16 ≤ (hIndex h).toNat → resourceByte at_ = none →
        (c.notify = false ∧ a + 16 ≤ at_) ∨ ((4095 ≤ (hIndex h).toNat ∨ told.kind ≠ 1#2) ∧ a + 32 ≤ at_) →
        ∃ t, exec d s = .next t ∧ t.physRead at_ 8 = word.toNat ∧ t.me.ctx = s.me.ctx ∧
          ∀ q, q < a ∨ (a + 16 ≤ q ∧ q < at_) ∨ at_ + 8 ≤ q → t.homeByte q = s.homeByte q) ∧
      (s.stale 0#7 h = false → 16 ≤ (hIndex h).toNat → (hIndex h).toNat < 4095 → c.notify = true → told.kind = 1#2 → resourceByte at_ = none →
        a + 32 ≤ at_ → ∃ t, exec d s = .next t ∧ t.physRead at_ 8 = word.toNat ∧ t.me.ctx = s.me.ctx ∧
          CountAfter told (t.cellOf (hCore h) (hIndex h + 1#16)) 1 0 ∧
          ∀ q, q < a ∨ (a + 32 ≤ q ∧ q < at_) ∨ at_ + 8 ≤ q → t.homeByte q = s.homeByte q))) ∧
    (s.sectorsHeld = [] → s.heldReqs = [] →
      let i := ptrWindow req.addr
      let j := Instr.ingressCheck req
      let n := req.bytes.toNat
      let cached : Prop := i ∈ s.endpoint
      (req.kind = .load ∨ (∃ f, req.kind = .atomic f) → ¬cached →
        ∃ r, r.addr = req.addr ∧ r.kind = req.kind ∧ exec j s = .next { s with inbox := .endpointCacheFetch i :: .ingressCheck r :: s.inbox }) ∧
      (req.kind = .load → cached → s.admitted (·.r) req.addr n req.crew req.dev = none → answers j s 0#64 0x0A#64) ∧
      (∀ w s1, req.kind = .load → cached → s.admitted (·.r) req.addr n req.crew req.dev = some w →
        (∀ v, s.endpointLoad w req.addr n = (s1, .ok v) → answers j s1 v 0#64) ∧
        (∀ f, f ≠ .wait → s.endpointLoad w req.addr n = (s1, .error f) → answers j s1 0#64 (f.failCode.zeroExtend 64)) ∧
        (s.endpointLoad w req.addr n = (s1, .error .wait) → ∃ t, exec j s = .next t ∧
          t = { s1 with windows := t.windows, heldReqs := s1.heldReqs ++ [(req, w.index)] } ∧
          t.windows = s1.windows.map fun v => if v.index = w.index then { v with inflight := v.inflight + 1 } else v)) ∧
      (∀ w s1, req.kind = .store → req.op.code ≠ 6#8 → cached → s.admitted (·.w) req.addr n req.crew req.dev = some w →
        (s.endpointStore w req.addr n req.data.toNat = (s1, .ok ()) → answers j s1 0#64 0#64) ∧
        (∀ f, f ≠ .wait → (∀ a, f ≠ .absent (some a)) → s.endpointStore w req.addr n req.data.toNat = (s1, .error f) →
          answers j s1 0#64 (f.failCode.zeroExtend 64))) ∧
      (∀ w s1 f, req.kind = .atomic f → cached → s.admitted (·.a) req.addr 8 req.crew req.dev = some w →
        (∀ v, s.endpointAtomic w req.addr f req.operand req.expected = (s1, .ok v) → answers j s1 v 0#64) ∧
        (∀ e, e ≠ .wait → s.endpointAtomic w req.addr f req.operand req.expected = (s1, .error e) →
          answers j s1 0#64 (e.failCode.zeroExtend 64))) ∧
      (req.kind = .token ∨ req.kind = .watch ∨ req.kind = .reserve ∨ (req.kind = .store ∧ req.op.code = 6#8) →
        s.tokenWindow (hCore req.addr) req.crew req.dev = none → answers j s 0#64 0x0A#64) ∧
      (∀ w, req.kind = .token → s.tokenWindow (hCore req.addr) req.crew req.dev = some w →
        (req.op.code ≠ 0#8 → req.op.code < 16#8 → hDev req.addr = s.devNo → exec j s = exec (.tokenOpApply
          { req.op with handle := req.addr, crew := w.owner, isUser := w.owner != 0#7, srcDev := req.dev }) s) ∧
        (req.op.code = 18#8 → s.crewFaulted w.owner = true → exec j s = .next s) ∧
        (req.op.code = 18#8 → s.crewFaulted w.owner = false → s.heldByReplay w.owner req.addr = false →
          let cell := s.cellOf (hCore req.addr) (hIndex req.addr)
          (s.stale w.owner req.addr = true → answers j s 0#64 9#64) ∧
          (s.stale w.owner req.addr = false → answers j s (if req.operand.getLsbD 0 then cell.upper else cell.lower) 0#64)))) ∧
    (∃ t, exec (.endpointCacheFetch index) s = .next t ∧ t = { s with endpoint := t.endpoint } ∧ index ∈ t.endpoint ∧
      t.endpoint.length ≤ 256 ∧ ∀ i ∈ t.endpoint, i = index ∨ i ∈ s.endpoint) ∧
    (let drain := Instr.windowDrainFree index
     let passing (w : Window) : Prop := ∃ k ∈ s.cores, ∃ p, k.passed = some p ∧ ptrWindow p = w.index
     ((∀ w ∈ s.windows, w.index = index → w.state = .opened ∨ w.inflight ≠ 0 ∨ passing w) → exec drain s = .next s) ∧
     (∀ w, s.windows.find? (fun v => v.index = index) = some w → w.state = .closing → w.inflight = 0 → ¬passing w → w.completion = 0#64 →
       exec drain s = .next { s with windows := s.windows.filter fun v => v.index ≠ index })) ∧
    exec (.linkLevelRetry port) s = .next s ∧
    (let down := port.toNat :: s.portsDown
     let fails := Instr.portFailure port spare
     (port.toNat ∈ s.portsDown ∨ 24 ≤ port.toNat → exec fails s = .next s) ∧
     (port.toNat ∉ s.portsDown → port.toNat < 24 → ∃ t, exec fails s = .next t ∧
      t = { s with portsDown := down, portMoves := t.portMoves,
                   kerlo := { s.kerlo with errors := s.kerlo.errors ++ [BitVec.ofNat 64 (4 * 2 ^ 56 + port.toNat)] } } ∧
      ∀ (d : BitVec 10) (m : BitVec 8),
        (s.portFor d m ≠ some port.toNat → t.portFor d m = s.portFor d m) ∧
        (s.portFor d m = some port.toNat →
          (spare.toNat < 24 → spare.toNat ∉ down → t.portFor d m = some spare.toNat) ∧
          ((∃ p, p < 24 ∧ p ∉ down) → ∃ p, p < 24 ∧ p ∉ down ∧ t.portFor d m = some p)))) ∧
    (∀ peers : List Nat, ∃ t, exec (.portConfiguration dev peers) s = .next t ∧
      t = { s with devNo := t.devNo, routes := t.routes, signalRange := t.signalRange } ∧
      ((∀ k ∈ s.cores, k.bound = 0#7) → t.devNo = dev) ∧ ((∃ k ∈ s.cores, k.bound ≠ 0#7) → t.devNo = s.devNo) ∧
      ∀ d : BitVec 10, t.hasRoute d = true ↔ d.toNat ∈ peers ∧ d ≠ t.devNo) ∧
    (∃ t, exec (.pcieLinkTraining false) s = .next t ∧ t.barSize = 0 ∧ t.kerlo.trained = false ∧ t.mem = s.mem) ∧
    (∃ t k, exec (.pcieLinkTraining true) s = .next t ∧ t.barSize = 2 ^ (30 + k) ∧ k ≤ 10 ∧
      t = { s with barBase := t.barBase, barSize := t.barSize, kerlo := { s.kerlo with trained := true } }) ∧
    (∀ stream : BitVec 3, ∃ t, exec (.ideKm stream value) s = .next t ∧ t = { s with kerlo := { s.kerlo with ideKeys := t.kerlo.ideKeys } } ∧
      ∀ i : Fin 5, t.kerlo.ideKeys[i] = if i.val = stream.toNat then some value else s.kerlo.ideKeys[i])

/-- R101, R376, R377, R379, R380, R385, R388, R406 to R408, R411 to R414, R452, R459, R465, R466: a walk fills the movement's TLB and sets A and D; the
host's answers and invalidations change the translations held; a page's response signals its fault; write-backs, resends, repairs, scrubs
and line exchanges change no byte that is read; BAR2 reads and writes HBM below the ROM's range; boot zeroes the scratchpads, tile stores and
instruction stores, and the stored patch takes effect; gating and waking change a movement's power state alone. -/
def Obligations.MemoryLinksAndPowerStep : Prop :=
  ∀ (s : State) (va ha value : Word) (store write : Bool) (asid : BitVec 16) (perm : BitVec 2) (line addr : Nat) (fails : BitVec 3)
      (chan : BitVec 10) (mov : BitVec 8) (size : BitVec 4), Healthy s → s.Canonical →
    let page := (spaceAsid s.who.space, va.toNat / 4096)
    let missed : Word := if s.tlbFind s.who false va = none ∧ page ∉ s.me.walks then 1#64 else 0#64
    let missing : Core := { s.me with tlbmiss := s.me.tlbmiss + missed, walks := s.me.walks.filter (· ≠ page) }
    let named : State → Prop := fun t =>
      t = { s with mem := t.mem, l2 := t.l2, me := missing, movements := t.movements, pointers := t.pointers }
    let found := s.walk (dieOf s.me.id) s.who.space (va.toNat % 2 ^ 57) [4, 3, 2, 1, 0] (bits s.who.space 43 0)
    -- translation
    (s.swaps = [] → canonical va = true → bits s.who.space 63 60 = 0xA → s.tlbFind s.who store va = none →
      (∀ level zero, found = .absent level zero →
        ∃ t, exec (.pageWalk va store) s = .next t ∧ named t ∧ t.mem = s.mem ∧ t.movements = s.movements) ∧
      (found = .malformed →
        ∃ t, exec (.pageWalk va store) s = .next t ∧ named t ∧ t.mem = s.mem ∧ t.movements = s.movements) ∧
      (∀ at_ e level, found = .leaf at_ e level → e.getLsbD 1 = true → (store = true → e.getLsbD 2 = true) →
        (s.sup = false → e.getLsbD 4 = true) → e.getLsbD 60 = true → (∀ a ∈ s.ats, a.asid ≠ page.1 ∨ a.page ≠ page.2) →
        ∃ t, exec (.pageWalk va store) s = .next t ∧ t.mem = s.mem ∧ t.movements = s.movements ∧ t.priOut = s.priOut ∧
          t.me.tlbmiss = s.me.tlbmiss + missed ∧ ∀ p, p ∈ t.atsOut ↔ p = page ∨ p ∈ s.atsOut) ∧
      (∀ at_ e level, found = .leaf at_ e level →
        let bytes := pageSize level e
        let base := va.toNat / bytes * bytes
        let phys := bits e 53 10 / (bytes / 4096) * bytes
        (e.getLsbD 1 = true → (store = true → e.getLsbD 2 = true) → (s.sup = false → e.getLsbD 4 = true) → e.getLsbD 60 = false →
          s.regionOk s.who (phys + (va.toNat - base)) = true →
          ∃ t x, exec (.pageWalk va store) s = .next t ∧ named t ∧
            t.physRead at_ 8 = (e ||| 0x40#64 ||| (if store then 0x80#64 else 0#64)).toNat ∧
            (∀ q, q < at_ ∨ at_ + 8 ≤ q → memByte t.mem q = memByte s.mem q) ∧ t.mov.tlb = (x :: s.mov.tlb).take 2048 ∧
            x.base = base ∧ x.size = bytes ∧ x.phys = phys ∧ x.asid = spaceAsid s.who.space ∧ x.policy = e.extractLsb' 61 2 ∧
            x.user = e.getLsbD 4 ∧ x.write = e.getLsbD 2 ∧ x.read = e.getLsbD 1 ∧ x.host = false ∧ x.ats = false ∧ (x.dirty = true ↔ e.getLsbD 7 = true ∨ store = true)))) ∧
    (let page := va.toNat / 4096
     let j := Instr.atsTranslationResponse asid va ha perm
     ((asid, page) ∉ s.atsOut → exec j s = .next s) ∧
     ((asid, page) ∈ s.atsOut → ∃ t, exec j s = .next t ∧ t = { s with ats := t.ats, atsOut := t.atsOut } ∧
       (∀ p, p ∈ t.atsOut ↔ p ∈ s.atsOut ∧ p ≠ (asid, page)) ∧
       ∀ e, e ∈ t.ats ↔ e = ⟨asid, page, ha.toNat / 4096, perm.getLsbD 0, perm.getLsbD 1⟩ ∨
         (e ∈ s.ats ∧ ¬(e.asid = asid ∧ e.page = page)))) ∧
    (let covered (i : BitVec 16) (base bytes : Nat) : Prop := i = asid ∧ base < va.toNat + ha.toNat ∧ va.toNat < base + bytes
     ∃ t, exec (.atsInvalidateRequest asid va ha) s = .next t ∧
       t.atsDone = s.atsDone + 1 ∧ t.me.ctx = s.me.ctx ∧ t.faults = s.faults ∧ t.frames = s.frames ∧ TranslationsGone s t covered ∧
       (CacheSound s → OthersQuiet s → HomeKept s t) ∧
       (∀ m e, e ∈ (t.movAt m).tlb ↔ e ∈ (s.movAt m).tlb ∧ ¬covered e.asid e.base e.size) ∧
       (∀ e, e ∈ t.pointers ↔ e ∈ s.pointers ∧ ¬covered e.asid e.base (2 ^ (12 + 9 * e.level))) ∧
       ∀ e, e ∈ t.ats ↔ e ∈ s.ats ∧ ¬covered e.asid (e.page * 4096) 4096) ∧
    (∀ code : BitVec 4,
      let mine (e : FaultEntry) : Prop := e.signalled = false ∧ e.asid = asid ∧ e.key = va.toNat / e.size
      let j := Instr.priPageResponse asid va code
      ((∀ e ∈ s.faults, ¬mine e) → ∃ t, exec j s = .next t ∧ t = { s with priOut := t.priOut } ∧
        ∀ p, p ∈ t.priOut ↔ p ∈ s.priOut ∧ ¬(p.1 = asid ∧ p.2.toNat / 4096 = va.toNat / 4096)) ∧
      (∀ e ∈ s.faults, mine e → s.faults.Nodup → (∀ f ∈ s.faults, mine f → f = e) → s.swaps = [] → CacheSound s → 16 ≤ (hIndex e.token).toNat →
        s.stale 0#7 e.token = false → hKind e.token = 2#2 → (s.cellOf (hCore e.token) (hIndex e.token)).phase.getLsbD 0 = false →
        ∃ t, exec j s = .next t ∧ OnlyCell s t e.token ∧ (∀ f ∈ t.faults, f.token = e.token → f.signalled = true) ∧
          FutureAfter (s.cellOf (hCore e.token) (hIndex e.token)) (t.cellOf (hCore e.token) (hIndex e.token))
            (if code = 0#4 then 0#64 else 1#64) 3)) ∧
    (∀ die key, (∀ e ∈ s.faults, e.die = die → e.key = key → e.sent = true ∨ e.arena = none) → exec (.arenaFaultRecord die key) s = .next s) ∧
    (∀ e i r s1 pos buffer s2, s.faults.find? (fun f => f.die == e.die && f.key == e.key && s.recordDue f) = some e → e.arena = some i →
      s.crews.find? (fun q => spaceAsid q.space = e.asid) = some r → e.command.isSome = true →
      let h := (s.arenaDws r i.toNat).getD 3 0#64
      hDev h = s.devNo → hKind h = 3#2 → 256 ≤ (hIndex h).toNat → s.heldByReplay r.num h = false →
      s.reserve r.num h 64 = (s1, .ok pos buffer) → s1.bufferDws ⟨r.space, true, r.num, hCore h⟩ buffer e.recordDws = some s2 →
      ∃ t, exec (.arenaFaultRecord e.die e.key) s = .next t ∧ t.me.ctx = s2.me.ctx ∧
        t.faults = s2.faults.map fun f => if f = e then { f with sent := true } else f) ∧
    -- write-backs and HBM
    ((∀ l ∈ s.me.l1, l.line ≠ line) → exec (.l1Writeback line) s = .next s) ∧
    (CacheSound s → ∃ t, exec (.l1Writeback line) s = .next t ∧
      t = { s with me := { s.me with l1 := t.me.l1, wq := t.me.wq }, mem := t.mem, l2 := t.l2 } ∧ HomeKept s t ∧
      (∀ l ∈ t.me.l1, l.line = line → l.dirty = 0#64) ∧ ∀ l, l.line ≠ line → (l ∈ t.me.l1 ↔ l ∈ s.me.l1)) ∧
    (let j := Instr.burstResend addr fails write
     let ch := channelOf s.stripe addr
     (hbmSize ≤ addr → exec j s = .next s) ∧
     (addr < hbmSize → ∃ t, exec j s = .next t ∧
       t = { s with crcretry := t.crcretry, failing := t.failing, laneErrors := t.laneErrors, fresh := s.fresh + 2 } ∧
       (∀ k, countAt t.crcretry k = countAt s.crcretry k + if k = ch then BitVec.ofNat 64 (min (fails.toNat + 1) 4) else 0#64) ∧
       (∃ lane, lane / 72 = ch ∧ (∀ k, k ≠ lane → countAt t.laneErrors k = countAt s.laneErrors k) ∧
         (countAt t.laneErrors lane = countAt s.laneErrors lane + BitVec.ofNat 64 (fails.toNat + 1) ∨
           countAt t.laneErrors lane = BitVec.ofNat 64 (fails.toNat + 1))) ∧
       ∀ u, u ∈ t.failing ↔ 4 ≤ fails.toNat ∧ write = false ∧ u = addr / 32 * 32)) ∧
    (let c := chan.toNat
     let p := c ^^^ 1
     let j := Instr.liveLaneRepair chan
     let spare (k : Nat) : Prop := countAt s.sparesUsed k < 2#64
     let grown (l m : List (Nat × Word)) (k : Nat) : Prop := ∀ i, countAt m i = countAt l i + if i = k then 1#64 else 0#64
     ((∀ e ∈ s.laneErrors, e.1 / 72 = c → e.2.toNat < 8) → exec j s = .next s) ∧
     (∀ lane n, s.laneErrors.find? (fun e => e.1 / 72 == c && decide (8 ≤ e.2.toNat)) = some (lane, n) →
       let s1 : State := { s with laneErrors := s.laneErrors.filter (·.1 ≠ lane) }
       (768 ≤ c → exec j s = .next s1) ∧
       (c < 768 → spare c → ∃ t, exec j s = .next t ∧ t = { s1 with lanerepair := t.lanerepair, sparesUsed := t.sparesUsed } ∧
         grown s.lanerepair t.lanerepair c ∧ grown s.sparesUsed t.sparesUsed c) ∧
       (c < 768 → ¬spare c → spare p → ∃ t, exec j s = .next t ∧
         t = { s1 with lanerepair := t.lanerepair, sparesUsed := t.sparesUsed, lanelend := s.lanelend + 1#64 } ∧
         grown s.lanerepair t.lanerepair c ∧ grown s.sparesUsed t.sparesUsed p) ∧
       (c < 768 → ¬spare c → ¬spare p → ∃ t, exec j s = .next t ∧ t = { s1 with degraded := t.degraded } ∧
         ∀ k, k ∈ t.degraded ↔ k = c ∨ k ∈ s.degraded))) ∧
    (∃ t, exec (.patrolScrub addr) s = .next t ∧ t = { s with fresh := s.fresh + 1, cecount := t.cecount } ∧
      ∀ k, countAt t.cecount k = countAt s.cecount k ∨
        (addr < hbmSize ∧ k = (stackLine s.stripe addr).1 ∧ countAt t.cecount k = countAt s.cecount k + 1#64)) ∧
    -- swap pairs
    (s.swapRung = 0 ∨ 16 ≤ s.swaps.length → exec .swapRequest s = .next s) ∧
    (s.swapRung ≠ 0 → s.swaps.length < 16 →
      let r := s.physReadDws (Config.swapRing.toNat + 64 * s.swapNext) 8
      let future := r.getD 4 0#64
      (s.swapOk r = false → hDev future = s.devNo → isResource future = true ∨ s.stale 0#7 future = true → ∃ t, exec .swapRequest s = .next t ∧
        t = { s with swapNext := t.swapNext, swapRung := s.swapRung - 1 }) ∧
      (s.swapOk r = false → CacheSound s → hDev future = s.devNo → isResource future = false → s.stale 0#7 future = false →
        hKind future = 2#2 → ∃ t, exec .swapRequest s = .next t ∧ OnlyCell s t future ∧ t.me.ctx = s.me.ctx ∧
          t.swaps = s.swaps ∧ t.swapRung = s.swapRung - 1 ∧
          FutureAfter (s.cellOf (hCore future) (hIndex future)) (t.cellOf (hCore future) (hIndex future)) 0x8000000000000006#64 3) ∧
      (s.swapOk r = true → (∀ k ∈ s.cores, k.l1 = [] ∧ k.wq = []) → ∃ t p, exec .swapRequest s = .next t ∧
        t.swaps = s.swaps ++ [p] ∧ t.swapRung = s.swapRung - 1 ∧ t.mem = s.mem ∧ t.me.ctx = s.me.ctx ∧ p.near = (r.getD 0 0#64).toNat ∧
        p.far = (r.getD 1 0#64).toNat ∧ p.nearEntry = (r.getD 2 0#64).toNat ∧ p.farEntry = (r.getD 3 0#64).toNat ∧
        p.future = future ∧ p.asid = (r.getD 5 0#64).extractLsb' 44 16 ∧ p.bitmap = 0#256)) ∧
    ((s.swaps = [] → ∀ k, exec (.swapLineExchange k) s = .next s ∧ exec (.swapPairRetire k) s = .next s)) ∧
    (∀ p, s.swaps = [p] → p.near ≠ p.far →
      ((∀ i, i < 256 → p.bitmap.getLsbD i = true) → exec (.swapLineExchange 0#4) s = .next s) ∧
      (∀ i, i < 256 → p.bitmap.getLsbD i = false → (∀ k, k < i → p.bitmap.getLsbD k = true) →
        exec (.swapPairRetire 0#4) s = .next s ∧
        ∃ t, exec (.swapLineExchange 0#4) s = .next t ∧ t = { s with mem := t.mem, l2 := t.l2, swaps := t.swaps } ∧
          (∀ l, l ∈ t.l2 ↔ l ∈ s.l2 ∧ l.line ≠ p.near / 256 + i) ∧
          (∃ b, t.swaps = [{ p with bitmap := b }] ∧ ∀ k, k < 256 → (b.getLsbD k = true ↔ p.bitmap.getLsbD k = true ∨ k = i)) ∧
          ∀ q, memByte t.mem (t.redirect q) = memByte s.mem (s.redirect q)) ∧
      ((∀ i, i < 256 → p.bitmap.getLsbD i = true) → hDev p.future = s.devNo → isResource p.future = true →
        (∀ k ∈ s.cores, k.l1 = [] ∧ k.wq = []) → p.far < 2 ^ 56 → p.near < hbmSize → p.nearEntry + 128 ≤ hbmSize → p.farEntry + 128 ≤ hbmSize →
        Apart p.nearEntry 128 p.farEntry 128 → Apart p.nearEntry 128 p.near 65536 → Apart p.farEntry 128 p.near 65536 → hostBase ≤ p.far →
        (let host := s.asidHost p.asid
        let page (a : Nat) : Nat := if host = false then a / 65536 else if hostBase ≤ a then (a - hostBase) / 65536 else (s.barBase + a) / 65536
        (∀ i, i < 16 → s.namesPage host (BitVec.ofNat 64 (s.physRead (p.nearEntry + 8 * i) 8)) p.near = true ∧
          s.namesPage host (BitVec.ofNat 64 (s.physRead (p.farEntry + 8 * i) 8)) p.far = true) →
        ∃ t, exec (.swapPairRetire 0#4) s = .next t ∧ t.swaps = [] ∧ t.swapdone = s.swapdone + 1#64 ∧ t.me.ctx = s.me.ctx ∧
          (∀ i, i < 16 → t.physRead (p.nearEntry + 8 * i) 8 / 2 ^ 10 % 2 ^ 44 = (page p.far * 16 + 8) % 2 ^ 44 ∧
            t.physRead (p.farEntry + 8 * i) 8 / 2 ^ 10 % 2 ^ 44 = (page p.near * 16 + 8) % 2 ^ 44) ∧
          (∀ q, (q < p.nearEntry ∨ p.nearEntry + 128 ≤ q) → (q < p.farEntry ∨ p.farEntry + 128 ≤ q) → memByte t.mem q = memByte s.mem q) ∧
          ∀ e, t.HoldsTranslation e → let a := if e.host then s.hostToPhys e.phys else e.phys
            ¬(p.near ≤ a ∧ a < p.near + 65536) ∧ ¬(p.far ≤ a ∧ a < p.far + 65536)))) ∧
    -- the host link, boot and power
    (let n := min size.toNat 8
     let reached : Prop := addr + n ≤ s.romBase ∧ addr + n ≤ hbmSize
     let read := Instr.bar2Access false addr size value
     let put := Instr.bar2Access true addr size value
     (¬reached → exec put s = .next s ∧
       exec read s = .next { s with barOut := s.barOut ++ [some (BitVec.ofNat 64 ((2 ^ 64 - 1) % 256 ^ n))] }) ∧
     (reached → s.swaps = [] →
       exec read s = .next { s with barOut := s.barOut ++ [some (BitVec.ofNat 64 (memRead s.mem addr n))] } ∧
       ∃ t, exec put s = .next t ∧ t = { s with mem := t.mem, l2 := t.l2 } ∧
         ∀ q, memByte t.mem q = if addr ≤ q ∧ q < addr + n then BitVec.ofNat 8 (value.toNat / 256 ^ (q - addr)) else memByte s.mem q)) ∧
    (s.kerlo.ready = true → exec .boot s = .next s) ∧
    (s.kerlo.ready = false → ∃ t, exec .boot s = .next t ∧ t.kerlo.ready = true ∧ t.me = s.me ∧ t.others = s.others ∧
      t.movements = s.movements.map (fun v => { v with rows := Vector.replicate 8 0#262144, bad := [] }) ∧ t.romBase ≤ hbmSize ∧
      t.romBase % 65536 = 0 ∧ t.crews = s.crews ∧
      t.kerlo.patch = (if s.kerlo.pendingPatch ≠ 0#16 then s.kerlo.pendingPatch else s.kerlo.patch) ∧
      ∀ q, memByte t.mem q = if (0x10000000000 ≤ q ∧ q < 0x10040000000) ∨ (0x10100000000 ≤ q ∧ q < 0x10108000000) then 0#8
        else memByte s.mem q) ∧
    (let v := s.movAt mov
     let only (t : State) : Prop := t = { s with movements := t.movements } ∧ (∀ m, m ≠ mov → t.movAt m = s.movAt m)
     let changes (j : Instr) (p : Power) : Prop :=
       ∃ t, exec j s = .next t ∧ only t ∧ t.movAt mov = { v with power := p, leaving := false }
     let cores := [mov ++ 0#2, mov ++ 1#2, mov ++ 2#2, mov ++ 3#2]
     let busy (k : Core) : Prop := k.run ≠ none ∨ (∃ u ∈ k.slots, u.state = .ready) ∨
       ∃ c ∈ k.copies, c.state = .running ∨ c.state = .queued
     let idle : Prop := s.kerlo.gating = 1#1 ∧ ∀ c ∈ cores, ¬busy (s.coreAt c)
     let woken : Prop := ∃ c ∈ cores, ∃ u ∈ (s.coreAt c).slots, u.state = .ready
     (∃ t, exec (.powerThrottle mov) s = .next t ∧ (∀ m, m ≠ mov → t.movAt m = s.movAt m) ∧
       min v.clock.toNat 200 ≤ (t.movAt mov).clock.toNat ∧ (t.movAt mov).clock.toNat ≤ v.clock.toNat ∧
       min v.scalarClock.toNat 400 ≤ (t.movAt mov).scalarClock.toNat ∧ (t.movAt mov).scalarClock.toNat ≤ v.scalarClock.toNat ∧
       t.movAt mov = { v with clock := (t.movAt mov).clock, scalarClock := (t.movAt mov).scalarClock } ∧
       t = { s with movements := t.movements, fresh := s.fresh + 2,
                    kerlo := { s.kerlo with errors := s.kerlo.errors ++ [BitVec.ofNat 64 (5 * 2 ^ 56 + mov.toNat)] } }) ∧
     (idle → v.power = .m0 → changes (.autoGateM1 mov) .m1 ∧ changes (.autoGateM2 mov) .m2) ∧
     (idle → v.power = .m1 → changes (.autoGateM2 mov) .m2 ∧ exec (.autoGateM1 mov) s = .next s) ∧
     (¬idle → exec (.autoGateM1 mov) s = .next s ∧ exec (.autoGateM2 mov) s = .next s) ∧
     (woken → v.power = .m1 ∨ v.power = .m2 → changes (.movementWake mov) .m0) ∧
     (¬woken ∨ v.power = .m0 ∨ v.power = .m3 → exec (.movementWake mov) s = .next s))

/-- R454 to R456, R460 to R467: each Kerlo command acts on the oldest queued one alone, answers BADCMD where a reserved field is set, and else
its status, result and reply, leaving the queue: IDENTIFY and ATTEST, POWER_SET, for one movement or several, DEBUG_SET, ERROR_QUERY,
REPAIR_STATUS and PATCH_APPLY. -/
def Obligations.KerloCommandsAnswer : Prop :=
  ∀ (s : State) (c : KerloCmd),
    let ends (i : Instr) (s1 : State) (code : BitVec 8) (result : Word) (reply : List (Nat × Word)) : Prop :=
      ∃ t, exec i s = .next t ∧ Answered s1 t c code result reply
    (∀ row ∈ kerloRows,
      (s.kerlo.queue = [] → exec row.1 s = .next s) ∧
      (s.kerlo.queue.head? = some c → bits (c.p 0) 7 0 ≠ row.2.1 ∨ (∃ k, row.2.2 = some k ∧ (c.p 1).toNat ≠ k) → exec row.1 s = .next s) ∧
      (s.kerlo.queue.head? = some c → bits (c.p 0) 7 0 = row.2.1 → (∀ k, row.2.2 = some k → (c.p 1).toNat = k) → bits (c.p 0) 63 15 ≠ 0 →
        ends row.1 s 0x01#8 0#64 [])) ∧
    (Queued s c 0x01 none 0 → s.kerlo.life ≠ 2#8 → ends .identify s 0#8 0#64
      [(32, identWord s.devNo 0#10), (33, BitVec.ofNat 64 s.stripe), (34, Config.swapRing.zeroExtend 64), (58, BitVec.ofNat 64 s.romBase),
       (59, BitVec.ofNat 64 (hbmSize - s.romBase))]) ∧
    (Queued s c 0x01 none 0 → s.kerlo.life = 2#8 →
      ends .identify { s with kerlo := { s.kerlo with challenge := s.fresh }, fresh := s.fresh + 6 } 0#8 0#64
        [(32, identWord s.devNo 0#10), (33, BitVec.ofNat 64 s.stripe)]) ∧
    (Queued s c 0x02 (some 0) 7 → ends .attestReport s 0#8 0#64
      ([(32, 1#64), (33, identWord s.devNo 0#10)] ++ ((List.range 6).map fun i => (35 + i, c.p (2 + i))) ++
        (List.range 6).map fun i => (41 + i, Config.cipherWord 0 s.kerlo.patchStore 0#64 i))) ∧
    (Queued s c 0x02 (some 1) 13 → ends .attestWrap { s with fresh := s.fresh + 1 } 0#8 0#64 []) ∧
    (Queued s c 0x02 (some 2) 19 →
      let blob := (List.range 18).map fun i => c.p (2 + i)
      (s.crews ≠ [] → ends .attestUnwrap s 0x04#8 0#64 []) ∧
      (s.crews = [] → Config.signatureOk 2 blob 0#64 = false → ends .attestUnwrap s 0x0A#8 0#64 []) ∧
      (s.crews = [] → Config.signatureOk 2 blob 0#64 = true →
        ends .attestUnwrap { s with contextKey := Config.unwrapKey blob } 0#8 0#64 [])) ∧
    (Queued s c 0x0B (some 0) 6 →
      let w := (c.p 2).toNat
      (w < 1000 ∨ 4400 < w → ends .powerSetCap s 0x02#8 0#64 []) ∧
      (1000 ≤ w → w ≤ 4400 → ends .powerSetCap { s with kerlo := { s.kerlo with cap := BitVec.ofNat 16 w } } 0#8 0#64 [])) ∧
    (Queued s c 0x0B (some 1) 6 →
      let j := Instr.powerSetState
      let chosen (m : BitVec 8) : Prop := (c.p (3 + m.toNat / 64)).getLsbD (m.toNat % 64) = true
      let off (m : BitVec 8) : Prop := (s.movAt m).power = .m3
      let cores (m : BitVec 8) := [m ++ 0#2, m ++ 1#2, m ++ 2#2, m ++ 3#2]
      let still (m : BitVec 8) : Prop := ∀ k ∈ cores m, (s.coreAt k).run = none
      let stopped (m : BitVec 8) : Prop := still m ∧ ∀ k ∈ cores m, (s.coreAt k).copies = []
      let taken (m : BitVec 8) : Prop := ∃ k ∈ cores m, (s.coreAt k).bound ≠ 0#7 ∨ (s.coreAt k).grant ≠ []
      let moved (s1 : State) (f : Movement → Movement) : Prop := s1 = { s with movements := s1.movements } ∧
        ∀ m, (chosen m → s1.movAt m = f (s.movAt m)) ∧ (¬chosen m → s1.movAt m = s.movAt m)
      let reaches (p : Power) : Prop := ∃ t s1, exec j s = .next t ∧ Answered s1 t c 0#8 0#64 [] ∧
        moved s1 fun v => { v with power := p, leaving := false }
      let busy : Prop := ∃ t s1, exec j s = .next t ∧ Answered s1 t c 0x04#8 0#64 [] ∧ moved s1 fun v => { v with leaving := false }
      (4 ≤ (c.p 2).toNat → ends j s 0x02#8 0#64 []) ∧
      ((∀ m, chosen m → ¬off m) → c.p 2 = 0#64 → reaches .m0) ∧
      ((∀ m, chosen m → ¬off m ∧ stopped m) → (c.p 2 = 1#64 → reaches .m1) ∧ (c.p 2 = 2#64 → reaches .m2)) ∧
      ((∀ m, chosen m → ¬off m ∧ still m) → (∃ m, chosen m ∧ ∃ k ∈ cores m, ∃ q ∈ (s.coreAt k).copies, q.state = .running ∨ q.state = .queued) →
        c.p 2 = 1#64 ∨ c.p 2 = 2#64 → ∃ t, exec j s = .next t ∧ moved t fun v => { v with leaving := true }) ∧
      ((∃ m, chosen m ∧ off m) → c.p 2 = 1#64 ∨ c.p 2 = 2#64 → busy) ∧
      ((∃ m, chosen m ∧ ¬off m ∧ taken m) → c.p 2 = 3#64 → busy) ∧
      ((∀ m, chosen m → ¬off m ∧ stopped m ∧ ¬taken m) → c.p 2 = 3#64 → s.faults = [] → s.swaps = [] → (∀ k ∈ s.cores, k.l1 = [] ∧ k.wq = []) →
        ∃ t, exec j s = .next t ∧
          (∀ m, chosen m → (t.movAt m).power = .m3 ∧ (t.movAt m).rows = Vector.replicate 8 0#262144 ∧
            (t.movAt m).kept = (cores m).map (fun k => (k, (s.coreAt k).slots)) ∧
            ∀ k ∈ cores m, (t.coreAt k).slots = [] ∧ (t.coreAt k).records = (s.coreAt k).records) ∧
          ∀ q, ((∃ m, chosen m ∧ ((∃ k ∈ cores m, scratchAddr k 0 ≤ q ∧ q < scratchAddr k 0 + 0x100000) ∨
              (istoreAddr m 0 ≤ q ∧ q < istoreAddr m 0 + 0x80000))) → memByte t.mem q = 0#8) ∧
            ((∀ m, chosen m → (∀ k ∈ cores m, q < scratchAddr k 0 ∨ scratchAddr k 0 + 0x100000 ≤ q) ∧
              (q < istoreAddr m 0 ∨ istoreAddr m 0 + 0x80000 ≤ q)) → memByte t.mem q = memByte s.mem q)) ∧
      (∀ m, chosen m → off m → (∀ k, chosen k → k = m) → c.p 2 = 0#64 → ((s.movAt m).kept.map fun e => e.1).Nodup →
        (∀ e ∈ (s.movAt m).kept, e.1 ∈ cores m ∧ (e.2.map (·.num)).Nodup ∧ (s.coreAt e.1).slots = []) →
        ∃ t, exec j s = .next t ∧ t.movAt m = Movement.reset m ∧ (∀ k, k ≠ m → t.movAt k = s.movAt k) ∧
          ∀ e ∈ (s.movAt m).kept, ∀ u ∈ e.2, ∃ w, (t.coreAt e.1).slot? u.num = some w ∧ w.ctx = u.ctx ∧ w.cls = u.cls ∧ w.records = u.records ∧
            w.pending = u.pending ∧ w.handle = u.handle ∧ (w.state = .held ↔ u.state = .held) ∧ w.state ≠ .running)) ∧
    (Queued s c 0x0B (some 2) 6 →
      (1 < (c.p 2).toNat → ends .powerSetGating s 0x02#8 0#64 []) ∧
      ((c.p 2).toNat ≤ 1 →
        ends .powerSetGating { s with kerlo := { s.kerlo with gating := (c.p 2).setWidth 1 } } 0#8 0#64 [])) ∧
    (Queued s c 0x0C (some 0) 14 →
      let n := (c.p 2).toNat
      let level (k : BitVec 8) (w : List WatchRange) : State := { s with kerlo := { s.kerlo with dbg := k }, watchRanges := w }
      let keysGone : State := { s with contextKey := 0#64, kerlo := { s.kerlo with ideKeys := Vector.replicate 5 none, dbg := 3#8 } }
      let signed : Bool := Config.signatureOk 3 (s.unlockWords c) 0#64
      (3 < n → ends .debugSetLevel s 0x02#8 0#64 []) ∧
      ((n = 3 ∧ s.kerlo.life ≠ 2#8) ∨ (n = 1 ∧ s.kerlo.life = 2#8) → ends .debugSetLevel s 0x07#8 0#64 []) ∧
      (n = 0 → ends .debugSetLevel (level 0#8 []) 0#8 0#64 []) ∧
      ((n = 1 ∧ s.kerlo.life ≠ 2#8) ∨ n = 2 → ends .debugSetLevel (level (BitVec.ofNat 8 n) s.watchRanges) 0#8 0#64 []) ∧
      (n = 3 → s.kerlo.life = 2#8 → (signed = false → ends .debugSetLevel s 0x0A#8 0#64 []) ∧
        (signed = true → ends .debugSetLevel keysGone 0#8 0#64 []))) ∧
    (Queued s c 0x0C (some 1) 6 → (c.p 6).toNat < 4 →
      let n : BitVec 7 := (c.p 2).setWidth 7
      let num : BitVec 2 := (c.p 3).setWidth 2
      let exists_ : Prop := n = 0#7 ∨ (s.crew? n).isSome = true
      let open_ : Prop := (2 ≤ s.kerlo.dbg.toNat ∧ (s.kerlo.life = 2#8 → n = 0#7)) ∨
        (s.kerlo.dbg = 1#8 ∧ n ≠ 0#7 ∧ ∃ r, s.crew? n = some r ∧ r.consent = true)
      (64 < (c.p 2).toNat ∨ 3 < (c.p 3).toNat → ends .debugSetWatch s 0x02#8 0#64 []) ∧
      ((c.p 2).toNat ≤ 64 → (c.p 3).toNat ≤ 3 →
        (¬exists_ → ends .debugSetWatch s 0x03#8 0#64 []) ∧ (exists_ → ¬open_ → ends .debugSetWatch s 0x08#8 0#64 []) ∧
        (exists_ → open_ → ∃ t s1, exec .debugSetWatch s = .next t ∧ Answered s1 t c 0#8 0#64 [] ∧ s1 = { s with watchRanges := s1.watchRanges } ∧
          ∀ r, r ∈ s1.watchRanges ↔
            r = ⟨num, n, (c.p 4).toNat, (c.p 5).toNat, (c.p 6).getLsbD 0, (c.p 6).getLsbD 1⟩ ∨
              (r ∈ s.watchRanges ∧ ¬(r.num = num ∧ r.crew = n))))) ∧
    (Queued s c 0x0C (some 2) 3 →
      let i : BitVec 18 := (c.p 2).setWidth 18
      let k := s.coreAt (coidCore i)
      let j := Instr.debugSetCopy
      (2 ^ 18 ≤ (c.p 2).toNat ∨ (c.p 3).toNat % 4096 ≠ 0 → ends j s 0x02#8 0#64 []) ∧
      ((c.p 2).toNat < 2 ^ 18 → (c.p 3).toNat % 4096 = 0 → s.poweredOff (coidCore i) = false →
        (s.debugReaches (k.crewOf (coidSlot i)) = false → ends j s 0x08#8 0#64 []) ∧
        (s.debugReaches (k.crewOf (coidSlot i)) = true → (∀ u, k.slot? (coidSlot i) = some u → u.state ≠ .held) → ends j s 0x02#8 0#64 []) ∧
        (∀ u, s.debugReaches (k.crewOf (coidSlot i)) = true → k.slot? (coidSlot i) = some u → u.state = .held →
          (c.p 3).toNat + 0x12000 ≤ hbmSize → u.deferred = none → u.saved = 0#64 → u.ctx.hasFrame = false → s.swaps = [] → s.Canonical →
          ∃ t s1, exec j s = .next t ∧ Answered s1 t c 0#8 0#64 [] ∧ (s1.coreAt (coidCore i)).saveCount = k.saveCount + 1#32 ∧
            s1.physReadDws (c.p 3).toNat 128 = u.frame (coidCore i) (k.crewOf (coidSlot i)) k.saveCount))) ∧
    (Queued s c 0x0D none 0 → ends .errorQuery { s with kerlo := { s.kerlo with errors := s.kerlo.errors.drop 31 } } 0#8 0#64
      ((32, BitVec.ofNat 64 (s.kerlo.errors.length - 31)) ::
        (List.range (min 31 s.kerlo.errors.length)).map fun i => (33 + i, s.kerlo.errors.getD i 0#64))) ∧
    (Queued s c 0x0E none 1 →
      let n := (c.p 1).toNat
      (12 < n → ends .repairStatus s 0x02#8 0#64 []) ∧
      (n < 12 → ends .repairStatus s 0#8 0#64
        [(32, countAt s.cecount n), (33, countAt s.uecount n), (36, s.lanelend), (37, s.swapdone)]) ∧
      (n = 12 → ∃ v : Word, ends .repairStatus s 0#8 0#64 [(32, v)] ∧
        ∀ i, i < 32 → (∀ p ∈ s.portsDown, p < 32) → (v.getLsbD i = true ↔ i ∈ s.portsDown))) ∧
    (Queued s c 0x0F none 2 → (c.p 2).toNat = 0 ∨ s.readable (c.p 1).toNat (c.p 2).toNat = false →
      ∃ t s1, exec .patchApply s = .next t ∧ Answered s1 t c 0x0C#8 0#64 [] ∧ Unread s s1 (c.p 1).toNat (c.p 2).toNat) ∧
    (Queued s c 0x0F none 2 → (c.p 2).toNat ≠ 0 → s.readable (c.p 1).toNat (c.p 2).toNat = true →
      let image := s.physReadDws (c.p 1).toNat (((c.p 2).toNat + 7) / 8)
      let signed : Bool := Config.signatureOk 0xF image 0#64
      let lives (n : BitVec 8) : State := { s with kerlo := { s.kerlo with life := n } }
      (signed = false → ends .patchApply s 0x0A#8 0#64 []) ∧
      (signed = true → Config.imageIsPatch image = true →
        (Config.imageLevel image ≤ s.kerlo.patch → ends .patchApply s 0x0B#8 0#64 []) ∧
        (s.kerlo.patch < Config.imageLevel image →
          ends .patchApply { s with kerlo := { s.kerlo with pendingPatch := Config.imageLevel image, patchStore := image } } 0#8 0#64 [])) ∧
      (signed = true → Config.imageIsPatch image = false →
        (Config.imageTarget image = 1#8 → s.kerlo.life = 0#8 → ends .patchApply (lives 1#8) 0#8 0#64 []) ∧
        (Config.imageTarget image = 2#8 → s.kerlo.life = 1#8 → s.crews = [] →
          ends .patchApply { lives 2#8 with kerlo := { (lives 2#8).kerlo with dbg := 0#8 }, watchRanges := [] } 0#8 0#64 []) ∧
        (Config.imageTarget image ≠ s.kerlo.life + 1#8 → ends .patchApply s 0x07#8 0#64 [])))

/-- R227, R228, R234, R246, R247, R391, R446, R456 to R458, R492: CREW_CREATE and CREW_DESTROY make and end a crew, CODE_LOAD fills
instruction stores, BIND binds a crew to cores, once their queues are empty, FARM_LAUNCH makes a worker on each core of its set that takes
one; SIGNAL, PREEMPT and WINDOW_REGISTER act as their instructions do for a crew, with a failure's code mapped. Each completes for every
command with no reserved field set that meets its own conditions. -/
def Obligations.KerloCommandsActForCrews : Prop :=
  ∀ (s : State) (c : KerloCmd),
    let p (i : Nat) : Nat := (c.p i).toNat
    let ends (i : Instr) (s1 : State) (code : BitVec 8) (result : Word) : Prop := ∃ t, exec i s = .next t ∧ Answered s1 t c code result []
    let fails (i : Instr) (s1 : State) (code : Nat) : Prop := ends i s1 (if code = 1 then 0x03#8 else if code = 2 then 0x05#8
      else if code = 5 then 0x04#8 else 0x02#8) (BitVec.ofNat 64 (2 ^ 63 + code))
    let calm : Prop := s.swaps = [] ∧ s.Canonical
    (Queued s c 0x03 none 7 → (c.p 2) &&& ~~~0x11F1F#64 = 0#64 → p 4 < 2 ^ 20 →
      let j := Instr.crewCreate
      let legal : Prop := p 1 ≤ 64 ∧ 1 ≤ bits (c.p 2) 4 0 ∧ bits (c.p 2) 4 0 ≤ 16 ∧ 8 ≤ bits (c.p 2) 12 8 ∧ bits (c.p 2) 12 8 ≤ 20 ∧
        bits (c.p 3) 63 60 ∈ [0, 10, 11] ∧ regionOf (p 5) ≠ .reserved ∧ regionOf (p 6) ≠ .reserved
      let total := s.romBase / 65536
      let ring := (32 * 2 ^ bits (c.p 2) 12 8 + 65535) / 65536
      (s.kerlo.life = 2#8 → ends j s 0x07#8 0#64) ∧
      (s.kerlo.life ≠ 2#8 →
        (¬legal → ends j s 0x02#8 0#64) ∧
        (legal → 1 ≤ p 1 → (s.crew? (BitVec.ofNat 7 (p 1))).isSome = true → ends j s 0x03#8 0#64) ∧
        (legal → p 1 = 0 → (∀ k, 1 ≤ k → k ≤ 64 → (s.crew? (BitVec.ofNat 7 k)).isSome = true) → ends j s 0x05#8 0#64) ∧
        (∀ n, legal → 1 ≤ n → n ≤ 64 → p 1 = n ∨ (p 1 = 0 ∧ ∀ k, 1 ≤ k → k < n → (s.crew? (BitVec.ofNat 7 k)).isSome = true) →
          s.crew? (BitVec.ofNat 7 n) = none →
          (s.framesLeft total < p 7 + ring ∨ s.systemFrames total ring = none → ends j s 0x05#8 0#64) ∧
          (∀ f, p 7 + ring ≤ s.framesLeft total → s.systemFrames total ring = some f →
            ∃ t s1 r, exec j s = .next t ∧ Answered s1 t c 0#8 (BitVec.ofNat 64 n) [] ∧ s1.crews = r :: s.crews ∧
              r.num = BitVec.ofNat 7 n ∧ r.space.extractLsb' 44 16 = BitVec.ofNat 16 (0x100 + n) ∧
              (∀ i, i < 44 ∨ 60 ≤ i → r.space.getLsbD i = (c.p 3).getLsbD i) ∧ r.reserve.toNat = bits (c.p 2) 4 0 ∧
              r.logSize.toNat = bits (c.p 2) 12 8 ∧ r.logBase = 65536 * f ∧ r.logHead = 0 ∧ r.logTail = 0 ∧ r.faulted = false ∧
              r.consent = (c.p 2).getLsbD 16 ∧ r.pasid.toNat = p 4 ∧ r.arenaTable = p 5 ∧ r.poolTable = p 6 ∧
              s1.me = s.me ∧ s1.others = s.others ∧ (p 7 = 0 → s1.frames = s.frames) ∧
              (calm → p 7 = 0 → p 6 + 512 ≤ hbmSize →
                (∀ i, i < 16 → s1.poolTop r i = none ∧ s1.physRead (p 6 + 32 * i + 8) 4 = 0) ∧
                ∀ q, q < p 6 ∨ p 6 + 512 ≤ q → memByte s1.mem q = memByte s.mem q))))) ∧
    (Queued s c 0x04 none 1 →
      let j := Instr.crewDestroy
      let n : BitVec 7 := BitVec.ofNat 7 (p 1)
      let asid : BitVec 16 := BitVec.ofNat 16 (0x100 + p 1)
      (p 1 = 0 ∨ 64 < p 1 → ends j s 0x02#8 0#64) ∧
      (1 ≤ p 1 → p 1 ≤ 64 → s.crew? n = none → ends j s 0x03#8 0#64) ∧
      (1 ≤ p 1 → p 1 ≤ 64 → (s.crew? n).isSome = true → (∀ w ∈ s.windows, w.owner = n → w.inflight = 0 ∧
          ∀ k ∈ s.cores, ∀ x, k.passed = some x → ptrWindow x ≠ w.index) →
        ∃ t s1, exec j s = .next t ∧ Answered s1 t c 0#8 0#64 [] ∧ (∀ r, r ∈ s1.crews → r.num ≠ n) ∧
          (∀ k, (s1.coreAt k).bound ≠ n ∧ ∀ q ∈ (s1.coreAt k).copies, q.crew ≠ n) ∧ (∀ w ∈ s1.windows, w.owner ≠ n) ∧
          (∀ f ∈ s1.frames, f.crew ≠ n) ∧ (∀ w ∈ s1.watchRanges, w.crew ≠ n) ∧ (∀ e ∈ s1.faults, e.asid ≠ asid) ∧
          ∀ e, s1.HoldsTranslation e → e.asid ≠ asid)) ∧
    (Queued s c 0x05 none 8 →
      let j := Instr.codeLoad
      let src := p 1
      let n := p 2
      let off := p 3
      let chosen (m : BitVec 8) : Prop := (c.p (4 + m.toNat / 64)).getLsbD (m.toNat % 64) = true
      let shape : Prop := n ≠ 0 ∧ n % 2 = 0 ∧ off % 2 = 0 ∧ p 8 ≤ 64
      (¬shape → ends j s 0x02#8 0#64) ∧
      (shape → 0x80000 < off + n → ends j s 0x06#8 0#64) ∧
      (shape → off + n ≤ 0x80000 → (∃ m k, chosen m ∧ movOf k = m ∧ (s.coreAt k).bound ≠ 0#7 ∧ (s.coreAt k).bound.toNat ≠ p 8) →
        ends j s 0x04#8 0#64) ∧
      (shape → off + n ≤ 0x80000 → (∀ m k, chosen m → movOf k = m → (s.coreAt k).bound = 0#7 ∨ (s.coreAt k).bound.toNat = p 8) →
        ((∃ m, chosen m ∧ (s.movAt m).power = .m3) → ends j s 0x09#8 0#64) ∧
        ((∀ m, chosen m → (s.movAt m).power ≠ .m3) →
          (s.readable src n = false → ∃ t s1, exec j s = .next t ∧ Answered s1 t c 0x0C#8 0#64 [] ∧ Unread s s1 src n) ∧
          (s.readable src n = true → ∃ t s1, exec j s = .next t ∧ Answered s1 t c 0#8 0#64 [] ∧
            s1 = { s with mem := s1.mem, bad := s1.bad, l2 := s1.l2 } ∧
            (calm → src + n ≤ hbmSize →
              (∀ m i, chosen m → i < n → memByte s1.mem (istoreAddr m 0 + off + i) = memByte s.mem (src + i)) ∧
              ∀ q, (∀ m, chosen m → q < istoreAddr m 0 + off ∨ istoreAddr m 0 + off + n ≤ q) → memByte s1.mem q = memByte s.mem q))))) ∧
    (Queued s c 0x06 none 4 → p 4 < 2 →
      let j := Instr.bind
      let n : BitVec 7 := BitVec.ofNat 7 (p 1)
      let exists_ : Prop := p 1 = 0 ∨ (s.crew? n).isSome = true
      let core (i : Nat) : BitVec 10 := BitVec.ofNat 10 (p 2 + i)
      let powered (i : Nat) : Prop := (s.movAt (movOf (core i))).power ≠ .m3
      let free (i : Nat) : Prop := (∀ u ∈ (s.coreAt (core i)).slots, supSlot u.num = true) ∧
        ((s.coreAt (core i)).bound = 0#7 ∨ ∀ q ∈ (s.coreAt (core i)).copies, q.crew ≠ (s.coreAt (core i)).bound)
      let bound (s1 : State) (count : Nat) : Prop := ∀ i, i < count →
        let k := s1.coreAt (core i)
        k.bound = n ∧ k.space = ((s.crew? n).map (·.space)).getD 0#64 ∧ (n = 0#7 → k.replay = false) ∧
          (n ≠ 0#7 → k.replay = true ∧ (k.replayEnd = true ↔ p 4 = 0)) ∧
          (s.swaps = [] → ∀ q, scratchAddr (core i) 4096 ≤ q → q < scratchAddr (core i) 0x100000 → memByte s1.mem q = 0#8)
      (64 < p 1 ∨ 1024 < p 2 + p 3 → fails j s 6) ∧
      (p 1 ≤ 64 → p 2 + p 3 ≤ 1024 →
        (¬exists_ → fails j s 1) ∧
        (∀ i, exists_ → i ≤ p 3 → (∀ k, k < i → powered k ∧ free k) → i = p 3 ∨ ¬(powered i ∧ free i) →
          let s0 := ((List.range i).map core).foldl State.emptyQueues s
          let emptied : Prop := ∀ k, k < i → (s0.coreAt (core k)).run = none ∨ ((s0.coreAt (core k)).ctx.vq = [] ∧ (s0.coreAt (core k)).ctx.mq = [])
          (¬emptied → exec j s = .next s0) ∧
          (emptied →
            (i = p 3 → ∃ t s1, exec j s = .next t ∧ Answered s1 t c 0#8 (c.p 3) [] ∧ bound s1 i) ∧
            (i < p 3 → ¬powered i → ∃ t s1, exec j s = .next t ∧ Answered s1 t c 0x09#8 (BitVec.ofNat 64 i) [] ∧ bound s1 i) ∧
            (i < p 3 → powered i → ¬free i → ∃ t s1, exec j s = .next t ∧ Answered s1 t c 0x04#8 0x8000000000000005#64 [] ∧ bound s1 i))))) ∧
    (Queued s c 0x07 none 3 →
      let j := Instr.farmLaunch
      let h := c.p 3
      (p 1 = 0 ∨ 64 < p 1 ∨ p 2 % 64 ≠ 0 → fails j s 6) ∧
      (1 ≤ p 1 → p 1 ≤ 64 → p 2 % 64 = 0 → s.crew? (BitVec.ofNat 7 (p 1)) = none → fails j s 1) ∧
      (∀ r, 1 ≤ p 1 → p 1 ≤ 64 → p 2 % 64 = 0 → s.crew? (BitVec.ofNat 7 (p 1)) = some r →
        let read := s.crewDws ⟨r.space, true, r.num, 0#10⟩ (c.p 2) 8
        (∀ s1 f, read = (s1, .error f) → (f = .wait → exec j s = .next s1) ∧ (f ≠ .wait → ends j s1 0x0C#8 0#64)) ∧
        (∀ s1 l, read = (s1, .ok l) →
          (hDev h ≠ s1.devNo → fails j s1 9) ∧
          (hDev h = s1.devNo → s1.heldByReplay r.num h = true → exec j s = .next s1) ∧
          (hDev h = s1.devNo → s1.heldByReplay r.num h = false →
            (s1.stale r.num h = true → fails j s1 9) ∧
            (s1.stale r.num h = false → isResource h = true ∨ hKind h ≠ 1#2 ∨ 4 < (l.getD 5 0#64).toNat → fails j s1 6) ∧
            (s1.stale r.num h = false → isResource h = false → hKind h = 1#2 → (l.getD 5 0#64).toNat ≤ 4 →
              ∀ cores : List (BitVec 10), cores.Nodup → (∀ k, k ∈ cores ↔ InSet (l.getD 2 0#64) (l.getD 3 0#64) k) →
              let s2 := if s1.crewFaulted r.num then s1 else s1.farmCounter h (l.getD 1 0#64)
              ∃ t s3, exec j s = .next t ∧ Answered s3 t c 0#8 (BitVec.ofNat 64 (s2.workers r.num cores)) [] ∧
                Farmed s2 s3 r.num cores
                  ⟨l.getD 0 0#64, l.getD 4 0#64, h, 0#64, BitVec.ofNat 2 ((l.getD 5 0#64).toNat - 1), 0, 3#3⟩ ∧
                (CacheSound s1 → s1.crewFaulted r.num = false → (s3.cellOf (hCore h) (hIndex h)).count = 0 ∧
                  (s3.cellOf (hCore h) (hIndex h)).threshold = (l.getD 1 0#64).toNat % 2 ^ 32)))))) ∧
    (Queued s c 0x08 none 4 →
      let j := Instr.signal
      let h := c.p 1
      let n : BitVec 7 := BitVec.ofNat 7 (p 4)
      let code : BitVec 8 := BitVec.ofNat 8 (p 2)
      let core := hCore h
      (p 2 ∉ [1, 2, 3, 5] ∨ 64 < p 4 → ends j s 0x02#8 0#64) ∧
      (p 2 ∈ [1, 2, 3, 5] → p 4 ≤ 64 → kindFits code h = false → ends j s 0#8 0x20#64) ∧
      (p 2 ∈ [1, 2, 3, 5] → p 4 ≤ 64 → kindFits code h = true → hDev h ≠ s.devNo →
        (s.hasRoute (hDev h) = false → ends j s 0#8 0x0A#64) ∧
        (s.hasRoute (hDev h) = true → ∃ t r v, exec j s = .next t ∧ r.kind = .token ∧ r.addr = h ∧ r.operand = c.p 3 ∧
          Answered { s with podOut := s.podOut ++ [r], fresh := s.fresh + 1 } t c 0#8 v [])) ∧
      (p 2 ∈ [1, 2, 3, 5] → p 4 ≤ 64 → kindFits code h = true → hDev h = s.devNo →
        (7 ≤ (hIndex h).toNat → isResource h = true → ends j s 0#8 9#64) ∧
        (hIndex h = 3#16 → hGen h = 0#26 → hKind h = 1#2 → s.poweredOff core = false → ∃ t s1, exec j s = .next t ∧ Answered s1 t c 0#8 0#64 [] ∧
          (s1.coreAt core).replayEnd = ((s.coreAt core).replayEnd || (s.coreAt core).replay) ∧ s1.mem = s.mem) ∧
        (hIndex h = 6#16 → core = 0#10 → hGen h = 0#26 → hKind h = 1#2 → s.poweredOff core = false → ends j { s with swapRung := s.swapRung + 1 } 0#8 0#64) ∧
        (isResource h = false →
          (s.crewFaulted n = true → ends j s 0#8 0#64) ∧
          (∀ r, s.crewFaulted n = false → n ≠ 0#7 → s.crew? n = some r → s.boundTo core n = false ∨ (s.coreAt core).replay = true →
            LogSound r → r.logTail < r.logHead + 2 ^ r.logSize.toNat → ∃ t s1 op, exec j s = .next t ∧ Answered s1 t c 0#8 0#64 [] ∧
              s1.crew? n = some { r with logTail := r.logTail + 1 } ∧
              (CacheSound s → Logged s1 r r.logTail op ∧ op.code = code ∧ op.handle = h ∧ op.operand = c.p 3)) ∧
          (s.crewFaulted n = false → n = 0#7 ∨ (s.boundTo core n = true ∧ (s.coreAt core).replay = false) →
            (s.stale n h = true → ends j s 0#8 9#64) ∧
            (s.stale n h = false → ∃ t s1 v, exec j s = .next t ∧ Answered s1 t c 0#8 v [] ∧ (p 2 ≠ 5 → v = 0#64) ∧
              (p 2 = 5 → v = if (s.cellOf core (hIndex h)).phase.getLsbD 0 then 0x21#64 else 0#64) ∧
              (CacheSound s → OnlyCell s s1 h ∧ ∀ op : TokenOp, op.code = code → op.operand = c.p 3 → op.scope = 5#3 →
                CellTakes (s.cellOf core (hIndex h)) (s1.cellOf core (hIndex h)) op)))))) ∧
    (Queued s c 0x09 none 2 → p 2 < 2 →
      let j := Instr.preemptCommand
      let i : BitVec 18 := BitVec.ofNat 18 (p 1)
      let core := coidCore i
      let n := coidSlot i
      let k := s.coreAt core
      let hold : Prop := p 2 = 1 ∧ s.hasOwnRecord i = false
      (2 ^ 18 ≤ p 1 → fails j s 6) ∧
      (p 1 < 2 ^ 18 → k.slot? n = none → fails j s 3) ∧
      (∀ u, p 1 < 2 ^ 18 → k.slot? n = some u → (u.state = .running ↔ k.run = some n) →
        ∃ t s1 w, exec j s = .next t ∧ Answered s1 t c 0#8 (if u.state = .running then 1#64 else 0#64) [] ∧
          (s1.coreAt core).slot? n = some w ∧ s1.mem = s.mem ∧
          (hold → w.state = .held ∧ w.records = u.records + 1 ∧ (k.run = some n → (s1.coreAt core).run = none) ∧
            ∃ r, (s1.coreAt core).records = k.records ++ [r] ∧ r.code = 0x0D#8 ∧ r.rcoid = i ∧ r.epc = w.ctx.pc ∧ r.entry = none) ∧
          (¬hold → (s1.coreAt core).records = k.records ∧
            (k.run = some n → (s1.coreAt core).run = none ∧ w.state = .ready ∧ w.seq = k.seqCount ∧ w.kind = .forced) ∧
            (k.run ≠ some n → s1 = s)) ∧
          (k.run = some n → KeptByForce k.ctx w.ctx ∧ w.ctx.pc = k.ctx.pc))) ∧
    (Queued s c 0x0A none 2 →
      let j := Instr.windowRegister
      let n : BitVec 7 := BitVec.ofNat 7 (p 1)
      let exists_ : Prop := p 1 = 0 ∨ (s.crew? n).isSome = true
      let l := s.physReadDws (p 2) 8
      (64 < p 1 ∨ p 2 % 64 ≠ 0 → fails j s 6) ∧
      (p 1 ≤ 64 → p 2 % 64 = 0 → ¬exists_ → fails j s 1) ∧
      (p 1 ≤ 64 → p 2 % 64 = 0 → exists_ →
        (s.readable (p 2) 64 = false → ∃ t s1, exec j s = .next t ∧ Answered s1 t c 0x0C#8 0#64 [] ∧ Unread s s1 (p 2) 64) ∧
        (s.readable (p 2) 64 = true →
          (badWindow l = true → fails j s 6) ∧
          (badWindow l = false → (∀ i, ∃ w ∈ s.windows, w.index = i) → fails j s 2) ∧
          (∀ i : Nat, badWindow l = false → 1 ≤ i → i ≤ 4096 → (∀ w ∈ s.windows, w.index ≠ s.lastWindow + BitVec.ofNat 12 i) →
            (∀ k, 1 ≤ k → k < i → ∃ w ∈ s.windows, w.index = s.lastWindow + BitVec.ofNat 12 k) →
            ∃ t s1 w, exec j s = .next t ∧ Answered s1 t c 0#8 (s.devNo ++ (s.lastWindow + BitVec.ofNat 12 i) ++ 0#42) [] ∧
              s1 = { s with windows := w :: s.windows, lastWindow := w.index } ∧ w.index = s.lastWindow + BitVec.ofNat 12 i ∧
              WindowDescribed w n l))))
end

