-- ==== Sys2Proof/Laws/Memory.lean ====
section
/-!
SUPPORT. Physical memory: every operation on the list of bytes keeps its canonical form, and what a read gives after a write.
-/

namespace Sys2Proof.Machine

/-! ## The canonical form -/

theorem memWfFrom_mono {lo lo' : Nat} (h : lo ≤ lo') {m : List Host.Cell} (hm : memWfFrom lo' m = true) : memWfFrom lo m = true := by
  cases m with
  | nil => rfl
  | cons c r =>
    simp only [memWfFrom, Bool.and_eq_true, decide_eq_true_eq] at hm ⊢
    exact ⟨⟨by omega, hm.1.2⟩, hm.2⟩

/-- A byte below every entry is not listed. -/
theorem memByte_below {m : List Host.Cell} {lo a : Nat} (hm : memWfFrom lo m = true) (h : a < lo) : memByte m a = 0#8 := by
  induction m generalizing lo with
  | nil => rfl
  | cons c r ih =>
    simp only [memWfFrom, Bool.and_eq_true, decide_eq_true_eq] at hm
    rw [memByte, if_neg (by omega)]
    exact ih hm.2 (by omega)

theorem memPut_wfFrom {m : List Host.Cell} {lo a : Nat} (b : Byte) (hm : memWfFrom lo m = true) (h : lo ≤ a) :
    memWfFrom lo (memPut m a b) = true := by
  induction m generalizing lo with
  | nil =>
    simp only [memPut]
    split <;> simp [memWfFrom, *]
  | cons c r ih =>
    have hc := hm
    simp only [memWfFrom, Bool.and_eq_true, decide_eq_true_eq] at hc
    simp only [memPut]
    split
    · split
      · exact hm
      · rename_i hb
        simp only [memWfFrom, Bool.and_eq_true, decide_eq_true_eq]
        exact ⟨⟨h, hb⟩, ⟨by omega, hc.1.2⟩, hc.2⟩
    · split
      · split
        · exact memWfFrom_mono (by omega) hc.2
        · rename_i ha hb
          simp only [memWfFrom, Bool.and_eq_true, decide_eq_true_eq]
          exact ⟨⟨h, hb⟩, ha ▸ hc.2⟩
      · simp only [memWfFrom, Bool.and_eq_true, decide_eq_true_eq]
        exact ⟨hc.1, ih hc.2 (by omega)⟩

/-- Storing a byte keeps the canonical form. -/
theorem memPut_wf {m : List Host.Cell} (a : Nat) (b : Byte) (hm : Memory.wf m = true) : Memory.wf (memPut m a b) = true :=
  memPut_wfFrom b hm (Nat.zero_le a)

/-- Storing bytes keeps the canonical form. -/
theorem memWrite_wf {m : List Host.Cell} (a n v : Nat) (hm : Memory.wf m = true) : Memory.wf (memWrite m a n v) = true := by
  induction n generalizing m a v with
  | zero => exact hm
  | succ n ih => exact ih _ _ (memPut_wf a _ hm)

theorem memClear_wfFrom {m : List Host.Cell} {l : Nat} (lo hi : Nat) (hm : memWfFrom l m = true) : memWfFrom l (memClear m lo hi) = true := by
  induction m generalizing l with
  | nil => rfl
  | cons c r ih =>
    simp only [memWfFrom, Bool.and_eq_true, decide_eq_true_eq] at hm
    have hr := ih hm.2
    unfold memClear at hr ⊢
    rw [List.filter_cons]
    split
    · simp only [memWfFrom, Bool.and_eq_true, decide_eq_true_eq]
      exact ⟨hm.1, hr⟩
    · exact memWfFrom_mono (by omega) hr

/-- Zeroing a range keeps the canonical form. -/
theorem memClear_wf {m : List Host.Cell} (lo hi : Nat) (hm : Memory.wf m = true) : Memory.wf (memClear m lo hi) = true :=
  memClear_wfFrom lo hi hm

/-! ## Reading -/

theorem memByte_memPut_from {m : List Host.Cell} {lo a : Nat} (b : Byte) (a' : Nat) (hm : memWfFrom lo m = true) :
    memByte (memPut m a b) a' = if a' = a then b else memByte m a' := by
  induction m generalizing lo with
  | nil =>
    simp only [memPut]
    split
    · rename_i hb; simp [memByte, hb]
    · by_cases hx : a' = a
      · rw [if_pos hx, memByte, if_pos hx.symm]
      · rw [if_neg hx]; simp [memByte, Ne.symm hx]
  | cons c r ih =>
    simp only [memWfFrom, Bool.and_eq_true, decide_eq_true_eq] at hm
    have below : ∀ x, x < c.1 + 1 → memByte r x = 0#8 := fun x hx => memByte_below hm.2 hx
    simp only [memPut]
    split
    · split
      · rename_i hb
        split
        · subst_vars; rw [memByte, if_neg (by omega), below _ (by omega)]
        · rfl
      · by_cases hx : a' = a
        · rw [if_pos hx, memByte, if_pos hx.symm]
        · rw [if_neg hx, memByte, if_neg (Ne.symm hx)]
    · split
      · rename_i hac
        subst hac
        split
        · rename_i hb
          split
          · subst_vars; rw [below _ (by omega)]
          · rw [memByte, if_neg (by omega)]
        · by_cases hx : a' = c.1
          · rw [if_pos hx, memByte, if_pos hx.symm]
          · rw [if_neg hx, memByte, memByte, if_neg (Ne.symm hx), if_neg (Ne.symm hx)]
      · simp only [memByte]
        rw [ih hm.2]
        split
        · rw [if_neg (by omega)]
        · rfl

/-- A byte read after a byte is stored. -/
theorem memByte_memPut {m : List Host.Cell} (a : Nat) (b : Byte) (a' : Nat) (hm : Memory.wf m = true) :
    memByte (memPut m a b) a' = if a' = a then b else memByte m a' := memByte_memPut_from b a' hm

/-- A byte outside those stored reads as before. -/
theorem memByte_memWrite_outside {m : List Host.Cell} (a n v a' : Nat) (hm : Memory.wf m = true) (h : a' < a ∨ a + n ≤ a') :
    memByte (memWrite m a n v) a' = memByte m a' := by
  induction n generalizing m a v with
  | zero => rfl
  | succ n ih =>
    rw [memWrite, ih _ _ (memPut_wf _ _ hm) (by omega), memByte_memPut _ _ _ hm, if_neg (by omega)]

/-- A byte among those stored reads as the byte of the number at its place. -/
theorem memByte_memWrite_inside {m : List Host.Cell} (a n v i : Nat) (hm : Memory.wf m = true) (h : i < n) :
    memByte (memWrite m a n v) (a + i) = BitVec.ofNat 8 (v / 256 ^ i) := by
  induction n generalizing m a v i with
  | zero => omega
  | succ n ih =>
    rw [memWrite]
    cases i with
    | zero =>
      rw [memByte_memWrite_outside _ _ _ _ (memPut_wf _ _ hm) (by omega), memByte_memPut _ _ _ hm]
      simp
    | succ i =>
      have := ih (m := memPut m a (BitVec.ofNat 8 v)) (a + 1) (v / 256) i (memPut_wf _ _ hm) (by omega)
      rw [show a + (i + 1) = a + 1 + i by omega, this, Nat.div_div_eq_div_mul, Nat.pow_succ, Nat.mul_comm]

/-- A number read is the one of its bytes. -/
theorem memRead_congr {m m' : List Host.Cell} (a n : Nat) (h : ∀ i < n, memByte m (a + i) = memByte m' (a + i)) :
    memRead m a n = memRead m' a n := by
  induction n generalizing a with
  | zero => rfl
  | succ n ih =>
    rw [memRead, memRead, ih (a + 1) fun i hi => by have := h (i + 1) (by omega); rwa [show a + 1 + i = a + (i + 1) by omega],
      show memByte m a = memByte m' a from h 0 (by omega)]

/-- READ AFTER WRITE: the bytes stored read as the number stored. -/
theorem memRead_memWrite_same {m : List Host.Cell} (a n v : Nat) (hm : Memory.wf m = true) :
    memRead (memWrite m a n v) a n = v % 256 ^ n := by
  induction n generalizing m a v with
  | zero => simp [memRead, Nat.mod_one]
  | succ n ih =>
    rw [memRead, memWrite, ih _ _ (memPut_wf _ _ hm), memByte_memWrite_outside _ _ _ _ (memPut_wf _ _ hm) (by omega),
      memByte_memPut _ _ _ hm, if_pos rfl, BitVec.toNat_ofNat]
    have h := Nat.mod_mul (a := 256) (b := 256 ^ n) (x := v)
    exact h.symm.trans (by rw [Nat.pow_succ, Nat.mul_comm])

/-- A read of bytes apart from those stored gives what it gave before. -/
theorem memRead_memWrite_apart {m : List Host.Cell} (a n v a' k : Nat) (hm : Memory.wf m = true) (h : a' + k ≤ a ∨ a + n ≤ a') :
    memRead (memWrite m a n v) a' k = memRead m a' k :=
  memRead_congr _ _ fun i hi => memByte_memWrite_outside _ _ _ _ hm (by omega)

/-! ## Physical accesses -/

/-- A physical store keeps the canonical form. -/
theorem physWrite_wf (s : State) (pa n v : Nat) (hm : Memory.wf s.mem = true) : Memory.wf (s.physWrite pa n v).mem = true := by
  unfold State.physWrite
  split
  · exact hm
  · exact memWrite_wf _ _ _ hm

theorem placeZero_wf (s : State) (q n : Nat) (hm : Memory.wf s.mem = true) : Memory.wf (s.placeZero q n).mem = true :=
  memClear_wf _ _ hm

/-- Zeroing physical memory keeps the canonical form. -/
theorem physZero_wf (s : State) (pa n : Nat) (hm : Memory.wf s.mem = true) : Memory.wf (s.physZero pa n).mem = true := by
  have cuts : ∀ (l : List (Nat × Nat)) (a : State), Memory.wf a.mem = true →
      Memory.wf (l.foldl (fun (acc : State) c => acc.placeZero (acc.redirect c.1) c.2) a).mem = true := by
    intro l
    induction l with
    | nil => exact fun a ha => ha
    | cons c r ih => exact fun a ha => ih _ (placeZero_wf _ _ _ ha)
  unfold State.physZero
  split
  · exact placeZero_wf _ _ _ hm
  · exact cuts _ _ hm

/-- An L2 line that leaves its slice changes no byte of memory, whose value the line always agrees with. -/
theorem dropL2_mem (s : State) (line : Nat) : (s.dropL2 line).mem = s.mem := by
  unfold State.dropL2
  split <;> rfl

/-- An access at the L2 home slice changes no byte of memory by itself. -/
theorem touchL2_mem (s : State) (pa : Nat) : (s.touchL2 pa).mem = s.mem := by
  unfold State.touchL2
  dsimp only
  split
  · rfl
  · unfold State.makeL2
    dsimp only
    split
    · rfl
    · split
      · rfl
      · exact dropL2_mem _ _

theorem byPolicy_mem (s : State) (pa : Nat) (policy : BitVec 2) : (s.byPolicy pa policy).mem = s.mem := by
  unfold State.byPolicy
  split
  · exact dropL2_mem _ _
  · exact touchL2_mem _ _

/-- Consecutive doublewords stored keep the canonical form. -/
theorem physWriteDws_wf (s : State) (pa : Nat) (l : List Word) (hm : Memory.wf s.mem = true) :
    Memory.wf (s.physWriteDws pa l).mem = true := by
  induction l generalizing s pa with
  | nil => exact hm
  | cons w r ih => exact ih _ _ (physWrite_wf _ _ _ _ hm)

end Sys2Proof.Machine
end

