-- ==== Sys2Proof/Laws/State.lean ====
section
/-!
SUPPORT. The fields of the state after each plain update, and a register after a register is written.
-/

namespace Sys2Proof.Machine

/-! ## updCtx -/

@[simp] theorem State.updCtx_others (s : State) (f : Ctx → Ctx) : (s.updCtx f).others = s.others := rfl
@[simp] theorem State.updCtx_movements (s : State) (f : Ctx → Ctx) : (s.updCtx f).movements = s.movements := rfl
@[simp] theorem State.updCtx_mem (s : State) (f : Ctx → Ctx) : (s.updCtx f).mem = s.mem := rfl
@[simp] theorem State.updCtx_bad (s : State) (f : Ctx → Ctx) : (s.updCtx f).bad = s.bad := rfl
@[simp] theorem State.updCtx_devNo (s : State) (f : Ctx → Ctx) : (s.updCtx f).devNo = s.devNo := rfl
@[simp] theorem State.updCtx_routes (s : State) (f : Ctx → Ctx) : (s.updCtx f).routes = s.routes := rfl
@[simp] theorem State.updCtx_supSpace (s : State) (f : Ctx → Ctx) : (s.updCtx f).supSpace = s.supSpace := rfl
@[simp] theorem State.updCtx_romBase (s : State) (f : Ctx → Ctx) : (s.updCtx f).romBase = s.romBase := rfl
@[simp] theorem State.updCtx_stripe (s : State) (f : Ctx → Ctx) : (s.updCtx f).stripe = s.stripe := rfl
@[simp] theorem State.updCtx_faults (s : State) (f : Ctx → Ctx) : (s.updCtx f).faults = s.faults := rfl
@[simp] theorem State.updCtx_crews (s : State) (f : Ctx → Ctx) : (s.updCtx f).crews = s.crews := rfl
@[simp] theorem State.updCtx_frames (s : State) (f : Ctx → Ctx) : (s.updCtx f).frames = s.frames := rfl
@[simp] theorem State.updCtx_windows (s : State) (f : Ctx → Ctx) : (s.updCtx f).windows = s.windows := rfl
@[simp] theorem State.updCtx_kerlo (s : State) (f : Ctx → Ctx) : (s.updCtx f).kerlo = s.kerlo := rfl
@[simp] theorem State.updCtx_inbox (s : State) (f : Ctx → Ctx) : (s.updCtx f).inbox = s.inbox := rfl
@[simp] theorem State.updCtx_swaps (s : State) (f : Ctx → Ctx) : (s.updCtx f).swaps = s.swaps := rfl
@[simp] theorem State.updCtx_savedFrames (s : State) (f : Ctx → Ctx) : (s.updCtx f).savedFrames = s.savedFrames := rfl
@[simp] theorem State.updCtx_podOut (s : State) (f : Ctx → Ctx) : (s.updCtx f).podOut = s.podOut := rfl
@[simp] theorem State.updCtx_fresh (s : State) (f : Ctx → Ctx) : (s.updCtx f).fresh = s.fresh := rfl
@[simp] theorem State.updCtx_me_id (s : State) (f : Ctx → Ctx) : (s.updCtx f).me.id = s.me.id := rfl
@[simp] theorem State.updCtx_me_run (s : State) (f : Ctx → Ctx) : (s.updCtx f).me.run = s.me.run := rfl
@[simp] theorem State.updCtx_me_slots (s : State) (f : Ctx → Ctx) : (s.updCtx f).me.slots = s.me.slots := rfl
@[simp] theorem State.updCtx_me_seqCount (s : State) (f : Ctx → Ctx) : (s.updCtx f).me.seqCount = s.me.seqCount := rfl
@[simp] theorem State.updCtx_me_records (s : State) (f : Ctx → Ctx) : (s.updCtx f).me.records = s.me.records := rfl
@[simp] theorem State.updCtx_me_saveCount (s : State) (f : Ctx → Ctx) : (s.updCtx f).me.saveCount = s.me.saveCount := rfl
@[simp] theorem State.updCtx_me_bound (s : State) (f : Ctx → Ctx) : (s.updCtx f).me.bound = s.me.bound := rfl
@[simp] theorem State.updCtx_me_rsv (s : State) (f : Ctx → Ctx) : (s.updCtx f).me.rsv = s.me.rsv := rfl
@[simp] theorem State.updCtx_me_space (s : State) (f : Ctx → Ctx) : (s.updCtx f).me.space = s.me.space := rfl
@[simp] theorem State.updCtx_me_tvec (s : State) (f : Ctx → Ctx) : (s.updCtx f).me.tvec = s.me.tvec := rfl
@[simp] theorem State.updCtx_me_cyc (s : State) (f : Ctx → Ctx) : (s.updCtx f).me.cyc = s.me.cyc := rfl
@[simp] theorem State.updCtx_me_l1 (s : State) (f : Ctx → Ctx) : (s.updCtx f).me.l1 = s.me.l1 := rfl
@[simp] theorem State.updCtx_me_outq (s : State) (f : Ctx → Ctx) : (s.updCtx f).me.outq = s.me.outq := rfl
@[simp] theorem State.updCtx_me_latches (s : State) (f : Ctx → Ctx) : (s.updCtx f).me.latches = s.me.latches := rfl
@[simp] theorem State.updCtx_me_grant (s : State) (f : Ctx → Ctx) : (s.updCtx f).me.grant = s.me.grant := rfl
@[simp] theorem State.updCtx_me_mshape (s : State) (f : Ctx → Ctx) : (s.updCtx f).me.mshape = s.me.mshape := rfl
@[simp] theorem State.updCtx_me_copies (s : State) (f : Ctx → Ctx) : (s.updCtx f).me.copies = s.me.copies := rfl
@[simp] theorem State.updCtx_me_chases (s : State) (f : Ctx → Ctx) : (s.updCtx f).me.chases = s.me.chases := rfl
@[simp] theorem State.updCtx_me_halted (s : State) (f : Ctx → Ctx) : (s.updCtx f).me.halted = s.me.halted := rfl
@[simp] theorem State.updCtx_me_watches (s : State) (f : Ctx → Ctx) : (s.updCtx f).me.watches = s.me.watches := rfl

/-! ## setPc -/

@[simp] theorem State.setPc_others (s : State) (o : Offset) : (s.setPc o).others = s.others := rfl
@[simp] theorem State.setPc_movements (s : State) (o : Offset) : (s.setPc o).movements = s.movements := rfl
@[simp] theorem State.setPc_mem (s : State) (o : Offset) : (s.setPc o).mem = s.mem := rfl
@[simp] theorem State.setPc_bad (s : State) (o : Offset) : (s.setPc o).bad = s.bad := rfl
@[simp] theorem State.setPc_devNo (s : State) (o : Offset) : (s.setPc o).devNo = s.devNo := rfl
@[simp] theorem State.setPc_routes (s : State) (o : Offset) : (s.setPc o).routes = s.routes := rfl
@[simp] theorem State.setPc_supSpace (s : State) (o : Offset) : (s.setPc o).supSpace = s.supSpace := rfl
@[simp] theorem State.setPc_romBase (s : State) (o : Offset) : (s.setPc o).romBase = s.romBase := rfl
@[simp] theorem State.setPc_stripe (s : State) (o : Offset) : (s.setPc o).stripe = s.stripe := rfl
@[simp] theorem State.setPc_faults (s : State) (o : Offset) : (s.setPc o).faults = s.faults := rfl
@[simp] theorem State.setPc_crews (s : State) (o : Offset) : (s.setPc o).crews = s.crews := rfl
@[simp] theorem State.setPc_frames (s : State) (o : Offset) : (s.setPc o).frames = s.frames := rfl
@[simp] theorem State.setPc_windows (s : State) (o : Offset) : (s.setPc o).windows = s.windows := rfl
@[simp] theorem State.setPc_kerlo (s : State) (o : Offset) : (s.setPc o).kerlo = s.kerlo := rfl
@[simp] theorem State.setPc_inbox (s : State) (o : Offset) : (s.setPc o).inbox = s.inbox := rfl
@[simp] theorem State.setPc_swaps (s : State) (o : Offset) : (s.setPc o).swaps = s.swaps := rfl
@[simp] theorem State.setPc_savedFrames (s : State) (o : Offset) : (s.setPc o).savedFrames = s.savedFrames := rfl
@[simp] theorem State.setPc_podOut (s : State) (o : Offset) : (s.setPc o).podOut = s.podOut := rfl
@[simp] theorem State.setPc_fresh (s : State) (o : Offset) : (s.setPc o).fresh = s.fresh := rfl
@[simp] theorem State.setPc_me_id (s : State) (o : Offset) : (s.setPc o).me.id = s.me.id := rfl
@[simp] theorem State.setPc_me_run (s : State) (o : Offset) : (s.setPc o).me.run = s.me.run := rfl
@[simp] theorem State.setPc_me_slots (s : State) (o : Offset) : (s.setPc o).me.slots = s.me.slots := rfl
@[simp] theorem State.setPc_me_seqCount (s : State) (o : Offset) : (s.setPc o).me.seqCount = s.me.seqCount := rfl
@[simp] theorem State.setPc_me_records (s : State) (o : Offset) : (s.setPc o).me.records = s.me.records := rfl
@[simp] theorem State.setPc_me_saveCount (s : State) (o : Offset) : (s.setPc o).me.saveCount = s.me.saveCount := rfl
@[simp] theorem State.setPc_me_bound (s : State) (o : Offset) : (s.setPc o).me.bound = s.me.bound := rfl
@[simp] theorem State.setPc_me_rsv (s : State) (o : Offset) : (s.setPc o).me.rsv = s.me.rsv := rfl
@[simp] theorem State.setPc_me_space (s : State) (o : Offset) : (s.setPc o).me.space = s.me.space := rfl
@[simp] theorem State.setPc_me_tvec (s : State) (o : Offset) : (s.setPc o).me.tvec = s.me.tvec := rfl
@[simp] theorem State.setPc_me_cyc (s : State) (o : Offset) : (s.setPc o).me.cyc = s.me.cyc := rfl
@[simp] theorem State.setPc_me_l1 (s : State) (o : Offset) : (s.setPc o).me.l1 = s.me.l1 := rfl
@[simp] theorem State.setPc_me_outq (s : State) (o : Offset) : (s.setPc o).me.outq = s.me.outq := rfl
@[simp] theorem State.setPc_me_latches (s : State) (o : Offset) : (s.setPc o).me.latches = s.me.latches := rfl
@[simp] theorem State.setPc_me_grant (s : State) (o : Offset) : (s.setPc o).me.grant = s.me.grant := rfl
@[simp] theorem State.setPc_me_mshape (s : State) (o : Offset) : (s.setPc o).me.mshape = s.me.mshape := rfl
@[simp] theorem State.setPc_me_copies (s : State) (o : Offset) : (s.setPc o).me.copies = s.me.copies := rfl
@[simp] theorem State.setPc_me_chases (s : State) (o : Offset) : (s.setPc o).me.chases = s.me.chases := rfl
@[simp] theorem State.setPc_me_halted (s : State) (o : Offset) : (s.setPc o).me.halted = s.me.halted := rfl
@[simp] theorem State.setPc_me_watches (s : State) (o : Offset) : (s.setPc o).me.watches = s.me.watches := rfl

/-! ## adv -/

@[simp] theorem State.adv_others (s : State) (n : Nat) : (s.adv n).others = s.others := rfl
@[simp] theorem State.adv_movements (s : State) (n : Nat) : (s.adv n).movements = s.movements := rfl
@[simp] theorem State.adv_mem (s : State) (n : Nat) : (s.adv n).mem = s.mem := rfl
@[simp] theorem State.adv_bad (s : State) (n : Nat) : (s.adv n).bad = s.bad := rfl
@[simp] theorem State.adv_devNo (s : State) (n : Nat) : (s.adv n).devNo = s.devNo := rfl
@[simp] theorem State.adv_routes (s : State) (n : Nat) : (s.adv n).routes = s.routes := rfl
@[simp] theorem State.adv_supSpace (s : State) (n : Nat) : (s.adv n).supSpace = s.supSpace := rfl
@[simp] theorem State.adv_romBase (s : State) (n : Nat) : (s.adv n).romBase = s.romBase := rfl
@[simp] theorem State.adv_stripe (s : State) (n : Nat) : (s.adv n).stripe = s.stripe := rfl
@[simp] theorem State.adv_faults (s : State) (n : Nat) : (s.adv n).faults = s.faults := rfl
@[simp] theorem State.adv_crews (s : State) (n : Nat) : (s.adv n).crews = s.crews := rfl
@[simp] theorem State.adv_frames (s : State) (n : Nat) : (s.adv n).frames = s.frames := rfl
@[simp] theorem State.adv_windows (s : State) (n : Nat) : (s.adv n).windows = s.windows := rfl
@[simp] theorem State.adv_kerlo (s : State) (n : Nat) : (s.adv n).kerlo = s.kerlo := rfl
@[simp] theorem State.adv_inbox (s : State) (n : Nat) : (s.adv n).inbox = s.inbox := rfl
@[simp] theorem State.adv_swaps (s : State) (n : Nat) : (s.adv n).swaps = s.swaps := rfl
@[simp] theorem State.adv_savedFrames (s : State) (n : Nat) : (s.adv n).savedFrames = s.savedFrames := rfl
@[simp] theorem State.adv_podOut (s : State) (n : Nat) : (s.adv n).podOut = s.podOut := rfl
@[simp] theorem State.adv_fresh (s : State) (n : Nat) : (s.adv n).fresh = s.fresh := rfl
@[simp] theorem State.adv_me_id (s : State) (n : Nat) : (s.adv n).me.id = s.me.id := rfl
@[simp] theorem State.adv_me_run (s : State) (n : Nat) : (s.adv n).me.run = s.me.run := rfl
@[simp] theorem State.adv_me_slots (s : State) (n : Nat) : (s.adv n).me.slots = s.me.slots := rfl
@[simp] theorem State.adv_me_seqCount (s : State) (n : Nat) : (s.adv n).me.seqCount = s.me.seqCount := rfl
@[simp] theorem State.adv_me_records (s : State) (n : Nat) : (s.adv n).me.records = s.me.records := rfl
@[simp] theorem State.adv_me_saveCount (s : State) (n : Nat) : (s.adv n).me.saveCount = s.me.saveCount := rfl
@[simp] theorem State.adv_me_bound (s : State) (n : Nat) : (s.adv n).me.bound = s.me.bound := rfl
@[simp] theorem State.adv_me_rsv (s : State) (n : Nat) : (s.adv n).me.rsv = s.me.rsv := rfl
@[simp] theorem State.adv_me_space (s : State) (n : Nat) : (s.adv n).me.space = s.me.space := rfl
@[simp] theorem State.adv_me_tvec (s : State) (n : Nat) : (s.adv n).me.tvec = s.me.tvec := rfl
@[simp] theorem State.adv_me_cyc (s : State) (n : Nat) : (s.adv n).me.cyc = s.me.cyc := rfl
@[simp] theorem State.adv_me_l1 (s : State) (n : Nat) : (s.adv n).me.l1 = s.me.l1 := rfl
@[simp] theorem State.adv_me_outq (s : State) (n : Nat) : (s.adv n).me.outq = s.me.outq := rfl
@[simp] theorem State.adv_me_latches (s : State) (n : Nat) : (s.adv n).me.latches = s.me.latches := rfl
@[simp] theorem State.adv_me_grant (s : State) (n : Nat) : (s.adv n).me.grant = s.me.grant := rfl
@[simp] theorem State.adv_me_mshape (s : State) (n : Nat) : (s.adv n).me.mshape = s.me.mshape := rfl
@[simp] theorem State.adv_me_copies (s : State) (n : Nat) : (s.adv n).me.copies = s.me.copies := rfl
@[simp] theorem State.adv_me_chases (s : State) (n : Nat) : (s.adv n).me.chases = s.me.chases := rfl
@[simp] theorem State.adv_me_halted (s : State) (n : Nat) : (s.adv n).me.halted = s.me.halted := rfl
@[simp] theorem State.adv_me_watches (s : State) (n : Nat) : (s.adv n).me.watches = s.me.watches := rfl

/-! ## putX -/

@[simp] theorem State.putX_others (s : State) (d : BitVec 5) (v : Word) : (s.putX d v).others = s.others := rfl
@[simp] theorem State.putX_movements (s : State) (d : BitVec 5) (v : Word) : (s.putX d v).movements = s.movements := rfl
@[simp] theorem State.putX_mem (s : State) (d : BitVec 5) (v : Word) : (s.putX d v).mem = s.mem := rfl
@[simp] theorem State.putX_bad (s : State) (d : BitVec 5) (v : Word) : (s.putX d v).bad = s.bad := rfl
@[simp] theorem State.putX_devNo (s : State) (d : BitVec 5) (v : Word) : (s.putX d v).devNo = s.devNo := rfl
@[simp] theorem State.putX_routes (s : State) (d : BitVec 5) (v : Word) : (s.putX d v).routes = s.routes := rfl
@[simp] theorem State.putX_supSpace (s : State) (d : BitVec 5) (v : Word) : (s.putX d v).supSpace = s.supSpace := rfl
@[simp] theorem State.putX_romBase (s : State) (d : BitVec 5) (v : Word) : (s.putX d v).romBase = s.romBase := rfl
@[simp] theorem State.putX_stripe (s : State) (d : BitVec 5) (v : Word) : (s.putX d v).stripe = s.stripe := rfl
@[simp] theorem State.putX_faults (s : State) (d : BitVec 5) (v : Word) : (s.putX d v).faults = s.faults := rfl
@[simp] theorem State.putX_crews (s : State) (d : BitVec 5) (v : Word) : (s.putX d v).crews = s.crews := rfl
@[simp] theorem State.putX_frames (s : State) (d : BitVec 5) (v : Word) : (s.putX d v).frames = s.frames := rfl
@[simp] theorem State.putX_windows (s : State) (d : BitVec 5) (v : Word) : (s.putX d v).windows = s.windows := rfl
@[simp] theorem State.putX_kerlo (s : State) (d : BitVec 5) (v : Word) : (s.putX d v).kerlo = s.kerlo := rfl
@[simp] theorem State.putX_inbox (s : State) (d : BitVec 5) (v : Word) : (s.putX d v).inbox = s.inbox := rfl
@[simp] theorem State.putX_swaps (s : State) (d : BitVec 5) (v : Word) : (s.putX d v).swaps = s.swaps := rfl
@[simp] theorem State.putX_savedFrames (s : State) (d : BitVec 5) (v : Word) : (s.putX d v).savedFrames = s.savedFrames := rfl
@[simp] theorem State.putX_podOut (s : State) (d : BitVec 5) (v : Word) : (s.putX d v).podOut = s.podOut := rfl
@[simp] theorem State.putX_fresh (s : State) (d : BitVec 5) (v : Word) : (s.putX d v).fresh = s.fresh := rfl
@[simp] theorem State.putX_me_id (s : State) (d : BitVec 5) (v : Word) : (s.putX d v).me.id = s.me.id := rfl
@[simp] theorem State.putX_me_run (s : State) (d : BitVec 5) (v : Word) : (s.putX d v).me.run = s.me.run := rfl
@[simp] theorem State.putX_me_slots (s : State) (d : BitVec 5) (v : Word) : (s.putX d v).me.slots = s.me.slots := rfl
@[simp] theorem State.putX_me_seqCount (s : State) (d : BitVec 5) (v : Word) : (s.putX d v).me.seqCount = s.me.seqCount := rfl
@[simp] theorem State.putX_me_records (s : State) (d : BitVec 5) (v : Word) : (s.putX d v).me.records = s.me.records := rfl
@[simp] theorem State.putX_me_saveCount (s : State) (d : BitVec 5) (v : Word) : (s.putX d v).me.saveCount = s.me.saveCount := rfl
@[simp] theorem State.putX_me_bound (s : State) (d : BitVec 5) (v : Word) : (s.putX d v).me.bound = s.me.bound := rfl
@[simp] theorem State.putX_me_rsv (s : State) (d : BitVec 5) (v : Word) : (s.putX d v).me.rsv = s.me.rsv := rfl
@[simp] theorem State.putX_me_space (s : State) (d : BitVec 5) (v : Word) : (s.putX d v).me.space = s.me.space := rfl
@[simp] theorem State.putX_me_tvec (s : State) (d : BitVec 5) (v : Word) : (s.putX d v).me.tvec = s.me.tvec := rfl
@[simp] theorem State.putX_me_cyc (s : State) (d : BitVec 5) (v : Word) : (s.putX d v).me.cyc = s.me.cyc := rfl
@[simp] theorem State.putX_me_l1 (s : State) (d : BitVec 5) (v : Word) : (s.putX d v).me.l1 = s.me.l1 := rfl
@[simp] theorem State.putX_me_outq (s : State) (d : BitVec 5) (v : Word) : (s.putX d v).me.outq = s.me.outq := rfl
@[simp] theorem State.putX_me_latches (s : State) (d : BitVec 5) (v : Word) : (s.putX d v).me.latches = s.me.latches := rfl
@[simp] theorem State.putX_me_grant (s : State) (d : BitVec 5) (v : Word) : (s.putX d v).me.grant = s.me.grant := rfl
@[simp] theorem State.putX_me_mshape (s : State) (d : BitVec 5) (v : Word) : (s.putX d v).me.mshape = s.me.mshape := rfl
@[simp] theorem State.putX_me_copies (s : State) (d : BitVec 5) (v : Word) : (s.putX d v).me.copies = s.me.copies := rfl
@[simp] theorem State.putX_me_chases (s : State) (d : BitVec 5) (v : Word) : (s.putX d v).me.chases = s.me.chases := rfl
@[simp] theorem State.putX_me_halted (s : State) (d : BitVec 5) (v : Word) : (s.putX d v).me.halted = s.me.halted := rfl
@[simp] theorem State.putX_me_watches (s : State) (d : BitVec 5) (v : Word) : (s.putX d v).me.watches = s.me.watches := rfl

/-! ## nameV -/

@[simp] theorem State.nameV_others (s : State) (d : BitVec 5) : (s.nameV d).others = s.others := rfl
@[simp] theorem State.nameV_movements (s : State) (d : BitVec 5) : (s.nameV d).movements = s.movements := rfl
@[simp] theorem State.nameV_mem (s : State) (d : BitVec 5) : (s.nameV d).mem = s.mem := rfl
@[simp] theorem State.nameV_bad (s : State) (d : BitVec 5) : (s.nameV d).bad = s.bad := rfl
@[simp] theorem State.nameV_devNo (s : State) (d : BitVec 5) : (s.nameV d).devNo = s.devNo := rfl
@[simp] theorem State.nameV_routes (s : State) (d : BitVec 5) : (s.nameV d).routes = s.routes := rfl
@[simp] theorem State.nameV_supSpace (s : State) (d : BitVec 5) : (s.nameV d).supSpace = s.supSpace := rfl
@[simp] theorem State.nameV_romBase (s : State) (d : BitVec 5) : (s.nameV d).romBase = s.romBase := rfl
@[simp] theorem State.nameV_stripe (s : State) (d : BitVec 5) : (s.nameV d).stripe = s.stripe := rfl
@[simp] theorem State.nameV_faults (s : State) (d : BitVec 5) : (s.nameV d).faults = s.faults := rfl
@[simp] theorem State.nameV_crews (s : State) (d : BitVec 5) : (s.nameV d).crews = s.crews := rfl
@[simp] theorem State.nameV_frames (s : State) (d : BitVec 5) : (s.nameV d).frames = s.frames := rfl
@[simp] theorem State.nameV_windows (s : State) (d : BitVec 5) : (s.nameV d).windows = s.windows := rfl
@[simp] theorem State.nameV_kerlo (s : State) (d : BitVec 5) : (s.nameV d).kerlo = s.kerlo := rfl
@[simp] theorem State.nameV_inbox (s : State) (d : BitVec 5) : (s.nameV d).inbox = s.inbox := rfl
@[simp] theorem State.nameV_swaps (s : State) (d : BitVec 5) : (s.nameV d).swaps = s.swaps := rfl
@[simp] theorem State.nameV_savedFrames (s : State) (d : BitVec 5) : (s.nameV d).savedFrames = s.savedFrames := rfl
@[simp] theorem State.nameV_podOut (s : State) (d : BitVec 5) : (s.nameV d).podOut = s.podOut := rfl
@[simp] theorem State.nameV_fresh (s : State) (d : BitVec 5) : (s.nameV d).fresh = s.fresh := rfl
@[simp] theorem State.nameV_me_id (s : State) (d : BitVec 5) : (s.nameV d).me.id = s.me.id := rfl
@[simp] theorem State.nameV_me_run (s : State) (d : BitVec 5) : (s.nameV d).me.run = s.me.run := rfl
@[simp] theorem State.nameV_me_slots (s : State) (d : BitVec 5) : (s.nameV d).me.slots = s.me.slots := rfl
@[simp] theorem State.nameV_me_seqCount (s : State) (d : BitVec 5) : (s.nameV d).me.seqCount = s.me.seqCount := rfl
@[simp] theorem State.nameV_me_records (s : State) (d : BitVec 5) : (s.nameV d).me.records = s.me.records := rfl
@[simp] theorem State.nameV_me_saveCount (s : State) (d : BitVec 5) : (s.nameV d).me.saveCount = s.me.saveCount := rfl
@[simp] theorem State.nameV_me_bound (s : State) (d : BitVec 5) : (s.nameV d).me.bound = s.me.bound := rfl
@[simp] theorem State.nameV_me_rsv (s : State) (d : BitVec 5) : (s.nameV d).me.rsv = s.me.rsv := rfl
@[simp] theorem State.nameV_me_space (s : State) (d : BitVec 5) : (s.nameV d).me.space = s.me.space := rfl
@[simp] theorem State.nameV_me_tvec (s : State) (d : BitVec 5) : (s.nameV d).me.tvec = s.me.tvec := rfl
@[simp] theorem State.nameV_me_cyc (s : State) (d : BitVec 5) : (s.nameV d).me.cyc = s.me.cyc := rfl
@[simp] theorem State.nameV_me_l1 (s : State) (d : BitVec 5) : (s.nameV d).me.l1 = s.me.l1 := rfl
@[simp] theorem State.nameV_me_outq (s : State) (d : BitVec 5) : (s.nameV d).me.outq = s.me.outq := rfl
@[simp] theorem State.nameV_me_latches (s : State) (d : BitVec 5) : (s.nameV d).me.latches = s.me.latches := rfl
@[simp] theorem State.nameV_me_grant (s : State) (d : BitVec 5) : (s.nameV d).me.grant = s.me.grant := rfl
@[simp] theorem State.nameV_me_mshape (s : State) (d : BitVec 5) : (s.nameV d).me.mshape = s.me.mshape := rfl
@[simp] theorem State.nameV_me_copies (s : State) (d : BitVec 5) : (s.nameV d).me.copies = s.me.copies := rfl
@[simp] theorem State.nameV_me_chases (s : State) (d : BitVec 5) : (s.nameV d).me.chases = s.me.chases := rfl
@[simp] theorem State.nameV_me_halted (s : State) (d : BitVec 5) : (s.nameV d).me.halted = s.me.halted := rfl
@[simp] theorem State.nameV_me_watches (s : State) (d : BitVec 5) : (s.nameV d).me.watches = s.me.watches := rfl

/-! ## write -/

@[simp] theorem State.write_others (s : State) (d : BitVec 5) (v : Word) : (s.write d v).others = s.others := rfl
@[simp] theorem State.write_movements (s : State) (d : BitVec 5) (v : Word) : (s.write d v).movements = s.movements := rfl
@[simp] theorem State.write_mem (s : State) (d : BitVec 5) (v : Word) : (s.write d v).mem = s.mem := rfl
@[simp] theorem State.write_bad (s : State) (d : BitVec 5) (v : Word) : (s.write d v).bad = s.bad := rfl
@[simp] theorem State.write_devNo (s : State) (d : BitVec 5) (v : Word) : (s.write d v).devNo = s.devNo := rfl
@[simp] theorem State.write_routes (s : State) (d : BitVec 5) (v : Word) : (s.write d v).routes = s.routes := rfl
@[simp] theorem State.write_supSpace (s : State) (d : BitVec 5) (v : Word) : (s.write d v).supSpace = s.supSpace := rfl
@[simp] theorem State.write_romBase (s : State) (d : BitVec 5) (v : Word) : (s.write d v).romBase = s.romBase := rfl
@[simp] theorem State.write_stripe (s : State) (d : BitVec 5) (v : Word) : (s.write d v).stripe = s.stripe := rfl
@[simp] theorem State.write_faults (s : State) (d : BitVec 5) (v : Word) : (s.write d v).faults = s.faults := rfl
@[simp] theorem State.write_crews (s : State) (d : BitVec 5) (v : Word) : (s.write d v).crews = s.crews := rfl
@[simp] theorem State.write_frames (s : State) (d : BitVec 5) (v : Word) : (s.write d v).frames = s.frames := rfl
@[simp] theorem State.write_windows (s : State) (d : BitVec 5) (v : Word) : (s.write d v).windows = s.windows := rfl
@[simp] theorem State.write_kerlo (s : State) (d : BitVec 5) (v : Word) : (s.write d v).kerlo = s.kerlo := rfl
@[simp] theorem State.write_inbox (s : State) (d : BitVec 5) (v : Word) : (s.write d v).inbox = s.inbox := rfl
@[simp] theorem State.write_swaps (s : State) (d : BitVec 5) (v : Word) : (s.write d v).swaps = s.swaps := rfl
@[simp] theorem State.write_savedFrames (s : State) (d : BitVec 5) (v : Word) : (s.write d v).savedFrames = s.savedFrames := rfl
@[simp] theorem State.write_podOut (s : State) (d : BitVec 5) (v : Word) : (s.write d v).podOut = s.podOut := rfl
@[simp] theorem State.write_fresh (s : State) (d : BitVec 5) (v : Word) : (s.write d v).fresh = s.fresh := rfl
@[simp] theorem State.write_me_id (s : State) (d : BitVec 5) (v : Word) : (s.write d v).me.id = s.me.id := rfl
@[simp] theorem State.write_me_run (s : State) (d : BitVec 5) (v : Word) : (s.write d v).me.run = s.me.run := rfl
@[simp] theorem State.write_me_slots (s : State) (d : BitVec 5) (v : Word) : (s.write d v).me.slots = s.me.slots := rfl
@[simp] theorem State.write_me_seqCount (s : State) (d : BitVec 5) (v : Word) : (s.write d v).me.seqCount = s.me.seqCount := rfl
@[simp] theorem State.write_me_records (s : State) (d : BitVec 5) (v : Word) : (s.write d v).me.records = s.me.records := rfl
@[simp] theorem State.write_me_saveCount (s : State) (d : BitVec 5) (v : Word) : (s.write d v).me.saveCount = s.me.saveCount := rfl
@[simp] theorem State.write_me_bound (s : State) (d : BitVec 5) (v : Word) : (s.write d v).me.bound = s.me.bound := rfl
@[simp] theorem State.write_me_rsv (s : State) (d : BitVec 5) (v : Word) : (s.write d v).me.rsv = s.me.rsv := rfl
@[simp] theorem State.write_me_space (s : State) (d : BitVec 5) (v : Word) : (s.write d v).me.space = s.me.space := rfl
@[simp] theorem State.write_me_tvec (s : State) (d : BitVec 5) (v : Word) : (s.write d v).me.tvec = s.me.tvec := rfl
@[simp] theorem State.write_me_cyc (s : State) (d : BitVec 5) (v : Word) : (s.write d v).me.cyc = s.me.cyc := rfl
@[simp] theorem State.write_me_l1 (s : State) (d : BitVec 5) (v : Word) : (s.write d v).me.l1 = s.me.l1 := rfl
@[simp] theorem State.write_me_outq (s : State) (d : BitVec 5) (v : Word) : (s.write d v).me.outq = s.me.outq := rfl
@[simp] theorem State.write_me_latches (s : State) (d : BitVec 5) (v : Word) : (s.write d v).me.latches = s.me.latches := rfl
@[simp] theorem State.write_me_grant (s : State) (d : BitVec 5) (v : Word) : (s.write d v).me.grant = s.me.grant := rfl
@[simp] theorem State.write_me_mshape (s : State) (d : BitVec 5) (v : Word) : (s.write d v).me.mshape = s.me.mshape := rfl
@[simp] theorem State.write_me_copies (s : State) (d : BitVec 5) (v : Word) : (s.write d v).me.copies = s.me.copies := rfl
@[simp] theorem State.write_me_chases (s : State) (d : BitVec 5) (v : Word) : (s.write d v).me.chases = s.me.chases := rfl
@[simp] theorem State.write_me_halted (s : State) (d : BitVec 5) (v : Word) : (s.write d v).me.halted = s.me.halted := rfl
@[simp] theorem State.write_me_watches (s : State) (d : BitVec 5) (v : Word) : (s.write d v).me.watches = s.me.watches := rfl

/-! ## bump -/

@[simp] theorem State.bump_others (s : State) (n : Nat) : (s.bump n).others = s.others := rfl
@[simp] theorem State.bump_movements (s : State) (n : Nat) : (s.bump n).movements = s.movements := rfl
@[simp] theorem State.bump_mem (s : State) (n : Nat) : (s.bump n).mem = s.mem := rfl
@[simp] theorem State.bump_bad (s : State) (n : Nat) : (s.bump n).bad = s.bad := rfl
@[simp] theorem State.bump_devNo (s : State) (n : Nat) : (s.bump n).devNo = s.devNo := rfl
@[simp] theorem State.bump_routes (s : State) (n : Nat) : (s.bump n).routes = s.routes := rfl
@[simp] theorem State.bump_supSpace (s : State) (n : Nat) : (s.bump n).supSpace = s.supSpace := rfl
@[simp] theorem State.bump_romBase (s : State) (n : Nat) : (s.bump n).romBase = s.romBase := rfl
@[simp] theorem State.bump_stripe (s : State) (n : Nat) : (s.bump n).stripe = s.stripe := rfl
@[simp] theorem State.bump_faults (s : State) (n : Nat) : (s.bump n).faults = s.faults := rfl
@[simp] theorem State.bump_crews (s : State) (n : Nat) : (s.bump n).crews = s.crews := rfl
@[simp] theorem State.bump_frames (s : State) (n : Nat) : (s.bump n).frames = s.frames := rfl
@[simp] theorem State.bump_windows (s : State) (n : Nat) : (s.bump n).windows = s.windows := rfl
@[simp] theorem State.bump_kerlo (s : State) (n : Nat) : (s.bump n).kerlo = s.kerlo := rfl
@[simp] theorem State.bump_inbox (s : State) (n : Nat) : (s.bump n).inbox = s.inbox := rfl
@[simp] theorem State.bump_swaps (s : State) (n : Nat) : (s.bump n).swaps = s.swaps := rfl
@[simp] theorem State.bump_savedFrames (s : State) (n : Nat) : (s.bump n).savedFrames = s.savedFrames := rfl
@[simp] theorem State.bump_podOut (s : State) (n : Nat) : (s.bump n).podOut = s.podOut := rfl
@[simp] theorem State.bump_fresh (s : State) (n : Nat) : (s.bump n).fresh = s.fresh + n := rfl
@[simp] theorem State.bump_me_id (s : State) (n : Nat) : (s.bump n).me.id = s.me.id := rfl
@[simp] theorem State.bump_me_run (s : State) (n : Nat) : (s.bump n).me.run = s.me.run := rfl
@[simp] theorem State.bump_me_slots (s : State) (n : Nat) : (s.bump n).me.slots = s.me.slots := rfl
@[simp] theorem State.bump_me_seqCount (s : State) (n : Nat) : (s.bump n).me.seqCount = s.me.seqCount := rfl
@[simp] theorem State.bump_me_records (s : State) (n : Nat) : (s.bump n).me.records = s.me.records := rfl
@[simp] theorem State.bump_me_saveCount (s : State) (n : Nat) : (s.bump n).me.saveCount = s.me.saveCount := rfl
@[simp] theorem State.bump_me_bound (s : State) (n : Nat) : (s.bump n).me.bound = s.me.bound := rfl
@[simp] theorem State.bump_me_rsv (s : State) (n : Nat) : (s.bump n).me.rsv = s.me.rsv := rfl
@[simp] theorem State.bump_me_space (s : State) (n : Nat) : (s.bump n).me.space = s.me.space := rfl
@[simp] theorem State.bump_me_tvec (s : State) (n : Nat) : (s.bump n).me.tvec = s.me.tvec := rfl
@[simp] theorem State.bump_me_cyc (s : State) (n : Nat) : (s.bump n).me.cyc = s.me.cyc := rfl
@[simp] theorem State.bump_me_l1 (s : State) (n : Nat) : (s.bump n).me.l1 = s.me.l1 := rfl
@[simp] theorem State.bump_me_outq (s : State) (n : Nat) : (s.bump n).me.outq = s.me.outq := rfl
@[simp] theorem State.bump_me_latches (s : State) (n : Nat) : (s.bump n).me.latches = s.me.latches := rfl
@[simp] theorem State.bump_me_grant (s : State) (n : Nat) : (s.bump n).me.grant = s.me.grant := rfl
@[simp] theorem State.bump_me_mshape (s : State) (n : Nat) : (s.bump n).me.mshape = s.me.mshape := rfl
@[simp] theorem State.bump_me_copies (s : State) (n : Nat) : (s.bump n).me.copies = s.me.copies := rfl
@[simp] theorem State.bump_me_chases (s : State) (n : Nat) : (s.bump n).me.chases = s.me.chases := rfl
@[simp] theorem State.bump_me_halted (s : State) (n : Nat) : (s.bump n).me.halted = s.me.halted := rfl
@[simp] theorem State.bump_me_watches (s : State) (n : Nat) : (s.bump n).me.watches = s.me.watches := rfl

/-! ## The running coroutine's registers -/

@[simp] theorem State.updCtx_ctx (s : State) (f : Ctx → Ctx) : (s.updCtx f).me.ctx = f s.me.ctx := rfl
@[simp] theorem State.bump_me (s : State) (n : Nat) : (s.bump n).me = s.me := rfl
@[simp] theorem State.setPc_pc (s : State) (o : Offset) : (s.setPc o).pc = o := rfl
@[simp] theorem State.adv_pc (s : State) (n : Nat) : (s.adv n).pc = s.pc + BitVec.ofNat 19 n := rfl
@[simp] theorem State.setPc_x (s : State) (o : Offset) (r : BitVec 5) : (s.setPc o).x r = s.x r := rfl
@[simp] theorem State.adv_x (s : State) (n : Nat) (r : BitVec 5) : (s.adv n).x r = s.x r := rfl
@[simp] theorem State.nameV_x (s : State) (d r : BitVec 5) : (s.nameV d).x r = s.x r := rfl
@[simp] theorem State.nameV_ldst (s : State) (d : BitVec 5) : (s.nameV d).me.ctx.ldst = 1#1 ++ d := rfl
@[simp] theorem State.putX_ldst (s : State) (d : BitVec 5) (v : Word) : (s.putX d v).me.ctx.ldst = 0#1 ++ d := rfl
@[simp] theorem State.write_ldst (s : State) (d : BitVec 5) (v : Word) : (s.write d v).me.ctx.ldst = 0#1 ++ d := rfl

/-- x0 reads as zero. -/
@[simp] theorem Ctx.getX_zero (c : Ctx) : c.getX 0#5 = 0#64 := rfl

/-- A write to x0 is discarded. -/
@[simp] theorem Ctx.setX_zero (c : Ctx) (v : Word) : c.setX 0#5 v = c := rfl

/-- A general register after one is written (04_scalar.md R95). -/
theorem Ctx.getX_setX (c : Ctx) (d r : BitVec 5) (v : Word) :
    (c.setX d v).getX r = if r = d ∧ r ≠ 0#5 then v else c.getX r := by
  unfold Ctx.setX Ctx.getX
  by_cases hr : r = 0#5
  · simp [hr]
  · by_cases hd : d = 0#5
    · have : ¬(r = d) := fun h => hr (h.trans hd)
      simp [hr, hd]
    · by_cases h : r = d
      · subst h; simp [hr]
      · have : d.toNat ≠ r.toNat := fun e => h (BitVec.eq_of_toNat_eq e.symm)
        simp [hr, hd, h, this]

/-- The same for the running coroutine. -/
@[simp] theorem State.putX_x (s : State) (d r : BitVec 5) (v : Word) :
    (s.putX d v).x r = if r = d ∧ r ≠ 0#5 then v else s.x r := Ctx.getX_setX s.me.ctx d r v

@[simp] theorem State.write_x (s : State) (d r : BitVec 5) (v : Word) :
    (s.write d v).x r = if r = d ∧ r ≠ 0#5 then v else s.x r := Ctx.getX_setX s.me.ctx d r v

@[simp] theorem State.putX_pc (s : State) (d : BitVec 5) (v : Word) : (s.putX d v).pc = s.pc := by
  unfold State.putX State.pc State.updCtx Ctx.setX
  split <;> rfl

@[simp] theorem State.write_pc (s : State) (d : BitVec 5) (v : Word) : (s.write d v).pc = s.pc + 4#19 := by
  unfold State.write
  rw [State.adv_pc, State.putX_pc]

/-- A write of x[d] changes x, ldst and the program counter alone. -/
theorem State.write_ctx (s : State) (d : BitVec 5) (v : Word) :
    (s.write d v).me.ctx =
      { s.me.ctx with x := (s.write d v).me.ctx.x, pc := (s.write d v).me.ctx.pc, ldst := (s.write d v).me.ctx.ldst } := by
  unfold State.write State.putX State.adv State.setPc State.updCtx State.pc Ctx.setX
  split <;> rfl

/-! ## Cores, movements and slots -/

@[simp] theorem State.coreAt_me (s : State) : s.coreAt s.me.id = s.me := if_pos rfl
@[simp] theorem State.setCore_mem (s : State) (k : Core) : (s.setCore k).mem = s.mem := by unfold State.setCore; split <;> rfl
@[simp] theorem State.setCore_movements (s : State) (k : Core) : (s.setCore k).movements = s.movements := by
  unfold State.setCore; split <;> rfl
@[simp] theorem State.setCore_fresh (s : State) (k : Core) : (s.setCore k).fresh = s.fresh := by unfold State.setCore; split <;> rfl
@[simp] theorem State.updCore_mem (s : State) (c : BitVec 10) (f : Core → Core) : (s.updCore c f).mem = s.mem := State.setCore_mem _ _
@[simp] theorem State.updCore_movements (s : State) (c : BitVec 10) (f : Core → Core) : (s.updCore c f).movements = s.movements :=
  State.setCore_movements _ _
@[simp] theorem State.setMov_mem (s : State) (m : Movement) : (s.setMov m).mem = s.mem := rfl
@[simp] theorem State.setMov_me (s : State) (m : Movement) : (s.setMov m).me = s.me := rfl
@[simp] theorem State.setMov_others (s : State) (m : Movement) : (s.setMov m).others = s.others := rfl

/-- A core read back after it is replaced, and every other core as before. -/
theorem State.coreAt_setCore (s : State) (k : Core) (c : BitVec 10) :
    (s.setCore k).coreAt c = if c = k.id then k else s.coreAt c := by
  unfold State.setCore State.coreAt
  by_cases hk : k.id = s.me.id
  · by_cases hc : c = s.me.id <;> simp [hk, hc]
  · by_cases hc : c = k.id
    · subst hc; simp [hk]
    · simp only [hk, hc, if_false]
      rw [List.find?_cons_of_neg (by simpa using Ne.symm hc), List.find?_filter]
      congr 4
      funext a
      by_cases h : a.id = c
      · simp [h, hc]
      · simp [h]

/-- A movement read back after it is replaced, and every other movement as before. -/
theorem State.movAt_setMov (s : State) (k : Movement) (m : BitVec 8) :
    (s.setMov k).movAt m = if m = k.id then k else s.movAt m := by
  unfold State.setMov State.movAt
  by_cases hm : m = k.id
  · subst hm; simp
  · simp only [hm, if_false]
    rw [List.find?_cons_of_neg (by simpa using Ne.symm hm), List.find?_filter]
    congr 2
    funext a
    by_cases h : a.id = m
    · simp [h, hm]
    · simp [h]

end Sys2Proof.Machine
end

