-- ==== Sys2Proof/Laws/Ops.lean ====
section
/-!
SUPPORT. What each shared operation can do, said once: a register written, a trap, a record closed, and a scalar access.
-/

namespace Sys2Proof.Machine

/-! ## Writing a register -/

/-- A scalar result written and the instruction passed (04_scalar.md R95). -/
theorem State.write_writes (s : State) (d : BitVec 5) (v : Word) : Writes s (s.write d v) d v 4 :=
  ⟨⟨rfl, s.write_ctx d v⟩, fun r => s.write_x d r v, s.write_pc d v, rfl⟩

/-- The division's status bit, and nothing else (04_scalar.md R109). -/
theorem State.noteDivisor_eq (s : State) (b : Word) :
    s.noteDivisor b = s.updCtx fun c => { c with status := if b = 0#64 then c.status ||| 1#64 else c.status } := by
  unfold State.noteDivisor
  split <;> rfl

/-! ## Leaving the core and trapping (07_coroutines.md R196, R206) -/

@[simp] theorem Core.updSlot_run (k : Core) (n : BitVec 8) (f : Slot → Slot) : (k.updSlot n f).run = k.run := rfl
@[simp] theorem Core.updSlot_records (k : Core) (n : BitVec 8) (f : Slot → Slot) : (k.updSlot n f).records = k.records := rfl
@[simp] theorem Core.updSlot_l1 (k : Core) (n : BitVec 8) (f : Slot → Slot) : (k.updSlot n f).l1 = k.l1 := rfl

/-- A slot read back after one is changed by `f`, which keeps slot numbers. -/
theorem Core.slot?_updSlot (k : Core) (n m : BitVec 8) (f : Slot → Slot) (hf : ∀ t, (f t).num = t.num) :
    (k.updSlot n f).slot? m = (k.slot? m).map fun t => if m = n then f t else t := by
  unfold Core.updSlot Core.slot?
  simp only
  induction k.slots with
  | nil => rfl
  | cons t r ih =>
    rw [List.map_cons, List.find?_cons, List.find?_cons]
    by_cases h : t.num = m
    · by_cases hn : t.num = n
      · have : m = n := h.symm.trans hn
        simp [hf, h, this]
      · have : ¬(m = n) := fun e => hn (h.trans e)
        simp [h, this]
    · by_cases hn : t.num = n
      · simp [hn, hf, show ¬(n = m) from fun e => h (hn.trans e), ih]
      · simp [hn, h, ih]

theorem Core.leave_run (k : Core) (c : Ctx) (kind : FrameKind) (w : Word) (f : Slot → Slot) : (k.leave c kind w f).run = none := by
  unfold Core.leave
  split <;> simp_all

@[simp] theorem State.logError_mem (s : State) (a b : Nat) : (s.logError a b).mem = s.mem := rfl
@[simp] theorem State.logError_me (s : State) (a b : Nat) : (s.logError a b).me = s.me := rfl
@[simp] theorem State.logError_others (s : State) (a b : Nat) : (s.logError a b).others = s.others := rfl
@[simp] theorem State.logError_movements (s : State) (a b : Nat) : (s.logError a b).movements = s.movements := rfl

/-- A trap changes the core that traps alone, beside the error record of a halt. -/
theorem State.trap_me (s : State) (code : BitVec 8) (eaddr : Word) (st : Bool) (epc : Offset) :
    (s.trap code eaddr st epc).me = s.me.trapOut s.fresh code eaddr st epc true := by
  unfold State.trap
  dsimp only
  split <;> rfl

@[simp] theorem State.trap_mem (s : State) (code : BitVec 8) (eaddr : Word) (st : Bool) (epc : Offset) :
    (s.trap code eaddr st epc).mem = s.mem := by
  unfold State.trap
  dsimp only
  split <;> rfl

@[simp] theorem State.trap_others (s : State) (code : BitVec 8) (eaddr : Word) (st : Bool) (epc : Offset) :
    (s.trap code eaddr st epc).others = s.others := by
  unfold State.trap
  dsimp only
  split <;> rfl

@[simp] theorem State.trap_movements (s : State) (code : BitVec 8) (eaddr : Word) (st : Bool) (epc : Offset) :
    (s.trap code eaddr st epc).movements = s.movements := by
  unfold State.trap
  dsimp only
  split <;> rfl

/-- After a trap no coroutine runs on the core. -/
theorem State.trap_run (s : State) (code : BitVec 8) (eaddr : Word) (st : Bool) (epc : Offset) :
    (s.trap code eaddr st epc).me.run = none := by
  rw [State.trap_me]
  unfold Core.trapOut
  split
  · assumption
  · exact Core.leave_run _ _ _ _ _

/-! ## Settling and closing records -/

theorem State.settle_mem (s : State) (c : BitVec 10) : (s.settle c).mem = s.mem := State.setCore_mem _ _

theorem State.closeRecord_mem (s : State) (r : Record) : (s.closeRecord r).mem = s.mem := by
  unfold State.closeRecord
  split
  · rfl
  · exact (State.settle_mem _ _).trans (State.updCore_mem _ _ _)

/-- The return from an exception stores nothing. -/
theorem State.trapReturn_mem (s : State) (r : Record) : (s.trapReturn r).mem = s.mem := State.closeRecord_mem _ _

theorem State.suspend_mem (s : State) (h p : Word) : (s.suspend h p).mem = s.mem := State.settle_mem _ _

/-! ## The scalar L1 keeps memory canonical -/

/-- An access at the L2 home slice keeps memory canonical. -/
theorem State.touchL2_canonical (s : State) (pa : Nat) (h : s.Canonical) : (s.touchL2 pa).Canonical := by
  unfold State.Canonical
  rw [touchL2_mem]
  exact h

theorem State.byPolicy_canonical (s : State) (pa : Nat) (policy : BitVec 2) (h : s.Canonical) : (s.byPolicy pa policy).Canonical := by
  unfold State.Canonical
  rw [byPolicy_mem]
  exact h

theorem State.writeBack_canonical (s : State) (l : L1Line) (h : s.Canonical) : (s.writeBack l).Canonical := by
  have stores : ∀ (is : List Nat) (m : BitVec 64) (a : State), a.Canonical → (is.foldl (fun acc i =>
      if m.getLsbD i then acc.physWrite (64 * l.line + i) 1 ((l.data.extractLsb' (8 * i) 8).toNat) else acc) a).Canonical := by
    intro is m
    induction is with
    | nil => exact fun a ha => ha
    | cons i r ih =>
      intro a ha
      refine ih _ ?_
      dsimp only
      split
      · exact physWrite_wf _ _ _ _ ha
      · exact ha
  have units : ∀ (us : List Nat) (m : BitVec 64) (a : State), a.Canonical → (us.foldl (fun acc u =>
      if m &&& byteMask (8 * u) 8 = byteMask (8 * u) 8 then acc.physWrite (64 * l.line + 8 * u) 8 (l.data.extractLsb' (64 * u) 64).toNat
      else ((List.range 8).map fun i => 8 * u + i).foldl (fun acc i =>
        if m.getLsbD i then acc.physWrite (64 * l.line + i) 1 ((l.data.extractLsb' (8 * i) 8).toNat) else acc) acc) a).Canonical := by
    intro us m
    induction us with
    | nil => exact fun a ha => ha
    | cons u r ih =>
      intro a ha
      refine ih _ ?_
      dsimp only
      split
      · exact physWrite_wf _ _ _ _ ha
      · exact stores _ _ _ ha
  have marks : ∀ (bs : List Nat) (m : BitVec 64) (a : State), a.Canonical → (bs.foldl (fun (acc : State) b =>
      if m &&& byteMask (32 * b) 32 = byteMask (32 * b) 32 then { acc with bad := acc.badAfter (64 * l.line + 32 * b) 32 } else acc)
      a).Canonical := by
    intro bs m
    induction bs with
    | nil => exact fun a ha => ha
    | cons b r ih =>
      intro a ha
      refine ih _ ?_
      dsimp only
      split <;> exact ha
  exact marks _ _ _ (units _ _ _ (State.touchL2_canonical s _ h))

/-- A queued write performed keeps memory canonical (09_visibility.md R275). -/
theorem State.perform_canonical (s : State) (q : QueuedWrite) (h : s.Canonical) : (s.perform q).Canonical :=
  physWrite_wf _ _ _ _ (show Memory.wf (s.byPolicy _ _).mem = true from byPolicy_mem s _ _ ▸ h)

theorem performAll_canonical (l : List QueuedWrite) (s : State) (h : s.Canonical) : (l.foldl State.perform s).Canonical := by
  induction l generalizing s with
  | nil => exact h
  | cons q r ih => exact ih _ (State.perform_canonical _ _ h)

/-- The write queue performed keeps memory canonical (09_visibility.md R275). -/
theorem State.drained_canonical (s : State) (h : s.Canonical) : s.drained.Canonical := performAll_canonical _ _ h

theorem State.drainCore_canonical (s : State) (c : BitVec 10) (h : s.Canonical) : (s.drainCore c).Canonical := by
  unfold State.drainCore
  refine performAll_canonical _ _ ?_
  split
  · exact h
  · unfold State.Canonical
    rw [State.updCore_mem]
    exact h

theorem State.settleWrites_canonical (s : State) (pa n : Nat) (h : s.Canonical) : (s.settleWrites pa n).Canonical := by
  unfold State.settleWrites
  split
  · exact State.drained_canonical s h
  · exact h

theorem State.cleanLine_canonical (s : State) (c : BitVec 10) (n : Nat) (h : s.Canonical) : (s.cleanLine c n).Canonical := by
  unfold State.cleanLine
  split
  · exact h
  · split
    · exact h
    · unfold State.Canonical
      rw [State.updCore_mem]
      refine State.writeBack_canonical _ _ ?_
      split
      · exact State.drainCore_canonical _ _ h
      · exact h

theorem State.cleanL1_canonical (s : State) (c : BitVec 10) (h : s.Canonical) : (s.cleanL1 c).Canonical := by
  unfold State.cleanL1
  generalize (s.coreAt c).l1 = ls
  induction ls generalizing s with
  | nil => exact h
  | cons l r ih =>
    refine ih _ ?_
    dsimp only
    split
    · exact h
    · exact State.cleanLine_canonical _ _ _ h

theorem State.flushLine_canonical (s : State) (c : BitVec 10) (n : Nat) (h : s.Canonical) : (s.flushLine c n).Canonical := by
  unfold State.flushLine State.Canonical
  rw [State.updCore_mem]
  exact State.cleanLine_canonical _ _ _ h

theorem State.makeWay_canonical (s : State) (n : Nat) (h : s.Canonical) : (s.makeWay n).Canonical := by
  unfold State.makeWay
  dsimp only
  split
  · exact h
  · split
    · exact h
    · exact State.flushLine_canonical _ _ _ h

/-- A release keeps memory canonical (09_visibility.md R270). -/
theorem State.release_canonical (s : State) (scope : BitVec 3) (h : s.Canonical) : (s.release scope).Canonical := by
  unfold State.release
  split
  · exact h
  · exact State.cleanL1_canonical _ _ (State.drained_canonical s h)

/-- An acquire stores nothing (09_visibility.md R271). -/
theorem State.acquire_mem (s : State) (scope : BitVec 3) : (s.acquire scope).mem = s.mem := by
  unfold State.acquire
  split <;> rfl

theorem State.fetched_canonical (s : State) (ln pa : Nat) (h : s.Canonical) : ((s.settleWrites (64 * ln) 64).touchL2 pa).Canonical :=
  State.touchL2_canonical _ _ (State.settleWrites_canonical s _ _ h)

theorem State.cachedRead_canonical (s : State) (va : Word) (pa n : Nat) (h : s.Canonical) : (s.cachedRead va pa n).1.Canonical := by
  unfold State.cachedRead
  dsimp only
  split
  · exact h
  · split
    · exact h
    · have h1 := State.fetched_canonical s (pa / 64) pa h
      split
      · exact h1
      · split
        · exact h1
        · split
          · exact h1
          · exact State.makeWay_canonical _ _ h1

theorem State.queuedRead_canonical (s : State) (va : Word) (pa n : Nat) (policy : BitVec 2) (h : s.Canonical) :
    (s.queuedRead va pa n policy).1.Canonical := by
  unfold State.queuedRead
  split
  · split
    · exact h
    · exact State.byPolicy_canonical _ _ _ (State.drained_canonical s h)
  · exact State.byPolicy_canonical _ _ _ h

theorem State.cachedWrite_canonical (s : State) (pa n v : Nat) (h : s.Canonical) : (s.cachedWrite pa n v).Canonical := by
  unfold State.cachedWrite
  dsimp only
  split
  · exact physWrite_wf _ _ _ _ (State.touchL2_canonical _ _ (State.settleWrites_canonical s _ _ h))
  · exact State.makeWay_canonical _ _ h

theorem State.queueWrite_canonical (s : State) (pa n v : Nat) (policy : BitVec 2) (h : s.Canonical) : (s.queueWrite pa n v policy).Canonical := by
  unfold State.queueWrite
  split
  · exact h
  · exact physWrite_wf _ _ _ _ h

/-! ## Scalar accesses (04_scalar.md R113) -/

/-- All that a scalar load can do: it is misaligned, watched, or has no translation; else it reads by the page's policy. -/
theorem State.loadScalar_cases (s : State) (va : Word) (n : Nat) :
    (va.toNat % n ≠ 0 ∧ s.loadScalar va n = (s, .fault .misaligned)) ∨
    (va.toNat % n = 0 ∧ s.watched s.who false va n = true ∧ s.loadScalar va n = (s, .fault .watch)) ∨
    (∃ s1 f, va.toNat % n = 0 ∧ s.watched s.who false va n = false ∧ s.translateFirst false false va = (s1, .fault f) ∧
      s.loadScalar va n = (s1, .fault f)) ∨
    (∃ s1 pa policy, va.toNat % n = 0 ∧ s.watched s.who false va n = false ∧ s.translateFirst false false va = (s1, .ok pa policy) ∧
      s.loadScalar va n = if policy = 0#2 then s1.cachedRead va pa n else s1.queuedRead va pa n policy) := by
  unfold State.loadScalar
  by_cases h : va.toNat % n = 0
  · cases hw : s.watched s.who false va n with
    | true => simp [h]
    | false =>
      rcases ht : s.translateFirst false false va with ⟨s1, r⟩
      cases r with
      | fault f => exact .inr (.inr (.inl ⟨s1, f, h, rfl, rfl, by simp [h]⟩))
      | ok pa policy => exact .inr (.inr (.inr ⟨s1, pa, policy, h, rfl, rfl, by simp [h]⟩))
  · simp [h]

/-- All that a scalar store can do. -/
theorem State.storeScalar_cases (s : State) (va : Word) (n v : Nat) :
    (va.toNat % n ≠ 0 ∧ s.storeScalar va n v = (s, .fault .misaligned)) ∨
    (va.toNat % n = 0 ∧ s.watched s.who true va n = true ∧ s.storeScalar va n v = (s, .fault .watch)) ∨
    (∃ s1 f, va.toNat % n = 0 ∧ s.watched s.who true va n = false ∧ s.translateFirst false true va = (s1, .fault f) ∧
      s.storeScalar va n v = (s1, .fault f)) ∨
    (∃ s1 pa policy, va.toNat % n = 0 ∧ s.watched s.who true va n = false ∧ s.translateFirst false true va = (s1, .ok pa policy) ∧
      s.storeScalar va n v = (if policy = 0#2 then s1.cachedWrite pa n v else s1.queueWrite pa n v policy, .ok)) := by
  unfold State.storeScalar
  by_cases h : va.toNat % n = 0
  · cases hw : s.watched s.who true va n with
    | true => simp [h]
    | false =>
      rcases ht : s.translateFirst false true va with ⟨s1, r⟩
      cases r with
      | fault f => exact .inr (.inr (.inl ⟨s1, f, h, rfl, rfl, by simp [h]⟩))
      | ok pa policy => exact .inr (.inr (.inr ⟨s1, pa, policy, h, rfl, rfl, by simp [h]⟩))
  · simp [h]

end Sys2Proof.Machine
end

