-- ==== Sys2Proof/Laws/PerInstr.lean ====
section
/-!
SUPPORT. Per instruction: the length of its encoding is the one that bit 0 of its first byte gives (02_encoding.md R33).
-/

namespace Sys2Proof.Laws.EncodedLength

/-- The length that a first byte gives (02_encoding.md R33). -/
def lengthOf (b : Byte) : Nat := if b.getLsbD 0 then 4 else 2

/-- What holds of an instruction: its bytes, where it has an encoding, are as many as bit 0 of the first says. -/
def Statement (i : Instr) : Prop := ∀ b r, encode i = some (b :: r) → (b :: r).length = lengthOf b

theorem of_none {i : Instr} (h : encodeFields i = none) : Statement i := by
  intro b r e
  simp [encode, h] at e

theorem of_raw {i : Instr} {w : Raw} (h : encodeFields i = some (.inr w)) : Statement i := by
  intro b r e
  simp only [encode, h, Option.some.injEq, List.cons.injEq] at e
  obtain ⟨rfl, rfl⟩ := e
  have : (w.toWord.extractLsb' 0 8).getLsbD 0 = true := by
    rw [BitVec.getLsbD_extractLsb']
    exact (BitVec.getLsbD_append (x := w.f ++ w.k ++ w.p ++ w.b ++ w.a ++ w.d ++ w.major) (y := 1#1) (i := 0))
  simp only [lengthOf, this]
  rfl

theorem of_compact {i : Instr} {c : Compact} (h : encodeFields i = some (.inl c)) : Statement i := by
  intro b r e
  simp only [encode, h, Option.some.injEq, List.cons.injEq] at e
  obtain ⟨rfl, rfl⟩ := e
  have : (c.toHalf.extractLsb' 0 8).getLsbD 0 = false := by
    rw [BitVec.getLsbD_extractLsb']
    exact (BitVec.getLsbD_append (x := c.b ++ c.a ++ c.op) (y := 0#1) (i := 0))
  simp only [lengthOf, this]
  rfl

theorem quantumExpiry : Statement (.quantumExpiry) := of_none rfl
theorem preemptSwitch : Statement (.preemptSwitch) := of_none rfl
theorem contextSpill : Statement (.contextSpill) := of_none rfl
theorem contextRefill (slot : BitVec 8) : Statement (.contextRefill slot) := of_none rfl
theorem vectorMicroOp : Statement (.vectorMicroOp) := of_none rfl
theorem vectorCommit : Statement (.vectorCommit) := of_none rfl
theorem vfenceSignal : Statement (.vfenceSignal) := of_none rfl
theorem sorterService : Statement (.sorterService) := of_none rfl
theorem matrixEntryStart : Statement (.matrixEntryStart) := of_none rfl
theorem tileUnitFree (mov : BitVec 8) (unit : BitVec 3) : Statement (.tileUnitFree mov unit) := of_none rfl
theorem copyChannelStart (chan : BitVec 4) : Statement (.copyChannelStart chan) := of_none rfl
theorem copyUnitComplete (entry : BitVec 3) : Statement (.copyUnitComplete entry) := of_none rfl
theorem copyFault (entry : BitVec 3) : Statement (.copyFault entry) := of_none rfl
theorem copyRestart (entry : BitVec 3) : Statement (.copyRestart entry) := of_none rfl
theorem gatherUnitBurst (entry : BitVec 3) : Statement (.gatherUnitBurst entry) := of_none rfl
theorem tokenOpSend : Statement (.tokenOpSend) := of_none rfl
theorem tokenOpApply (op : TokenOp) : Statement (.tokenOpApply op) := of_none rfl
theorem logReplay : Statement (.logReplay) := of_none rfl
theorem tokenWatch (w : Watch) : Statement (.tokenWatch w) := of_none rfl
theorem wake (w : Watch) : Statement (.wake w) := of_none rfl
theorem recheck (dev : BitVec 10) (home : BitVec 10) : Statement (.recheck dev home) := of_none rfl
theorem mailboxReservation (handle : Word) (len : BitVec 24) (crew : BitVec 7) (issuer : BitVec 20) : Statement (.mailboxReservation handle len crew issuer) := of_none rfl
theorem mailboxDelivery (handle : Word) (pos : BitVec 16) (word : Word) (reply : Word) : Statement (.mailboxDelivery handle pos word reply) := of_none rfl
theorem pageWalk (va : Word) (store : Bool) : Statement (.pageWalk va store) := of_none rfl
theorem arenaFaultRecord (die : BitVec 2) (key : Nat) : Statement (.arenaFaultRecord die key) := of_none rfl
theorem atsTranslationResponse (asid : BitVec 16) (va : Word) (ha : Word) (perm : BitVec 2) : Statement (.atsTranslationResponse asid va ha perm) := of_none rfl
theorem atsInvalidateRequest (asid : BitVec 16) (va : Word) (len : Word) : Statement (.atsInvalidateRequest asid va len) := of_none rfl
theorem priPageResponse (asid : BitVec 16) (va : Word) (code : BitVec 4) : Statement (.priPageResponse asid va code) := of_none rfl
theorem l1Writeback (line : Nat) : Statement (.l1Writeback line) := of_none rfl
theorem burstResend (addr : Nat) (fails : BitVec 3) (write : Bool) : Statement (.burstResend addr fails write) := of_none rfl
theorem liveLaneRepair (chan : BitVec 10) : Statement (.liveLaneRepair chan) := of_none rfl
theorem patrolScrub (addr : Nat) : Statement (.patrolScrub addr) := of_none rfl
theorem swapRequest : Statement (.swapRequest) := of_none rfl
theorem swapLineExchange (pair : BitVec 4) : Statement (.swapLineExchange pair) := of_none rfl
theorem swapPairRetire (pair : BitVec 4) : Statement (.swapPairRetire pair) := of_none rfl
theorem ingressCheck (req : RemoteReq) : Statement (.ingressCheck req) := of_none rfl
theorem endpointCacheFetch (index : BitVec 12) : Statement (.endpointCacheFetch index) := of_none rfl
theorem windowDrainFree (index : BitVec 12) : Statement (.windowDrainFree index) := of_none rfl
theorem linkLevelRetry (port : BitVec 5) : Statement (.linkLevelRetry port) := of_none rfl
theorem portFailure (port : BitVec 5) (spare : BitVec 5) : Statement (.portFailure port spare) := of_none rfl
theorem bar2Access (write : Bool) (offset : Nat) (size : BitVec 4) (value : Word) : Statement (.bar2Access write offset size value) := of_none rfl
theorem pcieLinkTraining (flit : Bool) : Statement (.pcieLinkTraining flit) := of_none rfl
theorem ideKm (stream : BitVec 3) (key : Word) : Statement (.ideKm stream key) := of_none rfl
theorem boot : Statement (.boot) := of_none rfl
theorem powerThrottle (mov : BitVec 8) : Statement (.powerThrottle mov) := of_none rfl
theorem autoGateM1 (mov : BitVec 8) : Statement (.autoGateM1 mov) := of_none rfl
theorem autoGateM2 (mov : BitVec 8) : Statement (.autoGateM2 mov) := of_none rfl
theorem movementWake (mov : BitVec 8) : Statement (.movementWake mov) := of_none rfl
theorem identify : Statement (.identify) := of_none rfl
theorem attestReport : Statement (.attestReport) := of_none rfl
theorem attestWrap : Statement (.attestWrap) := of_none rfl
theorem attestUnwrap : Statement (.attestUnwrap) := of_none rfl
theorem crewCreate : Statement (.crewCreate) := of_none rfl
theorem crewDestroy : Statement (.crewDestroy) := of_none rfl
theorem codeLoad : Statement (.codeLoad) := of_none rfl
theorem bind : Statement (.bind) := of_none rfl
theorem farmLaunch : Statement (.farmLaunch) := of_none rfl
theorem signal : Statement (.signal) := of_none rfl
theorem preemptCommand : Statement (.preemptCommand) := of_none rfl
theorem windowRegister : Statement (.windowRegister) := of_none rfl
theorem powerSetCap : Statement (.powerSetCap) := of_none rfl
theorem powerSetState : Statement (.powerSetState) := of_none rfl
theorem powerSetGating : Statement (.powerSetGating) := of_none rfl
theorem debugSetLevel : Statement (.debugSetLevel) := of_none rfl
theorem debugSetWatch : Statement (.debugSetWatch) := of_none rfl
theorem debugSetCopy : Statement (.debugSetCopy) := of_none rfl
theorem errorQuery : Statement (.errorQuery) := of_none rfl
theorem repairStatus : Statement (.repairStatus) := of_none rfl
theorem patchApply : Statement (.patchApply) := of_none rfl
theorem portConfiguration (dev : BitVec 10) (peers : List Nat) : Statement (.portConfiguration dev peers) := of_none rfl
theorem reservedEncoding : Statement (.reservedEncoding) := of_none rfl
theorem add (d : BitVec 5) (a : BitVec 5) (b : BitVec 5) : Statement (.add d a b) := of_raw rfl
theorem sub (d : BitVec 5) (a : BitVec 5) (b : BitVec 5) : Statement (.sub d a b) := of_raw rfl
theorem and (d : BitVec 5) (a : BitVec 5) (b : BitVec 5) : Statement (.and d a b) := of_raw rfl
theorem or (d : BitVec 5) (a : BitVec 5) (b : BitVec 5) : Statement (.or d a b) := of_raw rfl
theorem xor (d : BitVec 5) (a : BitVec 5) (b : BitVec 5) : Statement (.xor d a b) := of_raw rfl
theorem sll (d : BitVec 5) (a : BitVec 5) (b : BitVec 5) : Statement (.sll d a b) := of_raw rfl
theorem srl (d : BitVec 5) (a : BitVec 5) (b : BitVec 5) : Statement (.srl d a b) := of_raw rfl
theorem sra (d : BitVec 5) (a : BitVec 5) (b : BitVec 5) : Statement (.sra d a b) := of_raw rfl
theorem slt (d : BitVec 5) (a : BitVec 5) (b : BitVec 5) : Statement (.slt d a b) := of_raw rfl
theorem sltn (d : BitVec 5) (a : BitVec 5) (b : BitVec 5) : Statement (.sltn d a b) := of_raw rfl
theorem mul (d : BitVec 5) (a : BitVec 5) (b : BitVec 5) : Statement (.mul d a b) := of_raw rfl
theorem mulh (d : BitVec 5) (a : BitVec 5) (b : BitVec 5) : Statement (.mulh d a b) := of_raw rfl
theorem mulhn (d : BitVec 5) (a : BitVec 5) (b : BitVec 5) : Statement (.mulhn d a b) := of_raw rfl
theorem div (d : BitVec 5) (a : BitVec 5) (b : BitVec 5) : Statement (.div d a b) := of_raw rfl
theorem divn (d : BitVec 5) (a : BitVec 5) (b : BitVec 5) : Statement (.divn d a b) := of_raw rfl
theorem rem (d : BitVec 5) (a : BitVec 5) (b : BitVec 5) : Statement (.rem d a b) := of_raw rfl
theorem remn (d : BitVec 5) (a : BitVec 5) (b : BitVec 5) : Statement (.remn d a b) := of_raw rfl
theorem min (d : BitVec 5) (a : BitVec 5) (b : BitVec 5) : Statement (.min d a b) := of_raw rfl
theorem max (d : BitVec 5) (a : BitVec 5) (b : BitVec 5) : Statement (.max d a b) := of_raw rfl
theorem minn (d : BitVec 5) (a : BitVec 5) (b : BitVec 5) : Statement (.minn d a b) := of_raw rfl
theorem maxn (d : BitVec 5) (a : BitVec 5) (b : BitVec 5) : Statement (.maxn d a b) := of_raw rfl
theorem clz (d : BitVec 5) (a : BitVec 5) : Statement (.clz d a) := of_raw rfl
theorem ctz (d : BitVec 5) (a : BitVec 5) : Statement (.ctz d a) := of_raw rfl
theorem popc (d : BitVec 5) (a : BitVec 5) : Statement (.popc d a) := of_raw rfl
theorem addi (d : BitVec 5) (a : BitVec 5) (i : BitVec 15) : Statement (.addi d a i) := of_raw rfl
theorem andi (d : BitVec 5) (a : BitVec 5) (i : BitVec 15) : Statement (.andi d a i) := of_raw rfl
theorem ori (d : BitVec 5) (a : BitVec 5) (i : BitVec 15) : Statement (.ori d a i) := of_raw rfl
theorem xori (d : BitVec 5) (a : BitVec 5) (i : BitVec 15) : Statement (.xori d a i) := of_raw rfl
theorem slli (d : BitVec 5) (a : BitVec 5) (i : BitVec 6) : Statement (.slli d a i) := of_raw rfl
theorem srli (d : BitVec 5) (a : BitVec 5) (i : BitVec 6) : Statement (.srli d a i) := of_raw rfl
theorem srai (d : BitVec 5) (a : BitVec 5) (i : BitVec 6) : Statement (.srai d a i) := of_raw rfl
theorem slti (d : BitVec 5) (a : BitVec 5) (i : BitVec 15) : Statement (.slti d a i) := of_raw rfl
theorem sltni (d : BitVec 5) (a : BitVec 5) (i : BitVec 15) : Statement (.sltni d a i) := of_raw rfl
theorem lim (d : BitVec 5) (i : BitVec 20) : Statement (.lim d i) := of_raw rfl
theorem ipc (d : BitVec 5) (i : BitVec 20) : Statement (.ipc d i) := of_raw rfl
theorem ldI8 (d : BitVec 5) (a : BitVec 5) (i : BitVec 15) : Statement (.ldI8 d a i) := of_raw rfl
theorem ldN8 (d : BitVec 5) (a : BitVec 5) (i : BitVec 15) : Statement (.ldN8 d a i) := of_raw rfl
theorem ldI16 (d : BitVec 5) (a : BitVec 5) (i : BitVec 15) : Statement (.ldI16 d a i) := of_raw rfl
theorem ldN16 (d : BitVec 5) (a : BitVec 5) (i : BitVec 15) : Statement (.ldN16 d a i) := of_raw rfl
theorem ldI32 (d : BitVec 5) (a : BitVec 5) (i : BitVec 15) : Statement (.ldI32 d a i) := of_raw rfl
theorem ldN32 (d : BitVec 5) (a : BitVec 5) (i : BitVec 15) : Statement (.ldN32 d a i) := of_raw rfl
theorem ld64 (d : BitVec 5) (a : BitVec 5) (i : BitVec 15) : Statement (.ld64 d a i) := of_raw rfl
theorem st8 (d : BitVec 5) (a : BitVec 5) (i : BitVec 15) : Statement (.st8 d a i) := of_raw rfl
theorem st16 (d : BitVec 5) (a : BitVec 5) (i : BitVec 15) : Statement (.st16 d a i) := of_raw rfl
theorem st32 (d : BitVec 5) (a : BitVec 5) (i : BitVec 15) : Statement (.st32 d a i) := of_raw rfl
theorem st64 (d : BitVec 5) (a : BitVec 5) (i : BitVec 15) : Statement (.st64 d a i) := of_raw rfl
theorem beq (a : BitVec 5) (b : BitVec 5) (o : BitVec 15) : Statement (.beq a b o) := of_raw rfl
theorem bne (a : BitVec 5) (b : BitVec 5) (o : BitVec 15) : Statement (.bne a b o) := of_raw rfl
theorem blt (a : BitVec 5) (b : BitVec 5) (o : BitVec 15) : Statement (.blt a b o) := of_raw rfl
theorem bge (a : BitVec 5) (b : BitVec 5) (o : BitVec 15) : Statement (.bge a b o) := of_raw rfl
theorem bltn (a : BitVec 5) (b : BitVec 5) (o : BitVec 15) : Statement (.bltn a b o) := of_raw rfl
theorem bgen (a : BitVec 5) (b : BitVec 5) (o : BitVec 15) : Statement (.bgen a b o) := of_raw rfl
theorem jal (o : BitVec 25) : Statement (.jal o) := of_raw rfl
theorem jalr (d : BitVec 5) (a : BitVec 5) (i : BitVec 15) : Statement (.jalr d a i) := of_raw rfl
theorem faddF32 (d : BitVec 5) (a : BitVec 5) (b : BitVec 5) : Statement (.faddF32 d a b) := of_raw rfl
theorem fsubF32 (d : BitVec 5) (a : BitVec 5) (b : BitVec 5) : Statement (.fsubF32 d a b) := of_raw rfl
theorem fmulF32 (d : BitVec 5) (a : BitVec 5) (b : BitVec 5) : Statement (.fmulF32 d a b) := of_raw rfl
theorem fdivF32 (d : BitVec 5) (a : BitVec 5) (b : BitVec 5) : Statement (.fdivF32 d a b) := of_raw rfl
theorem fsqrtF32 (d : BitVec 5) (a : BitVec 5) : Statement (.fsqrtF32 d a) := of_raw rfl
theorem fmaddF32 (d : BitVec 5) (a : BitVec 5) (b : BitVec 5) (c : BitVec 5) : Statement (.fmaddF32 d a b c) := of_raw rfl
theorem fminF32 (d : BitVec 5) (a : BitVec 5) (b : BitVec 5) : Statement (.fminF32 d a b) := of_raw rfl
theorem fmaxF32 (d : BitVec 5) (a : BitVec 5) (b : BitVec 5) : Statement (.fmaxF32 d a b) := of_raw rfl
theorem fcmpF32 (d : BitVec 5) (a : BitVec 5) (b : BitVec 5) (c : BitVec 5) : Statement (.fcmpF32 d a b c) := of_raw rfl
theorem fcvtF32 (d : BitVec 5) (a : BitVec 5) (c : BitVec 5) : Statement (.fcvtF32 d a c) := of_raw rfl
theorem fclassF32 (d : BitVec 5) (a : BitVec 5) : Statement (.fclassF32 d a) := of_raw rfl
theorem faddF64 (d : BitVec 5) (a : BitVec 5) (b : BitVec 5) : Statement (.faddF64 d a b) := of_raw rfl
theorem fsubF64 (d : BitVec 5) (a : BitVec 5) (b : BitVec 5) : Statement (.fsubF64 d a b) := of_raw rfl
theorem fmulF64 (d : BitVec 5) (a : BitVec 5) (b : BitVec 5) : Statement (.fmulF64 d a b) := of_raw rfl
theorem fdivF64 (d : BitVec 5) (a : BitVec 5) (b : BitVec 5) : Statement (.fdivF64 d a b) := of_raw rfl
theorem fsqrtF64 (d : BitVec 5) (a : BitVec 5) : Statement (.fsqrtF64 d a) := of_raw rfl
theorem fmaddF64 (d : BitVec 5) (a : BitVec 5) (b : BitVec 5) (c : BitVec 5) : Statement (.fmaddF64 d a b c) := of_raw rfl
theorem fminF64 (d : BitVec 5) (a : BitVec 5) (b : BitVec 5) : Statement (.fminF64 d a b) := of_raw rfl
theorem fmaxF64 (d : BitVec 5) (a : BitVec 5) (b : BitVec 5) : Statement (.fmaxF64 d a b) := of_raw rfl
theorem fcmpF64 (d : BitVec 5) (a : BitVec 5) (b : BitVec 5) (c : BitVec 5) : Statement (.fcmpF64 d a b c) := of_raw rfl
theorem fcvtF64 (d : BitVec 5) (a : BitVec 5) (c : BitVec 5) : Statement (.fcvtF64 d a c) := of_raw rfl
theorem fclassF64 (d : BitVec 5) (a : BitVec 5) : Statement (.fclassF64 d a) := of_raw rfl
theorem crd (d : BitVec 5) (n : BitVec 12) : Statement (.crd d n) := of_raw rfl
theorem cwr (n : BitVec 12) (a : BitVec 5) : Statement (.cwr n a) := of_raw rfl
theorem cset (n : BitVec 12) (a : BitVec 5) : Statement (.cset n a) := of_raw rfl
theorem cclr (n : BitVec 12) (a : BitVec 5) : Statement (.cclr n a) := of_raw rfl
theorem svc (n : BitVec 12) : Statement (.svc n) := of_raw rfl
theorem tret : Statement (.tret) := of_raw rfl
theorem brk (n : BitVec 12) : Statement (.brk n) := of_raw rfl
theorem ifence : Statement (.ifence) := of_raw rfl
theorem amoAdd (d : BitVec 5) (a : BitVec 5) (b : BitVec 5) (q : BitVec 1) (l : BitVec 1) (s : BitVec 3) : Statement (.amoAdd d a b q l s) := of_raw rfl
theorem amoAnd (d : BitVec 5) (a : BitVec 5) (b : BitVec 5) (q : BitVec 1) (l : BitVec 1) (s : BitVec 3) : Statement (.amoAnd d a b q l s) := of_raw rfl
theorem amoOr (d : BitVec 5) (a : BitVec 5) (b : BitVec 5) (q : BitVec 1) (l : BitVec 1) (s : BitVec 3) : Statement (.amoOr d a b q l s) := of_raw rfl
theorem amoXor (d : BitVec 5) (a : BitVec 5) (b : BitVec 5) (q : BitVec 1) (l : BitVec 1) (s : BitVec 3) : Statement (.amoXor d a b q l s) := of_raw rfl
theorem amoMin (d : BitVec 5) (a : BitVec 5) (b : BitVec 5) (q : BitVec 1) (l : BitVec 1) (s : BitVec 3) : Statement (.amoMin d a b q l s) := of_raw rfl
theorem amoMax (d : BitVec 5) (a : BitVec 5) (b : BitVec 5) (q : BitVec 1) (l : BitVec 1) (s : BitVec 3) : Statement (.amoMax d a b q l s) := of_raw rfl
theorem amoMinn (d : BitVec 5) (a : BitVec 5) (b : BitVec 5) (q : BitVec 1) (l : BitVec 1) (s : BitVec 3) : Statement (.amoMinn d a b q l s) := of_raw rfl
theorem amoMaxn (d : BitVec 5) (a : BitVec 5) (b : BitVec 5) (q : BitVec 1) (l : BitVec 1) (s : BitVec 3) : Statement (.amoMaxn d a b q l s) := of_raw rfl
theorem amoSwap (d : BitVec 5) (a : BitVec 5) (b : BitVec 5) (q : BitVec 1) (l : BitVec 1) (s : BitVec 3) : Statement (.amoSwap d a b q l s) := of_raw rfl
theorem amoCas (d : BitVec 5) (a : BitVec 5) (b : BitVec 5) (q : BitVec 1) (l : BitVec 1) (s : BitVec 3) : Statement (.amoCas d a b q l s) := of_raw rfl
theorem ldAq (d : BitVec 5) (a : BitVec 5) (s : BitVec 3) : Statement (.ldAq d a s) := of_raw rfl
theorem stRl (d : BitVec 5) (a : BitVec 5) (s : BitVec 3) : Statement (.stRl d a s) := of_raw rfl
theorem fenceAcq (s : BitVec 3) : Statement (.fenceAcq s) := of_raw rfl
theorem fenceRel (s : BitVec 3) : Statement (.fenceRel s) := of_raw rfl
theorem fence (s : BitVec 3) : Statement (.fence s) := of_raw rfl
theorem vfenceArrive (d : BitVec 5) (a : BitVec 5) (b : BitVec 5) (s : BitVec 3) : Statement (.vfenceArrive d a b s) := of_raw rfl
theorem cclean (a : BitVec 5) (b : BitVec 5) : Statement (.cclean a b) := of_raw rfl
theorem cinval (a : BitVec 5) (b : BitVec 5) : Statement (.cinval a b) := of_raw rfl
theorem vset (d : BitVec 5) (a : BitVec 5) (b : BitVec 5) : Statement (.vset d a b) := of_raw rfl
theorem vseti (d : BitVec 5) (a : BitVec 5) (i : BitVec 12) : Statement (.vseti d a i) := of_raw rfl
theorem vrel : Statement (.vrel) := of_raw rfl
theorem vsync : Statement (.vsync) := of_raw rfl
theorem vaddVv (d : BitVec 5) (a : BitVec 5) (b : BitVec 5) (p : BitVec 4) : Statement (.vaddVv d a b p) := of_raw rfl
theorem vaddVx (d : BitVec 5) (a : BitVec 5) (b : BitVec 5) (p : BitVec 4) : Statement (.vaddVx d a b p) := of_raw rfl
theorem vsubVv (d : BitVec 5) (a : BitVec 5) (b : BitVec 5) (p : BitVec 4) : Statement (.vsubVv d a b p) := of_raw rfl
theorem vsubVx (d : BitVec 5) (a : BitVec 5) (b : BitVec 5) (p : BitVec 4) : Statement (.vsubVx d a b p) := of_raw rfl
theorem vmulVv (d : BitVec 5) (a : BitVec 5) (b : BitVec 5) (p : BitVec 4) : Statement (.vmulVv d a b p) := of_raw rfl
theorem vmulVx (d : BitVec 5) (a : BitVec 5) (b : BitVec 5) (p : BitVec 4) : Statement (.vmulVx d a b p) := of_raw rfl
theorem vmulhVv (d : BitVec 5) (a : BitVec 5) (b : BitVec 5) (p : BitVec 4) : Statement (.vmulhVv d a b p) := of_raw rfl
theorem vmulhVx (d : BitVec 5) (a : BitVec 5) (b : BitVec 5) (p : BitVec 4) : Statement (.vmulhVx d a b p) := of_raw rfl
theorem vmaccVv (d : BitVec 5) (a : BitVec 5) (b : BitVec 5) (p : BitVec 4) : Statement (.vmaccVv d a b p) := of_raw rfl
theorem vmaccVx (d : BitVec 5) (a : BitVec 5) (b : BitVec 5) (p : BitVec 4) : Statement (.vmaccVx d a b p) := of_raw rfl
theorem vnmsacVv (d : BitVec 5) (a : BitVec 5) (b : BitVec 5) (p : BitVec 4) : Statement (.vnmsacVv d a b p) := of_raw rfl
theorem vnmsacVx (d : BitVec 5) (a : BitVec 5) (b : BitVec 5) (p : BitVec 4) : Statement (.vnmsacVx d a b p) := of_raw rfl
theorem vdivVv (d : BitVec 5) (a : BitVec 5) (b : BitVec 5) (p : BitVec 4) : Statement (.vdivVv d a b p) := of_raw rfl
theorem vdivVx (d : BitVec 5) (a : BitVec 5) (b : BitVec 5) (p : BitVec 4) : Statement (.vdivVx d a b p) := of_raw rfl
theorem vremVv (d : BitVec 5) (a : BitVec 5) (b : BitVec 5) (p : BitVec 4) : Statement (.vremVv d a b p) := of_raw rfl
theorem vremVx (d : BitVec 5) (a : BitVec 5) (b : BitVec 5) (p : BitVec 4) : Statement (.vremVx d a b p) := of_raw rfl
theorem vminVv (d : BitVec 5) (a : BitVec 5) (b : BitVec 5) (p : BitVec 4) : Statement (.vminVv d a b p) := of_raw rfl
theorem vminVx (d : BitVec 5) (a : BitVec 5) (b : BitVec 5) (p : BitVec 4) : Statement (.vminVx d a b p) := of_raw rfl
theorem vmaxVv (d : BitVec 5) (a : BitVec 5) (b : BitVec 5) (p : BitVec 4) : Statement (.vmaxVv d a b p) := of_raw rfl
theorem vmaxVx (d : BitVec 5) (a : BitVec 5) (b : BitVec 5) (p : BitVec 4) : Statement (.vmaxVx d a b p) := of_raw rfl
theorem vandVv (d : BitVec 5) (a : BitVec 5) (b : BitVec 5) (p : BitVec 4) : Statement (.vandVv d a b p) := of_raw rfl
theorem vandVx (d : BitVec 5) (a : BitVec 5) (b : BitVec 5) (p : BitVec 4) : Statement (.vandVx d a b p) := of_raw rfl
theorem vorVv (d : BitVec 5) (a : BitVec 5) (b : BitVec 5) (p : BitVec 4) : Statement (.vorVv d a b p) := of_raw rfl
theorem vorVx (d : BitVec 5) (a : BitVec 5) (b : BitVec 5) (p : BitVec 4) : Statement (.vorVx d a b p) := of_raw rfl
theorem vxorVv (d : BitVec 5) (a : BitVec 5) (b : BitVec 5) (p : BitVec 4) : Statement (.vxorVv d a b p) := of_raw rfl
theorem vxorVx (d : BitVec 5) (a : BitVec 5) (b : BitVec 5) (p : BitVec 4) : Statement (.vxorVx d a b p) := of_raw rfl
theorem vsllVv (d : BitVec 5) (a : BitVec 5) (b : BitVec 5) (p : BitVec 4) : Statement (.vsllVv d a b p) := of_raw rfl
theorem vsllVx (d : BitVec 5) (a : BitVec 5) (b : BitVec 5) (p : BitVec 4) : Statement (.vsllVx d a b p) := of_raw rfl
theorem vsrlVv (d : BitVec 5) (a : BitVec 5) (b : BitVec 5) (p : BitVec 4) : Statement (.vsrlVv d a b p) := of_raw rfl
theorem vsrlVx (d : BitVec 5) (a : BitVec 5) (b : BitVec 5) (p : BitVec 4) : Statement (.vsrlVx d a b p) := of_raw rfl
theorem vsraVv (d : BitVec 5) (a : BitVec 5) (b : BitVec 5) (p : BitVec 4) : Statement (.vsraVv d a b p) := of_raw rfl
theorem vsraVx (d : BitVec 5) (a : BitVec 5) (b : BitVec 5) (p : BitVec 4) : Statement (.vsraVx d a b p) := of_raw rfl
theorem vaddsVv (d : BitVec 5) (a : BitVec 5) (b : BitVec 5) (p : BitVec 4) : Statement (.vaddsVv d a b p) := of_raw rfl
theorem vaddsVx (d : BitVec 5) (a : BitVec 5) (b : BitVec 5) (p : BitVec 4) : Statement (.vaddsVx d a b p) := of_raw rfl
theorem vsubsVv (d : BitVec 5) (a : BitVec 5) (b : BitVec 5) (p : BitVec 4) : Statement (.vsubsVv d a b p) := of_raw rfl
theorem vsubsVx (d : BitVec 5) (a : BitVec 5) (b : BitVec 5) (p : BitVec 4) : Statement (.vsubsVx d a b p) := of_raw rfl
theorem vwaddVv (d : BitVec 5) (a : BitVec 5) (b : BitVec 5) (p : BitVec 4) : Statement (.vwaddVv d a b p) := of_raw rfl
theorem vwaddVx (d : BitVec 5) (a : BitVec 5) (b : BitVec 5) (p : BitVec 4) : Statement (.vwaddVx d a b p) := of_raw rfl
theorem vwmulVv (d : BitVec 5) (a : BitVec 5) (b : BitVec 5) (p : BitVec 4) : Statement (.vwmulVv d a b p) := of_raw rfl
theorem vwmulVx (d : BitVec 5) (a : BitVec 5) (b : BitVec 5) (p : BitVec 4) : Statement (.vwmulVx d a b p) := of_raw rfl
theorem vwmaccVv (d : BitVec 5) (a : BitVec 5) (b : BitVec 5) (p : BitVec 4) : Statement (.vwmaccVv d a b p) := of_raw rfl
theorem vwmaccVx (d : BitVec 5) (a : BitVec 5) (b : BitVec 5) (p : BitVec 4) : Statement (.vwmaccVx d a b p) := of_raw rfl
theorem vnclipVv (d : BitVec 5) (a : BitVec 5) (b : BitVec 5) (p : BitVec 4) : Statement (.vnclipVv d a b p) := of_raw rfl
theorem vnclipVx (d : BitVec 5) (a : BitVec 5) (b : BitVec 5) (p : BitVec 4) : Statement (.vnclipVx d a b p) := of_raw rfl
theorem vselVv (d : BitVec 5) (a : BitVec 5) (b : BitVec 5) (p : BitVec 4) : Statement (.vselVv d a b p) := of_raw rfl
theorem vselVx (d : BitVec 5) (a : BitVec 5) (b : BitVec 5) (p : BitVec 4) : Statement (.vselVx d a b p) := of_raw rfl
theorem vfaddVv (d : BitVec 5) (a : BitVec 5) (b : BitVec 5) (p : BitVec 4) : Statement (.vfaddVv d a b p) := of_raw rfl
theorem vfaddVx (d : BitVec 5) (a : BitVec 5) (b : BitVec 5) (p : BitVec 4) : Statement (.vfaddVx d a b p) := of_raw rfl
theorem vfsubVv (d : BitVec 5) (a : BitVec 5) (b : BitVec 5) (p : BitVec 4) : Statement (.vfsubVv d a b p) := of_raw rfl
theorem vfsubVx (d : BitVec 5) (a : BitVec 5) (b : BitVec 5) (p : BitVec 4) : Statement (.vfsubVx d a b p) := of_raw rfl
theorem vfmulVv (d : BitVec 5) (a : BitVec 5) (b : BitVec 5) (p : BitVec 4) : Statement (.vfmulVv d a b p) := of_raw rfl
theorem vfmulVx (d : BitVec 5) (a : BitVec 5) (b : BitVec 5) (p : BitVec 4) : Statement (.vfmulVx d a b p) := of_raw rfl
theorem vfdivVv (d : BitVec 5) (a : BitVec 5) (b : BitVec 5) (p : BitVec 4) : Statement (.vfdivVv d a b p) := of_raw rfl
theorem vfdivVx (d : BitVec 5) (a : BitVec 5) (b : BitVec 5) (p : BitVec 4) : Statement (.vfdivVx d a b p) := of_raw rfl
theorem vfmaVv (d : BitVec 5) (a : BitVec 5) (b : BitVec 5) (p : BitVec 4) : Statement (.vfmaVv d a b p) := of_raw rfl
theorem vfmaVx (d : BitVec 5) (a : BitVec 5) (b : BitVec 5) (p : BitVec 4) : Statement (.vfmaVx d a b p) := of_raw rfl
theorem vfnmaVv (d : BitVec 5) (a : BitVec 5) (b : BitVec 5) (p : BitVec 4) : Statement (.vfnmaVv d a b p) := of_raw rfl
theorem vfnmaVx (d : BitVec 5) (a : BitVec 5) (b : BitVec 5) (p : BitVec 4) : Statement (.vfnmaVx d a b p) := of_raw rfl
theorem vfminVv (d : BitVec 5) (a : BitVec 5) (b : BitVec 5) (p : BitVec 4) : Statement (.vfminVv d a b p) := of_raw rfl
theorem vfminVx (d : BitVec 5) (a : BitVec 5) (b : BitVec 5) (p : BitVec 4) : Statement (.vfminVx d a b p) := of_raw rfl
theorem vfmaxVv (d : BitVec 5) (a : BitVec 5) (b : BitVec 5) (p : BitVec 4) : Statement (.vfmaxVv d a b p) := of_raw rfl
theorem vfmaxVx (d : BitVec 5) (a : BitVec 5) (b : BitVec 5) (p : BitVec 4) : Statement (.vfmaxVx d a b p) := of_raw rfl
theorem vfsqrt (d : BitVec 5) (a : BitVec 5) (p : BitVec 4) : Statement (.vfsqrt d a p) := of_raw rfl
theorem vfrsqrt (d : BitVec 5) (a : BitVec 5) (p : BitVec 4) : Statement (.vfrsqrt d a p) := of_raw rfl
theorem vfrcp (d : BitVec 5) (a : BitVec 5) (p : BitVec 4) : Statement (.vfrcp d a p) := of_raw rfl
theorem vfexp2 (d : BitVec 5) (a : BitVec 5) (p : BitVec 4) : Statement (.vfexp2 d a p) := of_raw rfl
theorem vflog2 (d : BitVec 5) (a : BitVec 5) (p : BitVec 4) : Statement (.vflog2 d a p) := of_raw rfl
theorem vftanh (d : BitVec 5) (a : BitVec 5) (p : BitVec 4) : Statement (.vftanh d a p) := of_raw rfl
theorem vcmp (d : BitVec 5) (a : BitVec 5) (b : BitVec 5) (k : BitVec 1) (c : BitVec 4) (p : BitVec 4) : Statement (.vcmp d a b k c p) := of_raw rfl
theorem vfcmp (d : BitVec 5) (a : BitVec 5) (b : BitVec 5) (k : BitVec 1) (c : BitVec 4) (p : BitVec 4) : Statement (.vfcmp d a b k c p) := of_raw rfl
theorem mand (d : BitVec 5) (a : BitVec 5) (b : BitVec 5) : Statement (.mand d a b) := of_raw rfl
theorem mor (d : BitVec 5) (a : BitVec 5) (b : BitVec 5) : Statement (.mor d a b) := of_raw rfl
theorem mxor (d : BitVec 5) (a : BitVec 5) (b : BitVec 5) : Statement (.mxor d a b) := of_raw rfl
theorem mnot (d : BitVec 5) (a : BitVec 5) : Statement (.mnot d a) := of_raw rfl
theorem mpop (d : BitVec 5) (a : BitVec 5) : Statement (.mpop d a) := of_raw rfl
theorem mfirst (d : BitVec 5) (a : BitVec 5) : Statement (.mfirst d a) := of_raw rfl
theorem vred (d : BitVec 5) (a : BitVec 5) (b : BitVec 5) (o : BitVec 3) (p : BitVec 4) : Statement (.vred d a b o p) := of_raw rfl
theorem vfred (d : BitVec 5) (a : BitVec 5) (b : BitVec 5) (o : BitVec 3) (p : BitVec 4) : Statement (.vfred d a b o p) := of_raw rfl
theorem vscan (d : BitVec 5) (a : BitVec 5) (b : BitVec 5) (o : BitVec 3) (p : BitVec 4) : Statement (.vscan d a b o p) := of_raw rfl
theorem vscanFloat (d : BitVec 5) (a : BitVec 5) (b : BitVec 5) (o : BitVec 3) (p : BitVec 4) : Statement (.vscanFloat d a b o p) := of_raw rfl
theorem vslide (d : BitVec 5) (a : BitVec 5) (b : BitVec 5) (p : BitVec 4) : Statement (.vslide d a b p) := of_raw rfl
theorem vrgather (d : BitVec 5) (a : BitVec 5) (b : BitVec 5) (p : BitVec 4) : Statement (.vrgather d a b p) := of_raw rfl
theorem vcompress (d : BitVec 5) (a : BitVec 5) (b : BitVec 5) : Statement (.vcompress d a b) := of_raw rfl
theorem vid (d : BitVec 5) (p : BitVec 4) : Statement (.vid d p) := of_raw rfl
theorem vbcast (d : BitVec 5) (a : BitVec 5) (p : BitVec 4) : Statement (.vbcast d a p) := of_raw rfl
theorem vmvx (d : BitVec 5) (a : BitVec 5) (b : BitVec 5) : Statement (.vmvx d a b) := of_raw rfl
theorem vmvv (d : BitVec 5) (a : BitVec 5) (p : BitVec 4) : Statement (.vmvv d a p) := of_raw rfl
theorem vcvt (d : BitVec 5) (a : BitVec 5) (t : BitVec 5) (p : BitVec 4) : Statement (.vcvt d a t p) := of_raw rfl
theorem vcvtMx (d : BitVec 5) (a : BitVec 5) (b : BitVec 5) : Statement (.vcvtMx d a b) := of_raw rfl
theorem vpack (d : BitVec 5) (a : BitVec 5) : Statement (.vpack d a) := of_raw rfl
theorem vunpack (d : BitVec 5) (a : BitVec 5) : Statement (.vunpack d a) := of_raw rfl
theorem vld (d : BitVec 5) (a : BitVec 5) (p : BitVec 4) : Statement (.vld d a p) := of_raw rfl
theorem vlds (d : BitVec 5) (a : BitVec 5) (b : BitVec 5) (p : BitVec 4) : Statement (.vlds d a b p) := of_raw rfl
theorem vldx (d : BitVec 5) (a : BitVec 5) (b : BitVec 5) (p : BitVec 4) : Statement (.vldx d a b p) := of_raw rfl
theorem vldChase (d : BitVec 5) (a : BitVec 5) (b : BitVec 5) (p : BitVec 4) : Statement (.vldChase d a b p) := of_raw rfl
theorem vldseg (d : BitVec 5) (a : BitVec 5) (b : BitVec 5) (g : BitVec 6) (p : BitVec 4) : Statement (.vldseg d a b g p) := of_raw rfl
theorem vst (d : BitVec 5) (a : BitVec 5) (p : BitVec 4) : Statement (.vst d a p) := of_raw rfl
theorem vstU (d : BitVec 5) (a : BitVec 5) (p : BitVec 4) : Statement (.vstU d a p) := of_raw rfl
theorem vsts (d : BitVec 5) (a : BitVec 5) (b : BitVec 5) (p : BitVec 4) : Statement (.vsts d a b p) := of_raw rfl
theorem vstx (d : BitVec 5) (a : BitVec 5) (b : BitVec 5) (p : BitVec 4) : Statement (.vstx d a b p) := of_raw rfl
theorem vstxU (d : BitVec 5) (a : BitVec 5) (b : BitVec 5) (p : BitVec 4) : Statement (.vstxU d a b p) := of_raw rfl
theorem vamoAdd (d : BitVec 5) (a : BitVec 5) (b : BitVec 5) (p : BitVec 4) : Statement (.vamoAdd d a b p) := of_raw rfl
theorem cpTile (d : BitVec 5) (a : BitVec 5) : Statement (.cpTile d a) := of_raw rfl
theorem cpStream (d : BitVec 5) (a : BitVec 5) : Statement (.cpStream d a) := of_raw rfl
theorem cpGather (d : BitVec 5) (a : BitVec 5) (b : BitVec 5) (c : BitVec 3) : Statement (.cpGather d a b c) := of_raw rfl
theorem cpResume (d : BitVec 5) (a : BitVec 5) : Statement (.cpResume d a) := of_raw rfl
theorem cpCancel (d : BitVec 5) (a : BitVec 5) : Statement (.cpCancel d a) := of_raw rfl
theorem cpStatus (d : BitVec 5) (a : BitVec 5) : Statement (.cpStatus d a) := of_raw rfl
theorem cpMg (d : BitVec 5) (a : BitVec 5) : Statement (.cpMg d a) := of_raw rfl
theorem mgCheck (d : BitVec 5) (a : BitVec 5) : Statement (.mgCheck d a) := of_raw rfl
theorem cpKvs (d : BitVec 5) (a : BitVec 5) : Statement (.cpKvs d a) := of_raw rfl
theorem mattach (a : BitVec 5) : Statement (.mattach a) := of_raw rfl
theorem mdetach (a : BitVec 5) : Statement (.mdetach a) := of_raw rfl
theorem mshape (a : BitVec 5) : Statement (.mshape a) := of_raw rfl
theorem mldb (l : BitVec 1) (g : BitVec 2) : Statement (.mldb l g) := of_raw rfl
theorem mma (d : BitVec 3) (a : BitVec 5) (l : BitVec 1) : Statement (.mma d a l) := of_raw rfl
theorem mmaMx (d : BitVec 3) (a : BitVec 5) (b : BitVec 5) (l : BitVec 1) : Statement (.mmaMx d a b l) := of_raw rfl
theorem mzero (d : BitVec 3) : Statement (.mzero d) := of_raw rfl
theorem mdrain (g : BitVec 2) (t : BitVec 3) (b : BitVec 5) : Statement (.mdrain g t b) := of_raw rfl
theorem mfill (t : BitVec 3) (g : BitVec 2) (b : BitVec 5) : Statement (.mfill t g b) := of_raw rfl
theorem msave (t : BitVec 3) (a : BitVec 5) (b : BitVec 5) : Statement (.msave t a b) := of_raw rfl
theorem mload (t : BitVec 3) (a : BitVec 5) (b : BitVec 5) : Statement (.mload t a b) := of_raw rfl
theorem spawn (d : BitVec 5) (a : BitVec 5) (b : BitVec 5) (c : BitVec 5) : Statement (.spawn d a b c) := of_raw rfl
theorem spawnOn (d : BitVec 5) (a : BitVec 5) (b : BitVec 5) (c : BitVec 5) : Statement (.spawnOn d a b c) := of_raw rfl
theorem exit (a : BitVec 5) : Statement (.exit a) := of_raw rfl
theorem yield (a : BitVec 5) : Statement (.yield a) := of_raw rfl
theorem await (d : BitVec 5) (a : BitVec 5) (b : BitVec 5) : Statement (.await d a b) := of_raw rfl
theorem fnext (d : BitVec 5) (a : BitVec 5) : Statement (.fnext d a) := of_raw rfl
theorem farm (d : BitVec 5) (a : BitVec 5) (b : BitVec 5) : Statement (.farm d a b) := of_raw rfl
theorem vctxSave (d : BitVec 5) (a : BitVec 5) (b : BitVec 5) (c : BitVec 5) : Statement (.vctxSave d a b c) := of_raw rfl
theorem vctxRestore (d : BitVec 5) (a : BitVec 5) (b : BitVec 5) (c : BitVec 5) : Statement (.vctxRestore d a b c) := of_raw rfl
theorem preempt (d : BitVec 5) (a : BitVec 5) (b : BitVec 5) : Statement (.preempt d a b) := of_raw rfl
theorem crewBind (d : BitVec 5) (a : BitVec 5) : Statement (.crewBind d a) := of_raw rfl
theorem tkinit (d : BitVec 5) (a : BitVec 5) (b : BitVec 5) : Statement (.tkinit d a b) := of_raw rfl
theorem tkarrive (d : BitVec 5) (a : BitVec 5) (b : BitVec 5) (s : BitVec 3) : Statement (.tkarrive d a b s) := of_raw rfl
theorem tkexpect (d : BitVec 5) (a : BitVec 5) (b : BitVec 5) : Statement (.tkexpect d a b) := of_raw rfl
theorem tksig (d : BitVec 5) (a : BitVec 5) (b : BitVec 5) (s : BitVec 3) : Statement (.tksig d a b s) := of_raw rfl
theorem tkread (d : BitVec 5) (a : BitVec 5) (e : BitVec 1) : Statement (.tkread d a e) := of_raw rfl
theorem tkpoll (d : BitVec 5) (a : BitVec 5) (b : BitVec 5) : Statement (.tkpoll d a b) := of_raw rfl
theorem futSet (d : BitVec 5) (a : BitVec 5) (b : BitVec 5) (s : BitVec 3) : Statement (.futSet d a b s) := of_raw rfl
theorem futGet (d : BitVec 5) (a : BitVec 5) (b : BitVec 5) : Statement (.futGet d a b) := of_raw rfl
theorem send (d : BitVec 5) (a : BitVec 5) (b : BitVec 5) : Statement (.send d a b) := of_raw rfl
theorem recv (d : BitVec 5) (a : BitVec 5) (b : BitVec 5) : Statement (.recv d a b) := of_raw rfl
theorem post (d : BitVec 5) (a : BitVec 5) (b : BitVec 5) : Statement (.post d a b) := of_raw rfl
theorem pcommit (d : BitVec 5) (a : BitVec 5) (b : BitVec 5) : Statement (.pcommit d a b) := of_raw rfl
theorem pdecommit (d : BitVec 5) (a : BitVec 5) (b : BitVec 5) : Statement (.pdecommit d a b) := of_raw rfl
theorem palloc (d : BitVec 5) (a : BitVec 5) : Statement (.palloc d a) := of_raw rfl
theorem pfree (d : BitVec 5) (a : BitVec 5) (b : BitVec 5) : Statement (.pfree d a b) := of_raw rfl
theorem tlbinv (d : BitVec 5) (a : BitVec 5) (b : BitVec 5) (c : BitVec 5) : Statement (.tlbinv d a b c) := of_raw rfl
theorem space (d : BitVec 5) (a : BitVec 5) (b : BitVec 5) : Statement (.space d a b) := of_raw rfl
theorem topk (d : BitVec 5) (a : BitVec 5) (b : BitVec 5) (s : BitVec 2) : Statement (.topk d a b s) := of_raw rfl
theorem umRound (d : BitVec 5) (a : BitVec 5) (b : BitVec 5) : Statement (.umRound d a b) := of_raw rfl
theorem umDirty (d : BitVec 5) (a : BitVec 5) : Statement (.umDirty d a) := of_raw rfl
theorem wopen (d : BitVec 5) (a : BitVec 5) : Statement (.wopen d a) := of_raw rfl
theorem wclose (d : BitVec 5) (a : BitVec 5) (b : BitVec 5) : Statement (.wclose d a b) := of_raw rfl
theorem wld (d : BitVec 5) (a : BitVec 5) (n : BitVec 2) (q : BitVec 1) : Statement (.wld d a n q) := of_raw rfl
theorem wst (d : BitVec 5) (a : BitVec 5) (b : BitVec 5) (c : BitVec 5) : Statement (.wst d a b c) := of_raw rfl
theorem wfenceFlag (d : BitVec 5) (a : BitVec 5) (b : BitVec 5) : Statement (.wfenceFlag d a b) := of_raw rfl
theorem wamoAdd (d : BitVec 5) (a : BitVec 5) (b : BitVec 5) (q : BitVec 1) (l : BitVec 1) : Statement (.wamoAdd d a b q l) := of_raw rfl
theorem wamoAnd (d : BitVec 5) (a : BitVec 5) (b : BitVec 5) (q : BitVec 1) (l : BitVec 1) : Statement (.wamoAnd d a b q l) := of_raw rfl
theorem wamoOr (d : BitVec 5) (a : BitVec 5) (b : BitVec 5) (q : BitVec 1) (l : BitVec 1) : Statement (.wamoOr d a b q l) := of_raw rfl
theorem wamoXor (d : BitVec 5) (a : BitVec 5) (b : BitVec 5) (q : BitVec 1) (l : BitVec 1) : Statement (.wamoXor d a b q l) := of_raw rfl
theorem wamoMin (d : BitVec 5) (a : BitVec 5) (b : BitVec 5) (q : BitVec 1) (l : BitVec 1) : Statement (.wamoMin d a b q l) := of_raw rfl
theorem wamoMax (d : BitVec 5) (a : BitVec 5) (b : BitVec 5) (q : BitVec 1) (l : BitVec 1) : Statement (.wamoMax d a b q l) := of_raw rfl
theorem wamoMinn (d : BitVec 5) (a : BitVec 5) (b : BitVec 5) (q : BitVec 1) (l : BitVec 1) : Statement (.wamoMinn d a b q l) := of_raw rfl
theorem wamoMaxn (d : BitVec 5) (a : BitVec 5) (b : BitVec 5) (q : BitVec 1) (l : BitVec 1) : Statement (.wamoMaxn d a b q l) := of_raw rfl
theorem wamoSwap (d : BitVec 5) (a : BitVec 5) (b : BitVec 5) (q : BitVec 1) (l : BitVec 1) : Statement (.wamoSwap d a b q l) := of_raw rfl
theorem wamoCas (d : BitVec 5) (a : BitVec 5) (b : BitVec 5) (q : BitVec 1) (l : BitVec 1) : Statement (.wamoCas d a b q l) := of_raw rfl
theorem cAdd (a : BitVec 5) : Statement (.cAdd a) := of_compact rfl
theorem cSub (a : BitVec 5) : Statement (.cSub a) := of_compact rfl
theorem cAnd (a : BitVec 5) : Statement (.cAnd a) := of_compact rfl
theorem cOr (a : BitVec 5) : Statement (.cOr a) := of_compact rfl
theorem cXor (a : BitVec 5) : Statement (.cXor a) := of_compact rfl
theorem cMul (a : BitVec 5) : Statement (.cMul a) := of_compact rfl
theorem cAddi (i : BitVec 10) : Statement (.cAddi i) := of_compact rfl
theorem cSlli (a : BitVec 5) (h : BitVec 1) : Statement (.cSlli a h) := of_compact rfl
theorem cSrli (a : BitVec 5) (h : BitVec 1) : Statement (.cSrli a h) := of_compact rfl
theorem cSrai (a : BitVec 5) (h : BitVec 1) : Statement (.cSrai a h) := of_compact rfl
theorem cLd (a : BitVec 5) (b : BitVec 5) : Statement (.cLd a b) := of_compact rfl
theorem cSt (a : BitVec 5) (b : BitVec 5) : Statement (.cSt a b) := of_compact rfl
theorem cVadd (a : BitVec 5) : Statement (.cVadd a) := of_compact rfl
theorem cVsub (a : BitVec 5) : Statement (.cVsub a) := of_compact rfl
theorem cVmul (a : BitVec 5) : Statement (.cVmul a) := of_compact rfl
theorem cVmacc (a : BitVec 5) (b : BitVec 5) : Statement (.cVmacc a b) := of_compact rfl
theorem cVfadd (a : BitVec 5) : Statement (.cVfadd a) := of_compact rfl
theorem cVfsub (a : BitVec 5) : Statement (.cVfsub a) := of_compact rfl
theorem cVfmul (a : BitVec 5) : Statement (.cVfmul a) := of_compact rfl
theorem cVfma (a : BitVec 5) (b : BitVec 5) : Statement (.cVfma a b) := of_compact rfl
theorem cVfmin (a : BitVec 5) : Statement (.cVfmin a) := of_compact rfl
theorem cVfmax (a : BitVec 5) : Statement (.cVfmax a) := of_compact rfl
theorem cVand (a : BitVec 5) : Statement (.cVand a) := of_compact rfl
theorem cVor (a : BitVec 5) : Statement (.cVor a) := of_compact rfl
theorem cVxor (a : BitVec 5) : Statement (.cVxor a) := of_compact rfl
theorem cVmin (a : BitVec 5) : Statement (.cVmin a) := of_compact rfl
theorem cVmax (a : BitVec 5) : Statement (.cVmax a) := of_compact rfl

end Sys2Proof.Laws.EncodedLength
end

