-- ==== Sys2Proof/Tests/Slice0.lean ====
section
/-!
SUPPORT. Tests: words written out from the spec's encodings, the checks of well-formedness, small steps with results worked out from the
rules, and for each statement with hypotheses states and operands that meet them.
-/

namespace Sys2Proof.Tests

open Sys2Proof Sys2Proof.Machine

-- One theorem after another: each waits for the kernel, and many at once need more threads than a run may have.
set_option Elab.async false

/-! ## States for the tests -/

/-- A context with the scalar registers listed. -/
def regs (l : List (Nat × Word)) : Ctx :=
  { Ctx.reset with x := Vector.ofFn fun i => ((l.find? fun p => p.1 = i.val).map fun p => p.2).getD 0#64 }

/-- A slot of core 0. -/
def slotAt (n : BitVec 8) (st : SlotState) : Slot := { Slot.fresh 0#10 n ⟨0#64, 0#64, 0#64, 0#64, 2#2, 0, 3#3⟩ with state := st }

/-- The translations that movement 0 holds for asid 0 and for crew 1: 0x1000 to HBM (WB), 0x2000 to HBM (UC), 0x3000 to HBM read only, 0x4000
to the user part of core 0's scratchpad, 0x5000 to host memory, 0x6000 to core 0's token cells. -/
def tlb : List TlbEntry :=
  [0#16, 0x101#16].flatMap fun a => [⟨a, 0x1000, 0x1000, 0x70000, 0#2, true, true, true, true, false, false⟩, ⟨a, 0x2000, 0x1000, 0x80000, 2#2, true, true, true, true, false, false⟩,
    ⟨a, 0x3000, 0x1000, 0x90000, 0#2, true, false, true, true, false, false⟩, ⟨a, 0x4000, 0x1000, 0x10000010000, 0#2, true, true, true, true, false, false⟩,
    ⟨a, 0x5000, 0x1000, 0x80000000004000, 0#2, true, true, true, true, false, false⟩, ⟨a, 0x6000, 0x1000, 0x10000001000, 0#2, false, true, true, true, false, false⟩]

/-- Crew 1. -/
def crew1 : Crew := ⟨1#7, 0xA010100000000000#64, 1#5, 8#5, 0x40000, 0, 0, false, false, 0#20, 0x20000, 0x30000⟩

/-- A booted device: on core 0, bound to crew 1, the coroutine of slot `n` runs. -/
def dev (n : BitVec 8) (c : Ctx) : State :=
  { State.reset with
    me := { Core.reset 0#10 with run := some n, ctx := c, slots := [slotAt n .running], bound := 1#7, space := 0xA010100000000000#64 }
    supSpace := 0xA000000000000000#64
    movements := [{ Movement.reset 0#8 with tlb := tlb }]
    crews := [crew1]
    kerlo := { Kerlo.reset with ready := true } }

/-- The state after an instruction. -/
def after (i : Instr) (s : State) : State :=
  match exec i s with
  | .next t => t
  | .fault _ => s
  | .refused _ => s

theorem test_decode_add_to_popc : ∀ p ∈ ([
    (0x0026A283, .add 5#5 10#5 19#5), (0x0826A283, .sub 5#5 10#5 19#5), (0x1026A283, .and 5#5 10#5 19#5),
    (0x1826A283, .or 5#5 10#5 19#5), (0x2026A283, .xor 5#5 10#5 19#5), (0x2826A283, .sll 5#5 10#5 19#5),
    (0x3026A283, .srl 5#5 10#5 19#5), (0x3826A283, .sra 5#5 10#5 19#5), (0x4026A283, .slt 5#5 10#5 19#5),
    (0x4826A283, .sltn 5#5 10#5 19#5), (0x5026A283, .mul 5#5 10#5 19#5), (0x5826A283, .mulh 5#5 10#5 19#5),
    (0x6026A283, .mulhn 5#5 10#5 19#5), (0x6826A283, .div 5#5 10#5 19#5), (0x7026A283, .divn 5#5 10#5 19#5),
    (0x7826A283, .rem 5#5 10#5 19#5), (0x8026A283, .remn 5#5 10#5 19#5), (0x8826A283, .min 5#5 10#5 19#5),
    (0x9026A283, .max 5#5 10#5 19#5), (0x9826A283, .minn 5#5 10#5 19#5), (0xA026A283, .maxn 5#5 10#5 19#5),
    (0xA800A283, .clz 5#5 10#5), (0xB000A283, .ctz 5#5 10#5), (0xB800A283, .popc 5#5 10#5)] : List (Nat × Instr)), decodeTableWord 32 p.1 = some p.2 := by
  decide

theorem test_decode_addi_to_bne : ∀ p ∈ ([
    (0x054AA285, .addi 5#5 10#5 677#15), (0x054AA287, .andi 5#5 10#5 677#15), (0x054AA289, .ori 5#5 10#5 677#15),
    (0x054AA28B, .xori 5#5 10#5 677#15), (0x004AA28D, .slli 5#5 10#5 37#6), (0x004AA28F, .srli 5#5 10#5 37#6),
    (0x004AA291, .srai 5#5 10#5 37#6), (0x054AA293, .slti 5#5 10#5 677#15), (0x054AA295, .sltni 5#5 10#5 677#15),
    (0x9A5C3297, .lim 5#5 632259#20), (0x9A5C3299, .ipc 5#5 632259#20), (0x054AA29B, .ldI8 5#5 10#5 677#15),
    (0x054AA29D, .ldN8 5#5 10#5 677#15), (0x054AA29F, .ldI16 5#5 10#5 677#15), (0x054AA2A1, .ldN16 5#5 10#5 677#15),
    (0x054AA2A3, .ldI32 5#5 10#5 677#15), (0x054AA2A5, .ldN32 5#5 10#5 677#15), (0x054AA2A7, .ld64 5#5 10#5 677#15),
    (0x054AA2A9, .st8 5#5 10#5 677#15), (0x054AA2AB, .st16 5#5 10#5 677#15), (0x054AA2AD, .st32 5#5 10#5 677#15),
    (0x054AA2AF, .st64 5#5 10#5 677#15), (0xB5273531, .beq 10#5 19#5 23187#15), (0xB5273533, .bne 10#5 19#5 23187#15)] : List (Nat × Instr)), decodeTableWord 32 p.1 = some p.2 := by
  decide

theorem test_decode_blt_to_fminF64 : ∀ p ∈ ([
    (0xB5273535, .blt 10#5 19#5 23187#15), (0xB5273537, .bge 10#5 19#5 23187#15), (0xB5273539, .bltn 10#5 19#5 23187#15),
    (0xB527353B, .bgen 10#5 19#5 23187#15), (0x91A2B3BD, .jal 19088743#25), (0x054AA2BF, .jalr 5#5 10#5 677#15),
    (0x0026A2C1, .faddF32 5#5 10#5 19#5), (0x0826A2C1, .fsubF32 5#5 10#5 19#5), (0x1026A2C1, .fmulF32 5#5 10#5 19#5),
    (0x1826A2C1, .fdivF32 5#5 10#5 19#5), (0x2000A2C1, .fsqrtF32 5#5 10#5), (0x2F66A2C1, .fmaddF32 5#5 10#5 19#5 29#5),
    (0x3026A2C1, .fminF32 5#5 10#5 19#5), (0x3826A2C1, .fmaxF32 5#5 10#5 19#5), (0x40E6A2C1, .fcmpF32 5#5 10#5 19#5 3#5),
    (0x4900A2C1, .fcvtF32 5#5 10#5 4#5), (0x5000A2C1, .fclassF32 5#5 10#5), (0x0026A2C3, .faddF64 5#5 10#5 19#5),
    (0x0826A2C3, .fsubF64 5#5 10#5 19#5), (0x1026A2C3, .fmulF64 5#5 10#5 19#5), (0x1826A2C3, .fdivF64 5#5 10#5 19#5),
    (0x2000A2C3, .fsqrtF64 5#5 10#5), (0x2F66A2C3, .fmaddF64 5#5 10#5 19#5 29#5), (0x3026A2C3, .fminF64 5#5 10#5 19#5)] : List (Nat × Instr)), decodeTableWord 32 p.1 = some p.2 := by
  decide

theorem test_decode_fmaxF64_to_stRl : ∀ p ∈ ([
    (0x3826A2C3, .fmaxF64 5#5 10#5 19#5), (0x40E6A2C3, .fcmpF64 5#5 10#5 19#5 3#5), (0x4900A2C3, .fcvtF64 5#5 10#5 4#5),
    (0x5000A2C3, .fclassF64 5#5 10#5), (0x18240AC5, .crd 21#5 3090#12), (0x38256045, .cwr 3090#12 22#5),
    (0x58256045, .cset 3090#12 22#5), (0x78256045, .cclr 3090#12 22#5), (0x95780045, .svc 2748#12), (0xA0000045, .tret),
    (0xD5780045, .brk 2748#12), (0xE0000045, .ifence), (0x06E6A2C7, .amoAdd 5#5 10#5 19#5 1#1 1#1 3#3),
    (0x0EE6A2C7, .amoAnd 5#5 10#5 19#5 1#1 1#1 3#3), (0x16E6A2C7, .amoOr 5#5 10#5 19#5 1#1 1#1 3#3),
    (0x1EE6A2C7, .amoXor 5#5 10#5 19#5 1#1 1#1 3#3), (0x26E6A2C7, .amoMin 5#5 10#5 19#5 1#1 1#1 3#3),
    (0x2EE6A2C7, .amoMax 5#5 10#5 19#5 1#1 1#1 3#3), (0x36E6A2C7, .amoMinn 5#5 10#5 19#5 1#1 1#1 3#3),
    (0x3EE6A2C7, .amoMaxn 5#5 10#5 19#5 1#1 1#1 3#3), (0x46E6A2C7, .amoSwap 5#5 10#5 19#5 1#1 1#1 3#3),
    (0x4EE6A2C7, .amoCas 5#5 10#5 19#5 1#1 1#1 3#3), (0x84C0A2C7, .ldAq 5#5 10#5 3#3), (0x8AC0A2C7, .stRl 5#5 10#5 3#3)] : List (Nat × Instr)), decodeTableWord 32 p.1 = some p.2 := by
  decide

theorem test_decode_fenceAcq_to_vdivVx : ∀ p ∈ ([
    (0x02C00049, .fenceAcq 3#3), (0x04C00049, .fenceRel 3#3), (0x06C00049, .fence 3#3), (0x08E6A2C9, .vfenceArrive 5#5 10#5 19#5 3#3),
    (0x1026A049, .cclean 10#5 19#5), (0x1826A049, .cinval 10#5 19#5), (0x0026A2CB, .vset 5#5 10#5 19#5),
    (0x141AA2CD, .vseti 5#5 10#5 2573#12), (0x0800004B, .vrel), (0x1000004B, .vsync), (0x0266A2CF, .vaddVv 5#5 10#5 19#5 9#4),
    (0x0266A2D1, .vaddVx 5#5 10#5 19#5 9#4), (0x0666A2CF, .vsubVv 5#5 10#5 19#5 9#4), (0x0666A2D1, .vsubVx 5#5 10#5 19#5 9#4),
    (0x0A66A2CF, .vmulVv 5#5 10#5 19#5 9#4), (0x0A66A2D1, .vmulVx 5#5 10#5 19#5 9#4), (0x0E66A2CF, .vmulhVv 5#5 10#5 19#5 9#4),
    (0x0E66A2D1, .vmulhVx 5#5 10#5 19#5 9#4), (0x1266A2CF, .vmaccVv 5#5 10#5 19#5 9#4), (0x1266A2D1, .vmaccVx 5#5 10#5 19#5 9#4),
    (0x1666A2CF, .vnmsacVv 5#5 10#5 19#5 9#4), (0x1666A2D1, .vnmsacVx 5#5 10#5 19#5 9#4), (0x1A66A2CF, .vdivVv 5#5 10#5 19#5 9#4),
    (0x1A66A2D1, .vdivVx 5#5 10#5 19#5 9#4)] : List (Nat × Instr)), decodeTableWord 32 p.1 = some p.2 := by
  decide

theorem test_decode_vremVv_to_vwaddVx : ∀ p ∈ ([
    (0x1E66A2CF, .vremVv 5#5 10#5 19#5 9#4), (0x1E66A2D1, .vremVx 5#5 10#5 19#5 9#4), (0x2266A2CF, .vminVv 5#5 10#5 19#5 9#4),
    (0x2266A2D1, .vminVx 5#5 10#5 19#5 9#4), (0x2666A2CF, .vmaxVv 5#5 10#5 19#5 9#4), (0x2666A2D1, .vmaxVx 5#5 10#5 19#5 9#4),
    (0x2A66A2CF, .vandVv 5#5 10#5 19#5 9#4), (0x2A66A2D1, .vandVx 5#5 10#5 19#5 9#4), (0x2E66A2CF, .vorVv 5#5 10#5 19#5 9#4),
    (0x2E66A2D1, .vorVx 5#5 10#5 19#5 9#4), (0x3266A2CF, .vxorVv 5#5 10#5 19#5 9#4), (0x3266A2D1, .vxorVx 5#5 10#5 19#5 9#4),
    (0x3666A2CF, .vsllVv 5#5 10#5 19#5 9#4), (0x3666A2D1, .vsllVx 5#5 10#5 19#5 9#4), (0x3A66A2CF, .vsrlVv 5#5 10#5 19#5 9#4),
    (0x3A66A2D1, .vsrlVx 5#5 10#5 19#5 9#4), (0x3E66A2CF, .vsraVv 5#5 10#5 19#5 9#4), (0x3E66A2D1, .vsraVx 5#5 10#5 19#5 9#4),
    (0x4266A2CF, .vaddsVv 5#5 10#5 19#5 9#4), (0x4266A2D1, .vaddsVx 5#5 10#5 19#5 9#4), (0x4666A2CF, .vsubsVv 5#5 10#5 19#5 9#4),
    (0x4666A2D1, .vsubsVx 5#5 10#5 19#5 9#4), (0x4A66A2CF, .vwaddVv 5#5 10#5 19#5 9#4), (0x4A66A2D1, .vwaddVx 5#5 10#5 19#5 9#4)] : List (Nat × Instr)), decodeTableWord 32 p.1 = some p.2 := by
  decide

theorem test_decode_vwmulVv_to_vfmaxVx : ∀ p ∈ ([
    (0x4E66A2CF, .vwmulVv 5#5 10#5 19#5 9#4), (0x4E66A2D1, .vwmulVx 5#5 10#5 19#5 9#4), (0x5266A2CF, .vwmaccVv 5#5 10#5 19#5 9#4),
    (0x5266A2D1, .vwmaccVx 5#5 10#5 19#5 9#4), (0x5666A2CF, .vnclipVv 5#5 10#5 19#5 9#4), (0x5666A2D1, .vnclipVx 5#5 10#5 19#5 9#4),
    (0x5A66A2CF, .vselVv 5#5 10#5 19#5 9#4), (0x5A66A2D1, .vselVx 5#5 10#5 19#5 9#4), (0x5E66A2CF, .vfaddVv 5#5 10#5 19#5 9#4),
    (0x5E66A2D1, .vfaddVx 5#5 10#5 19#5 9#4), (0x6266A2CF, .vfsubVv 5#5 10#5 19#5 9#4), (0x6266A2D1, .vfsubVx 5#5 10#5 19#5 9#4),
    (0x6666A2CF, .vfmulVv 5#5 10#5 19#5 9#4), (0x6666A2D1, .vfmulVx 5#5 10#5 19#5 9#4), (0x6A66A2CF, .vfdivVv 5#5 10#5 19#5 9#4),
    (0x6A66A2D1, .vfdivVx 5#5 10#5 19#5 9#4), (0x6E66A2CF, .vfmaVv 5#5 10#5 19#5 9#4), (0x6E66A2D1, .vfmaVx 5#5 10#5 19#5 9#4),
    (0x7266A2CF, .vfnmaVv 5#5 10#5 19#5 9#4), (0x7266A2D1, .vfnmaVx 5#5 10#5 19#5 9#4), (0x7666A2CF, .vfminVv 5#5 10#5 19#5 9#4),
    (0x7666A2D1, .vfminVx 5#5 10#5 19#5 9#4), (0x7A66A2CF, .vfmaxVv 5#5 10#5 19#5 9#4), (0x7A66A2D1, .vfmaxVx 5#5 10#5 19#5 9#4)] : List (Nat × Instr)), decodeTableWord 32 p.1 = some p.2 := by
  decide

theorem test_decode_vfsqrt_to_vmvx : ∀ p ∈ ([
    (0x7E40A2CF, .vfsqrt 5#5 10#5 9#4), (0x8240A2CF, .vfrsqrt 5#5 10#5 9#4), (0x8640A2CF, .vfrcp 5#5 10#5 9#4),
    (0x8A40A2CF, .vfexp2 5#5 10#5 9#4), (0x8E40A2CF, .vflog2 5#5 10#5 9#4), (0x9240A2CF, .vftanh 5#5 10#5 9#4),
    (0x9266A353, .vcmp 6#5 10#5 19#5 1#1 4#4 9#4), (0xD266A353, .vfcmp 6#5 10#5 19#5 1#1 4#4 9#4), (0x000E22D5, .mand 5#5 2#5 7#5),
    (0x040E22D5, .mor 5#5 2#5 7#5), (0x080E22D5, .mxor 5#5 2#5 7#5), (0x0C0022D5, .mnot 5#5 2#5), (0x10006AD5, .mpop 21#5 6#5),
    (0x14006AD5, .mfirst 21#5 6#5), (0x4246AAD7, .vred 21#5 10#5 3#5 2#3 9#4), (0x4646AAD7, .vfred 21#5 10#5 3#5 2#3 9#4),
    (0x4A46AAD7, .vscan 21#5 10#5 3#5 2#3 9#4), (0x4E46AAD7, .vscanFloat 21#5 10#5 3#5 2#3 9#4),
    (0x0266A2D9, .vslide 5#5 10#5 19#5 9#4), (0x0666A2D9, .vrgather 5#5 10#5 19#5 9#4), (0x080CA2D9, .vcompress 5#5 10#5 6#5),
    (0x0E4002D9, .vid 5#5 9#4), (0x1240A2D9, .vbcast 5#5 10#5 9#4), (0x1426A2D9, .vmvx 5#5 10#5 19#5)] : List (Nat × Instr)), decodeTableWord 32 p.1 = some p.2 := by
  decide

theorem test_decode_vmvv_to_mgCheck : ∀ p ∈ ([
    (0x1A40A2D9, .vmvv 5#5 10#5 9#4), (0x0242A2DB, .vcvt 5#5 10#5 1#5 9#4), (0x0426A2DB, .vcvtMx 5#5 10#5 19#5),
    (0x0800A2DB, .vpack 5#5 10#5), (0x0C00A2DB, .vunpack 5#5 10#5), (0x0240A2DD, .vld 5#5 10#5 9#4),
    (0x0666A2DD, .vlds 5#5 10#5 19#5 9#4), (0x0A66A2DD, .vldx 5#5 10#5 19#5 9#4), (0x0E66A2DD, .vldChase 5#5 10#5 19#5 9#4),
    (0x2E66A2DD, .vldseg 5#5 10#5 19#5 11#6 9#4), (0x0240A2DF, .vst 5#5 10#5 9#4), (0x0640A2DF, .vstU 5#5 10#5 9#4),
    (0x0A66A2DF, .vsts 5#5 10#5 19#5 9#4), (0x0E66A2DF, .vstx 5#5 10#5 19#5 9#4), (0x1266A2DF, .vstxU 5#5 10#5 19#5 9#4),
    (0x1666A2DF, .vamoAdd 5#5 10#5 19#5 9#4), (0x0000A2E1, .cpTile 5#5 10#5), (0x0800A2E1, .cpStream 5#5 10#5),
    (0x10A6A2E1, .cpGather 5#5 10#5 19#5 2#3), (0x1800A2E1, .cpResume 5#5 10#5), (0x2000A2E1, .cpCancel 5#5 10#5),
    (0x2800A2E1, .cpStatus 5#5 10#5), (0x3000A2E1, .cpMg 5#5 10#5), (0x3800A2E1, .mgCheck 5#5 10#5)] : List (Nat × Instr)), decodeTableWord 32 p.1 = some p.2 := by
  decide

theorem test_decode_cpKvs_to_tkinit : ∀ p ∈ ([
    (0x4000A2E1, .cpKvs 5#5 10#5), (0x0000A063, .mattach 10#5), (0x0400A063, .mdetach 10#5), (0x0800A063, .mshape 10#5),
    (0x0C500063, .mldb 1#1 1#2), (0x1040A2E3, .mma 5#3 10#5 1#1), (0x1466A2E3, .mmaMx 5#3 10#5 19#5 1#1), (0x180002E3, .mzero 5#3),
    (0x1C261463, .mdrain 1#2 1#3 19#5), (0x202680E3, .mfill 1#3 1#2 19#5), (0x2426A0E3, .msave 1#3 10#5 19#5),
    (0x2826A0E3, .mload 1#3 10#5 19#5), (0x00A6A2E5, .spawn 5#5 10#5 19#5 2#5), (0x08A6A2E5, .spawnOn 5#5 10#5 19#5 2#5),
    (0x1000A065, .exit 10#5), (0x1800A065, .yield 10#5), (0x2026A2E5, .await 5#5 10#5 19#5), (0x2800A2E5, .fnext 5#5 10#5),
    (0x3026A2E5, .farm 5#5 10#5 19#5), (0x38A6A2E5, .vctxSave 5#5 10#5 19#5 2#5), (0x40A6A2E5, .vctxRestore 5#5 10#5 19#5 2#5),
    (0x4826A2E5, .preempt 5#5 10#5 19#5), (0x5000A2E5, .crewBind 5#5 10#5), (0x0026A2E7, .tkinit 5#5 10#5 19#5)] : List (Nat × Instr)), decodeTableWord 32 p.1 = some p.2 := by
  decide

theorem test_decode_tkarrive_to_wfenceFlag : ∀ p ∈ ([
    (0x08E6A2E7, .tkarrive 5#5 10#5 19#5 3#3), (0x1026A2E7, .tkexpect 5#5 10#5 19#5), (0x18E6A2E7, .tksig 5#5 10#5 19#5 3#3),
    (0x2040A2E7, .tkread 5#5 10#5 1#1), (0x2826A2E7, .tkpoll 5#5 10#5 19#5), (0x30E6A2E7, .futSet 5#5 10#5 19#5 3#3),
    (0x3826A2E7, .futGet 5#5 10#5 19#5), (0x4026A2E7, .send 5#5 10#5 19#5), (0x4826A2E7, .recv 5#5 10#5 19#5),
    (0x5026A2E7, .post 5#5 10#5 19#5), (0x0026A2E9, .pcommit 5#5 10#5 19#5), (0x0826A2E9, .pdecommit 5#5 10#5 19#5),
    (0x1000A2E9, .palloc 5#5 10#5), (0x1826A2E9, .pfree 5#5 10#5 19#5), (0x20A6A2E9, .tlbinv 5#5 10#5 19#5 2#5),
    (0x2826A2E9, .space 5#5 10#5 19#5), (0x00E6A2EB, .topk 5#5 10#5 19#5 3#2), (0x0826A2EB, .umRound 5#5 10#5 19#5),
    (0x1000A2EB, .umDirty 5#5 10#5), (0x0000A2ED, .wopen 5#5 10#5), (0x0826A2ED, .wclose 5#5 10#5 19#5),
    (0x1400A2ED, .wld 5#5 10#5 0#2 1#1), (0x18A6A2ED, .wst 5#5 10#5 19#5 2#5), (0x2026A2ED, .wfenceFlag 5#5 10#5 19#5)] : List (Nat × Instr)), decodeTableWord 32 p.1 = some p.2 := by
  decide

theorem test_decode_wamoAdd_to_wamoCas : ∀ p ∈ ([
    (0x8626A2ED, .wamoAdd 5#5 10#5 19#5 1#1 1#1), (0x8E26A2ED, .wamoAnd 5#5 10#5 19#5 1#1 1#1),
    (0x9626A2ED, .wamoOr 5#5 10#5 19#5 1#1 1#1), (0x9E26A2ED, .wamoXor 5#5 10#5 19#5 1#1 1#1),
    (0xA626A2ED, .wamoMin 5#5 10#5 19#5 1#1 1#1), (0xAE26A2ED, .wamoMax 5#5 10#5 19#5 1#1 1#1),
    (0xB626A2ED, .wamoMinn 5#5 10#5 19#5 1#1 1#1), (0xBE26A2ED, .wamoMaxn 5#5 10#5 19#5 1#1 1#1),
    (0xC626A2ED, .wamoSwap 5#5 10#5 19#5 1#1 1#1), (0xCE26A2ED, .wamoCas 5#5 10#5 19#5 1#1 1#1)] : List (Nat × Instr)), decodeTableWord 32 p.1 = some p.2 := by
  decide

theorem test_decode_compact : ∀ p ∈ ([
    (0x0282, .cAdd 10#5), (0x0284, .cSub 10#5), (0x0286, .cAnd 10#5), (0x0288, .cOr 10#5), (0x028A, .cXor 10#5), (0x028C, .cMul 10#5),
    (0xB4CE, .cAddi 723#10), (0x0A90, .cSlli 10#5 1#1), (0x0A92, .cSrli 10#5 1#1), (0x0A94, .cSrai 10#5 1#1), (0x9A96, .cLd 10#5 19#5),
    (0x9A98, .cSt 10#5 19#5), (0x02A0, .cVadd 10#5), (0x02A2, .cVsub 10#5), (0x02A4, .cVmul 10#5), (0x9AA6, .cVmacc 10#5 19#5),
    (0x02A8, .cVfadd 10#5), (0x02AA, .cVfsub 10#5), (0x02AC, .cVfmul 10#5), (0x9AAE, .cVfma 10#5 19#5), (0x02B0, .cVfmin 10#5),
    (0x02B2, .cVfmax 10#5), (0x02B4, .cVand 10#5), (0x02B6, .cVor 10#5), (0x02B8, .cVxor 10#5), (0x02BA, .cVmin 10#5),
    (0x02BC, .cVmax 10#5)] : List (Nat × Instr)), decodeTableWord 16 p.1 = some p.2 := by
  decide

/-! ## Well-formedness: a term that each check refuses -/

/-- Scope codes above 5, and above 4 for a token operation (R38). -/
theorem test_wf_scopes : ∀ i ∈ [Instr.amoAdd 1#5 2#5 3#5 0#1 0#1 6#3, .amoAnd 1#5 2#5 3#5 0#1 0#1 6#3, .amoOr 1#5 2#5 3#5 0#1 0#1 6#3,
    .amoXor 1#5 2#5 3#5 0#1 0#1 6#3, .amoMin 1#5 2#5 3#5 0#1 0#1 6#3, .amoMax 1#5 2#5 3#5 0#1 0#1 6#3, .amoMinn 1#5 2#5 3#5 0#1 0#1 6#3,
    .amoMaxn 1#5 2#5 3#5 0#1 0#1 6#3, .amoSwap 1#5 2#5 3#5 0#1 0#1 7#3, .amoCas 1#5 2#5 3#5 0#1 0#1 6#3, .ldAq 1#5 2#5 6#3, .stRl 1#5 2#5 7#3,
    .fenceAcq 6#3, .fenceRel 6#3, .fence 7#3, .vfenceArrive 1#5 2#5 3#5 6#3, .tkarrive 1#5 2#5 3#5 5#3, .tksig 1#5 2#5 3#5 5#3,
    .futSet 1#5 2#5 3#5 5#3], i.wf = false := by decide

/-- Control register numbers that Table 2.10 leaves out, conversions and conditions above their last code (R42 to R44). -/
theorem test_wf_numbers : ∀ i ∈ [Instr.crd 1#5 9#12, .cwr 0x012#12 1#5, .cset 0x023#12 1#5, .cclr 0xC02#12 1#5, .crd 1#5 0xC17#12, .crd 1#5 0x034#12,
    .fcmpF32 1#5 2#5 3#5 4#5, .fcmpF64 1#5 2#5 3#5 4#5, .fcvtF32 1#5 2#5 5#5, .fcvtF64 1#5 2#5 5#5, .vseti 1#5 2#5 19#12, .vcvt 1#5 2#5 19#5 0#4,
    .vcmp 1#5 2#5 3#5 0#1 6#4 0#4, .vcmp 8#5 2#5 3#5 0#1 0#4 0#4, .vfcmp 1#5 2#5 3#5 0#1 8#4 0#4, .vfcmp 8#5 2#5 3#5 0#1 0#4 0#4],
    i.wf = false := by decide

/-- Mask registers above 7, shadow registers above 3, operations above their last code, vsel without a predicate, segments of fewer than 2 or more
than 8 fields, and cclean and cinval of the whole cache with a length (R37, R38, R41, R45, R293). -/
theorem test_wf_registers : ∀ i ∈ [Instr.mand 8#5 0#5 0#5, .mor 0#5 8#5 0#5, .mxor 0#5 0#5 8#5, .mnot 8#5 0#5, .mnot 0#5 8#5, .mpop 1#5 8#5,
    .mfirst 1#5 8#5, .vcompress 1#5 2#5 8#5, .vred 1#5 2#5 4#5 0#3 0#4, .vred 1#5 2#5 0#5 6#3 0#4, .vfred 1#5 2#5 0#5 3#3 0#4, .vfred 1#5 2#5 4#5 0#3 0#4,
    .vscan 1#5 2#5 4#5 0#3 0#4, .vscan 1#5 2#5 0#5 6#3 0#4, .vscanFloat 1#5 2#5 4#5 0#3 0#4, .vscanFloat 1#5 2#5 0#5 3#3 0#4, .vselVv 1#5 2#5 3#5 0#4,
    .vselVx 1#5 2#5 3#5 0#4, .vldseg 1#5 2#5 3#5 9#6 0#4, .vldseg 1#5 2#5 3#5 17#6 0#4, .cclean 0#5 1#5, .cinval 0#5 1#5], i.wf = false := by decide

/-- The boundary values that each check admits. -/
theorem test_wf_admits : ∀ i ∈ [Instr.amoAdd 1#5 2#5 3#5 1#1 1#1 5#3, .tkarrive 1#5 2#5 3#5 4#3, .crd 1#5 0xC16#12, .crd 1#5 8#12, .cwr 0x033#12 1#5,
    .fcmpF32 1#5 2#5 3#5 3#5, .fcvtF64 1#5 2#5 4#5, .vseti 1#5 2#5 18#12, .vcvt 1#5 2#5 18#5 0#4, .vcmp 7#5 2#5 3#5 0#1 5#4 0#4,
    .vfcmp 7#5 2#5 3#5 1#1 7#4 0#4, .mand 7#5 7#5 7#5, .vred 1#5 2#5 3#5 5#3 0#4, .vfred 1#5 2#5 3#5 2#3 0#4, .vselVv 1#5 2#5 3#5 1#4,
    .vldseg 1#5 2#5 3#5 10#6 0#4, .vldseg 1#5 2#5 3#5 16#6 0#4, .cclean 0#5 0#5, .cclean 1#5 31#5], i.wf = true := by decide

/-- Encodings that are no instruction: a halfword of zeros (R33), a compact opcode that Table 2.8 leaves out, a major and a function that no table
assigns, a field that must be zero and a scope out of range (R38). -/
theorem test_decode_rejects : decodeTableWord 16 0 = none ∧ decodeTableWord 16 0x001E = none ∧ decodeTableWord 32 0x0000007F = none ∧
    decodeTableWord 32 0xC0000003 = none ∧ decodeTableWord 32 0x00400003 = none ∧ decodeTableWord 32 0x07EB_9547 = none := by decide

/-- Words that the spec gives as examples. -/
theorem test_decode_examples : ∀ p ∈ ([(0x6800B603, .div 12#5 11#5 0#5), (0x001092A7, .ld64 5#5 9#5 8#15), (0x06C00049, .fence 3#3),
    (0x08C09049, .vfenceArrive 0#5 9#5 0#5 3#3), (0x06D69547, .amoAdd 10#5 9#5 11#5 1#1 1#1 3#3), (0x84C07447, .ldAq 8#5 7#5 3#3),
    (0x8AC072C7, .stRl 5#5 7#5 3#3), (0x100E6049, .cclean 6#5 7#5), (0x1408615F, .vamoAdd 2#5 6#5 4#5 0#4), (0x141AB54D, .vseti 10#5 11#5 0xA0D#12),
    (0x02828657, .vred 12#5 8#5 1#5 0#3 10#4), (0xC81240D3, .vfcmp 1#5 4#5 9#5 1#1 2#4 0#4), (0x000E4159, .vslide 2#5 4#5 7#5 0#4),
    (0x040A825B, .vcvtMx 4#5 8#5 5#5), (0x10149067, .tkexpect 0#5 9#5 10#5), (0x0000A661, .cpTile 12#5 10#5), (0x0818B56B, .umRound 10#5 11#5 12#5),
    (0x0C100063, .mldb 0#1 1#2), (0x14041063, .mmaMx 0#3 1#5 2#5 0#1), (0x0000F869, .pcommit 16#5 15#5 0#5), (0x8016956D, .wamoAdd 10#5 9#5 11#5 0#1 0#1),
    (0x10000065, .exit 0#5)] : List (Nat × Instr)), decodeTableWord 32 p.1 = some p.2 := by decide

/-! ## Steps: results worked out from the rules -/

/-- x1 = −7, x2 = 2, x3 = 2^63, x4 = 1. -/
def ints : State := dev 4#8 (regs [(1, 0xFFFFFFFFFFFFFFF9#64), (2, 2#64), (3, 0x8000000000000000#64), (4, 1#64)])

theorem test_add_wraps : (after (.add 5#5 1#5 1#5) ints).x 5#5 = 0xFFFFFFFFFFFFFFF2#64 ∧ (after (.add 5#5 3#5 3#5) ints).x 5#5 = 0#64 := by decide +kernel
theorem test_sub_order : (after (.sub 5#5 2#5 1#5) ints).x 5#5 = 9#64 := by decide +kernel
theorem test_x0_discards : (after (.add 0#5 1#5 2#5) ints).x 0#5 = 0#64 ∧ (after (.add 0#5 1#5 2#5) ints).pc = 4#19 := by decide +kernel
theorem test_slt_signs : (after (.slt 5#5 1#5 2#5) ints).x 5#5 = 1#64 ∧ (after (.sltn 5#5 1#5 2#5) ints).x 5#5 = 0#64 := by decide +kernel
theorem test_shifts : (after (.sra 5#5 1#5 4#5) ints).x 5#5 = 0xFFFFFFFFFFFFFFFC#64 ∧ (after (.srl 5#5 3#5 2#5) ints).x 5#5 = 0x2000000000000000#64 ∧
    (after (.sll 5#5 4#5 1#5) ints).x 5#5 = 0x0200000000000000#64 := by decide +kernel
theorem test_mulh_signs : (after (.mulh 5#5 3#5 2#5) ints).x 5#5 = 0xFFFFFFFFFFFFFFFF#64 ∧ (after (.mulhn 5#5 3#5 2#5) ints).x 5#5 = 1#64 := by decide +kernel
theorem test_div_truncates : (after (.div 5#5 1#5 2#5) ints).x 5#5 = 0xFFFFFFFFFFFFFFFD#64 ∧
    (after (.rem 5#5 1#5 2#5) ints).x 5#5 = 0xFFFFFFFFFFFFFFFF#64 := by decide +kernel
theorem test_div_by_zero : (after (.div 5#5 2#5 0#5) ints).x 5#5 = 0xFFFFFFFFFFFFFFFF#64 ∧ (after (.remn 5#5 2#5 0#5) ints).x 5#5 = 2#64 ∧
    (after (.div 5#5 2#5 0#5) ints).me.ctx.status = 1#64 := by decide +kernel
theorem test_counts : (after (.clz 5#5 2#5) ints).x 5#5 = 62#64 ∧ (after (.ctz 5#5 3#5) ints).x 5#5 = 63#64 ∧
    (after (.clz 5#5 0#5) ints).x 5#5 = 64#64 ∧ (after (.popc 5#5 1#5) ints).x 5#5 = 62#64 := by decide +kernel
theorem test_immediates : (after (.addi 5#5 2#5 0x7FFD#15) ints).x 5#5 = 0xFFFFFFFFFFFFFFFF#64 ∧
    (after (.andi 5#5 1#5 0x7FFF#15) ints).x 5#5 = 0x7FF9#64 ∧ (after (.sltni 5#5 2#5 0x7FFF#15) ints).x 5#5 = 1#64 := by decide +kernel
theorem test_lim_ipc : (after (.lim 5#5 0x80000#20) ints).x 5#5 = 0xFFFFFFFC00000000#64 ∧
    (after (.ipc 5#5 1#20) (ints.setPc 8#19)).x 5#5 = 0x8008#64 := by decide +kernel
theorem test_branch_wraps : (after (.bne 1#5 2#5 0x7FFE#15) ints).pc = 0x7FFFC#19 ∧ (after (.beq 1#5 2#5 0x7FFE#15) ints).pc = 4#19 ∧
    (after (.bltn 2#5 1#5 8#15) ints).pc = 16#19 := by decide +kernel
theorem test_jalr_link_is_source : (after (.jalr 2#5 2#5 5#15) ints).pc = 6#19 ∧ (after (.jalr 2#5 2#5 5#15) ints).x 2#5 = 4#64 := by decide +kernel
theorem test_compact_ldst : (after (.cAdd 1#5) (ints.updCtx fun c => { c with ldst := 2#6 })).x 2#5 = 0xFFFFFFFFFFFFFFFB#64 ∧
    (after (.cAdd 1#5) (ints.updCtx fun c => { c with ldst := 2#6 })).pc = 2#19 := by decide +kernel

/-- x1 = 1.5, x2 = 2.25 and x3 = 0 as f32; x4 = 2.0 as f64. -/
def floats : State := dev 4#8 (regs [(1, 0x3FC00000#64), (2, 0x40100000#64), (4, 0x4000000000000000#64)])

theorem test_fadd : (after (.faddF32 5#5 1#5 2#5) floats).x 5#5 = 0x40700000#64 ∧ (after (.faddF32 5#5 1#5 2#5) floats).me.ctx.fcr = 0#64 := by decide +kernel
theorem test_fmadd : (after (.fmaddF32 5#5 1#5 2#5 1#5) floats).x 5#5 = 0x409C0000#64 := by decide +kernel
theorem test_fdiv_by_zero : (after (.fdivF32 5#5 1#5 3#5) floats).x 5#5 = 0x7F800000#64 ∧
    (after (.fdivF32 5#5 1#5 3#5) floats).me.ctx.fcr = 0x80000#64 := by decide +kernel
theorem test_fsqrt : (after (.fsqrtF64 5#5 4#5) floats).x 5#5 = 0x3FF6A09E667F3BCD#64 := by decide +kernel
theorem test_fcvt_ties : (after (.fcvtF32 5#5 1#5 2#5) floats).x 5#5 = 2#64 ∧ (after (.fcvtF32 5#5 2#5 3#5) floats).x 5#5 = 2#64 := by decide +kernel
theorem test_fclass : (after (.fclassF32 5#5 3#5) floats).x 5#5 = 16#64 ∧ (after (.fclassF64 5#5 4#5) floats).x 5#5 = 64#64 := by decide +kernel
theorem test_fcmp_min : (after (.fcmpF32 5#5 1#5 2#5 1#5) floats).x 5#5 = 1#64 ∧ (after (.fmaxF32 5#5 1#5 2#5) floats).x 5#5 = 0x40100000#64 := by decide +kernel

/-- x1 to x6 = 0x1000 to 0x6000, x7 = 0x1122334455667788. -/
def addrs (n : BitVec 8) : State :=
  dev n (regs [(1, 0x1000#64), (2, 0x2000#64), (3, 0x3000#64), (4, 0x4000#64), (5, 0x5000#64), (6, 0x6000#64), (7, 0x1122334455667788#64)])

theorem test_store_is_little_endian : (after (.ldN8 8#5 2#5 1#15) (after (.st64 7#5 2#5 0#15) (addrs 4#8))).x 8#5 = 0x77#64 ∧
    (after (.ldI16 8#5 1#5 10#15) (after (.st64 7#5 1#5 8#15) (addrs 4#8))).x 8#5 = 0x5566#64 := by decide +kernel
theorem test_misaligned_traps : (after (.ld64 8#5 1#5 4#15) (addrs 4#8)).me.run = none ∧
    ((after (.ld64 8#5 1#5 4#15) (addrs 4#8)).me.records.map fun r => (r.code, r.eaddr, r.st)) = [(3#8, 0x1004#64, false)] := by decide +kernel
theorem test_read_only_page : ((after (.st8 7#5 3#5 0#15) (addrs 4#8)).me.records.map fun r => (r.code, r.eaddr, r.st)) = [(6#8, 0x3000#64, true)] := by decide +kernel
theorem test_amo_cas : (let s := after (.st64 7#5 2#5 0#15) (addrs 4#8)
    (after (.amoCas 7#5 2#5 1#5 1#1 1#1 3#3) s).x 7#5 = 0x1122334455667788#64 ∧
    (after (.amoCas 7#5 2#5 1#5 1#1 1#1 3#3) s).physRead 0x80000 8 = 0x1000 ∧ (after (.amoCas 6#5 2#5 1#5 1#1 1#1 3#3) s).physRead 0x80000 8 =
      0x1122334455667788) := by decide +kernel

theorem test_svc_brk : ((after (.svc 5#12) (addrs 4#8)).me.records.map fun r => (r.code, r.eaddr, r.epc)) = [(0#8, 5#64, 4#19)] ∧
    ((after (.brk 7#12) (addrs 4#8)).me.records.map fun r => (r.code, r.eaddr, r.epc)) = [(0xF#8, 7#64, 0#19)] := by decide +kernel
theorem test_privileged : ((after (.tlbinv 8#5 1#5 2#5 3#5) (addrs 4#8)).me.records.map fun r => r.code) = [2#8] ∧
    (after (.tlbinv 8#5 1#5 2#5 0#5) (addrs 0#8)).me.run = some 0#8 := by decide +kernel
theorem test_creg : (after (.cwr 0x033#12 7#5) (addrs 0#8)).me.tvec = 0#64 ∧ (after (.cwr 0x033#12 7#5) (addrs 4#8)).me.run = none ∧
    (after (.cwr 0x006#12 0#5) (addrs 4#8)).me.ctx.prng = 1#64 := by decide +kernel

/-- v1 = 1, 2, 255, … as i8 elements; vl = 3 of i8. -/
def lanes : State := dev 4#8 { regs [(1, 3#64), (2, 0x1000#64)] with
  vl := 0x30003#64, v := (Vector.replicate 32 0#16384).set 1 0xFF0201#16384 }

theorem test_vset : (after (.vseti 5#5 1#5 0x000#12) lanes).x 5#5 = 3#64 ∧ (after (.vseti 5#5 0#5 0x000#12) lanes).x 5#5 = 2048#64 ∧
    (after (.vseti 5#5 0#5 0x000#12) lanes).me.ctx.vl = 0x08000800#64 := by decide +kernel
theorem test_vadd_wraps : (after (.vaddVx 2#5 1#5 1#5 0#4) lanes).me.ctx.v[2] = 0x020504#16384 := by decide +kernel
theorem test_vmin_signed : (after (.vminVx 2#5 1#5 0#5 0#4) lanes).me.ctx.v[2] = 0xFF0000#16384 := by decide +kernel
theorem test_vred_sum : (after (.vred 5#5 1#5 0#5 0#3 0#4) lanes).x 5#5 = 2#64 := by decide +kernel
theorem test_vcmp_mask : (after (.vcmp 1#5 1#5 0#5 1#1 2#4 0#4) lanes).me.ctx.m[1] = 4#2048 := by decide +kernel
theorem test_vslide : (after (.vslide 2#5 1#5 4#5 0#4) (lanes.updCtx fun c => c.setX 4#5 1#64)).me.ctx.v[2] = 0x00FF02#16384 := by decide +kernel
theorem test_vstore_vload : (let s := after (.vst 1#5 2#5 0#4) lanes
    s.physRead 0x70000 4 = 0x00FF0201 ∧ (after (.vld 3#5 2#5 0#4) s).me.ctx.v[3] = 0xFF0201#16384) := by decide +kernel
theorem test_voff : ((after (.vaddVv 2#5 1#5 1#5 0#4) (lanes.updCtx fun c => { c with status := 0x100#64 })).me.records.map fun r => r.code) = [4#8] := by decide +kernel

/-! ## Witnesses: states and operands that meet the hypotheses of the statements -/

/-- Whether an outcome is a next state. -/
def isNext : Host.Outcome State Fault Refusal → Bool
  | .next _ => true
  | .fault _ => false
  | .refused _ => false

theorem exists_of_isNext {r : Host.Outcome State Fault Refusal} (h : isNext r = true) : ∃ t, r = .next t := by
  cases r with
  | next t => exact ⟨t, rfl⟩
  | fault f => cases h
  | refused q => cases h

theorem witness_DecodeGivesBackWhatEncodeWrites : (Instr.add 5#5 10#5 19#5).wf = true ∧
    encode (.add 5#5 10#5 19#5) = some [0x83#8, 0xA2#8, 0x26#8, 0x00#8] ∧ (Instr.cAddi 0x2D3#10).wf = true ∧
    encode (.cAddi 0x2D3#10) = some [0xCE#8, 0xB4#8] := by decide

theorem witness_DecodedBytesAreTheirEncoding : decodeBytes [0x83#8, 0xA2#8, 0x26#8, 0x00#8] = .ok (.add 5#5 10#5 19#5) 4 ∧
    decodeBytes [0xCE#8, 0xB4#8, 0x26#8, 0x00#8] = .ok (.cAddi 0x2D3#10) 2 ∧
    decodeHalves 0xB4CE#16 0#16 = .ok (.cAddi 0x2D3#10) 2 ∧ decodeHalves 0xA283#16 0x0026#16 = .ok (.add 5#5 10#5 19#5) 4 := by decide

/-- A device whose next step issues at offset 0 of movement 0's instruction store. -/
def coded (l : List Byte) : State := { ints with mem := ((List.range 4).zip l).map fun p => (0x10100000000 + p.1, p.2) }

theorem witness_StepExecutesTheDecodedInstruction : (coded [0x83#8, 0xA2#8, 0x26#8, 0x10#8]).Issues ∧
    decodeHalves ((coded [0x83#8, 0xA2#8, 0x26#8, 0x10#8]).codeAt 0) ((coded [0x83#8, 0xA2#8, 0x26#8, 0x10#8]).codeAt 2) =
      .ok (.and 5#5 10#5 19#5) 4 ∧
    decodeHalves (ints.codeAt 0) (ints.codeAt 2) = .bad .compactReserved ∧ ints.Issues := by
  unfold State.Issues; decide +kernel

/-- A host access to the crown that has not arrived yet. -/
def crown (a : CrownAccess) (q : List KerloCmd) : State :=
  { State.reset with kerlo := { Kerlo.reset with access := [a], queue := q, ready := true } }

theorem witness_StepsTakeInputsFirstAndEnd :
    (({ ints with inbox := [.boot] } : State).inbox = .boot :: [] ∧ encode .boot = none) ∧
    (({ ints with inbox := [.add 1#5 2#5 3#5] } : State).inbox = .add 1#5 2#5 3#5 :: [] ∧ encode (.add 1#5 2#5 3#5) ≠ none) ∧
    (State.reset.inbox = [] ∧ State.reset.kerlo.access = [] ∧ State.reset.kerlo.ready = false) ∧
    ((crown (.read 0) []).inbox = [] ∧ (crown (.read 0) []).kerlo.access = [.read 0]) ∧
    ((crown (.write 8 3#64) [⟨3#6, []⟩]).kerlo.access = [.write 8 3#64] ∧ ∃ c ∈ (crown (.write 8 3#64) [⟨3#6, []⟩]).kerlo.queue, c.slot.toNat = 3 % 64) ∧
    ((crown (.write 8 3#64) [⟨4#6, []⟩]).kerlo.access = [.write 8 3#64] ∧ ∀ c ∈ (crown (.write 8 3#64) [⟨4#6, []⟩]).kerlo.queue, c.slot.toNat ≠ 3 % 64) ∧
    ((crown (.write 0x8000 3#64) []).kerlo.access = [.write 0x8000 3#64] ∧ 0xFFF8 < 0x10000 ∧ 0xFFF8 % 8 = 0) := by decide +kernel

theorem witness_StepsKeepMemoryCanonical : (coded [0x83#8, 0xA2#8, 0x26#8, 0x10#8]).Canonical ∧
    ∃ t, step (coded [0x83#8, 0xA2#8, 0x26#8, 0x10#8]) = .next t := by
  refine ⟨?_, exists_of_isNext ?_⟩
  · unfold State.Canonical; decide +kernel
  · decide +kernel

theorem witness_InstructionsLeaveTheDeviceAlone : encode (.add 5#5 1#5 2#5) ≠ none ∧ ints.sup = false ∧
    ∃ t, exec (.add 5#5 1#5 2#5) ints = .next t := ⟨by decide, by decide +kernel, exists_of_isNext (by decide +kernel)⟩

theorem witness_UserInstructionsLeaveSupervisionAlone : encode (.add 5#5 1#5 2#5) ≠ none ∧ ints.sup = false ∧
    exec (.add 5#5 1#5 2#5) ints = .next (after (.add 5#5 1#5 2#5) ints) := ⟨by decide, by decide +kernel, rfl⟩

theorem witness_MemoryReadsBackWhatWasWritten : ints.Canonical ∧ ints.swaps = [] ∧ resourceByte 0 = none := by
  unfold State.Canonical; decide +kernel

theorem witness_CompactScalarFormsActOnTheirL : (ints.updCtx fun c => { c with ldst := 31#6 }).me.ctx.ldst = 0#1 ++ 31#5 ∧
    (ints.updCtx fun c => { c with ldst := 63#6 }).me.ctx.ldst = 1#1 ++ 31#5 := by decide +kernel

/-- The rows of 04_scalar.md's tables that an instruction belongs to are not empty, and the condition codes lie on both sides of their bound. -/
theorem witness_scalar_rows : (Instr.popc 1#5 2#5, (5#64).cpop) ∈ aluRows 1#5 2#5 3#5 5#64 6#64 ∧
    (aluRows 1#5 2#5 3#5 5#64 6#64).length = 20 ∧ (immediateRows 1#5 2#5 3#15 4#6 5#20 6#64 0#19).length = 11 ∧
    (divideRows 1#5 2#5 3#5 5#64 6#64).length = 4 ∧ (branchRows 1#5 2#5 3#15 5#64 6#64).length = 6 ∧
    (compactRows 1#5 0#1 2#10 5#64 6#64).length = 10 ∧ (3#5 : BitVec 5).toNat < 4 ∧ 4 ≤ (4#5 : BitVec 5).toNat ∧ 5 ≤ (5#5 : BitVec 5).toNat := by decide

/-- The state after a translation. -/
def moved (s : State) (store : Bool) (va : Word) : State := (s.translateFirst false store va).1

/-- `addrs` with ldst naming x7. -/
def named : State := (addrs 4#8).updCtx fun c => { c with ldst := 7#6 }

theorem witness_LoadsReadWhatTheCoreSees :
    (.ld64 8#5 1#5 8#15, 8#5, 0x1008#64, 8, false, 4) ∈ loadRows 8#5 1#5 7#5 31#5 8#15 named ∧
    (.cLd 1#5 31#5, 7#5, 0x10F8#64, 8, false, 2) ∈ loadRows 8#5 1#5 7#5 31#5 8#15 named ∧
    Reaches named false 0x1008#64 8 (moved named false 0x1008#64) 0x70008 0#2 ∧
    Reaches named false 0x2FFF#64 1 (moved named false 0x2FFF#64) 0x80FFF 2#2 ∧
    Reaches named false 0x4010#64 2 (moved named false 0x4010#64) 0x10000010010 2#2 ∧
    Healthy (moved named false 0x1008#64) ∧ CacheSound (moved named false 0x1008#64) := by
  refine ⟨?_, ?_, ?_, ?_, ?_, by unfold Healthy QueueSound; decide +kernel, by unfold CacheSound State.Canonical; decide +kernel⟩ <;>
    (try unfold Reaches) <;> decide +kernel

theorem witness_StoresChangeExactlyTheirBytes :
    (.st64 7#5 1#5 8#15, 7#5, 0x1008#64, 8, 4) ∈ storeRows 7#5 1#5 7#5 31#5 8#15 named ∧
    (.cSt 1#5 31#5, 7#5, 0x10F8#64, 8, 2) ∈ storeRows 7#5 1#5 7#5 31#5 8#15 named ∧
    Reaches named true 0x10F8#64 8 (moved named true 0x10F8#64) 0x700F8 0#2 ∧
    Reaches named true 0x2FFC#64 4 (moved named true 0x2FFC#64) 0x80FFC 2#2 ∧
    Healthy (moved named true 0x10F8#64) ∧ CacheSound (moved named true 0x10F8#64) := by
  unfold Reaches Healthy QueueSound CacheSound State.Canonical; decide +kernel

/-- `addrs` with bytes 0x1000 to 0x100F watched for crew 1. -/
def watching : State := { addrs 4#8 with watchRanges := [⟨0#2, 1#7, 0x1000, 16, true, true⟩] }

theorem witness_FaultingAccessesTrapWithTheirAddress :
    (∃ p ∈ loadRows 8#5 1#5 7#5 0#5 1#15 named, p.1 = .ldI16 8#5 1#5 1#15 ∧ p.2.2.1 = 0x1001#64 ∧ p.2.2.2.1 = 2 ∧ (0x1001#64).toNat % 2 ≠ 0) ∧
    (∃ p ∈ storeRows 7#5 1#5 7#5 0#5 15#15 watching, p.1 = .st8 7#5 1#5 15#15 ∧ p.2.2.1 = 0x100F#64 ∧ p.2.2.2.1 = 1) ∧
    watching.watched watching.who true 0x100F#64 1 = true ∧ watching.watched watching.who true 0x1010#64 1 = false ∧
    (watching.translateFirst false true 0x3000#64).2 = .fault .protect ∧
    (watching.translateFirst false false 0x9000#64).2 = .fault (.absent none) := by decide +kernel

theorem witness_TrapsSaveTheContextAndQueueARecord : (addrs 4#8).me.run = some 4#8 ∧ (addrs 4#8).me.slot? 4#8 = some (slotAt 4#8 .running) ∧
    CacheSound (addrs 4#8) := by
  unfold CacheSound State.Canonical; decide +kernel

/-- A record of core 0 that names the coroutine of slot 9. -/
def record (code : BitVec 8) (detached : Bool) : Record := ⟨code, false, false, 9#18, 0x1000#64, 0x11#19, none, detached, 0#10⟩

/-- Slot 0 runs with a record open; slot 9 is held by it. -/
def handling (r : Record) : State :=
  let s := dev 0#8 { Ctx.reset with record := some r }
  { s with me := { s.me with slots := s.me.slots ++ [{ slotAt 9#8 .held with records := 1 }] } }

theorem witness_TretReturnsToTheRecordsEpc : (addrs 0#8).me.ctx.record = none ∧
    (handling (record 0x0E#8 false)).me.ctx.record = some (record 0x0E#8 false) ∧ (record 0x0E#8 false).code = 0x0E#8 ∧
    (handling (record 0x06#8 false)).me.ctx.record = some (record 0x06#8 false) ∧ (record 0x06#8 false).code ≠ 0x0E#8 ∧
    SlotsSound ((handling (record 0x06#8 false)).coreAt (coidCore 9#18)) ∧
    (((handling (record 0x06#8 false)).coreAt (coidCore 9#18)).slot? (coidSlot 9#18)).map
      (fun u => (u.state, u.records, u.crewFault, u.waitFor)) = some (.held, 1, false, .nothing) := by
  unfold SlotsSound; decide +kernel

/-- A state whose running coroutine has an operation on core 0's cell 0x100 still to send. -/
def behind (s : State) : State :=
  { s with me := { s.me with outq := [⟨s.opOf 3#8 (mkHandle 0#10 0#10 1#2 1#26 256#16) 1#64 0#3 0#64 true, 0, [], [], 0, 0#64⟩] } }

theorem witness_ControlRegistersTakeTheirWritableFields : assignedCreg 0x009#12 = false ∧ assignedCreg 0x033#12 = true ∧
    (addrs 4#8).sup = false ∧ assignedCreg 0xC16#12 = true ∧ (addrs 0#8).sup = true ∧ (addrs 4#8).statusPending 4#8 = false ∧
    (behind (addrs 4#8)).statusPending (behind (addrs 4#8)).slotNum = true := by decide +kernel

/-! ### Vector instructions -/

/-- `lanes` with another vtype and vl. -/
def shaped (vtype vl : Word) : State := lanes.updCtx fun c => { c with vtype := vtype, vl := vl }

/-- The state after a claim of registers. -/
def claimed (s : State) (dirty : Word) : State := (s.claimDirty dirty).1

theorem witness_IntegerVectorFormsActOnEachElement :
    (∀ f ∈ plainForms lanes true 2#5 1#5 1#5 0#4 (.vaddVv 2#5 1#5 1#5 0#4) (.vaddVx 2#5 1#5 1#5 0#4) none, f.legal = true) ∧
    VIssues lanes true (vBits 2#5 1) (claimed lanes (vBits 2#5 1)) ∧
    (plainForm (shaped 7#64 0x30003#64) true (.vdivVv 31#5 1#5 1#5 15#4) 4 31#5 1#5 (.reg 1#5) 15#4).legal = true ∧
    VIssues (shaped 7#64 0x30003#64) true (vBits 31#5 1) (claimed (shaped 7#64 0x30003#64) (vBits 31#5 1)) ∧
    (lanes.updCtx fun c => { c with status := 0x100#64 }).me.ctx.status.getLsbD 8 = true ∧
    shapeOk (shaped 0#64 0x8010801#64).me.ctx.vl (shaped 0#64 0x8010801#64).me.ctx.vtype = false ∧
    (plainForm (shaped 0x20#64 0#64) true (.vaddVv 1#5 2#5 2#5 0#4) 4 1#5 2#5 (.reg 2#5) 0#4).legal = false := by
  unfold VIssues State.Keeps; decide +kernel

/-- v1 = 1.5, −0.0 as f32, v2 = an f32 NaN; vl = 2 of f32. -/
def numbers : State := (shaped 9#64 0x20002#64).updCtx fun c => { c with
  v := (c.v.set 1 0x800000003FC00000#16384).set 2 0x7F800001#16384, fcr := 5#64 }

theorem witness_FloatVectorFormsRoundEachElementOnce :
    (∀ f ∈ plainForms numbers true 3#5 1#5 2#5 0#4 (.vfaddVv 3#5 1#5 2#5 0#4) (.vfaddVx 3#5 1#5 2#5 0#4) none, f.legal = true) ∧
    VIssues numbers true (vBits 3#5 1) (claimed numbers (vBits 3#5 1)) ∧ fcrRm numbers.me.ctx.fcr = 5 ∧
    (decide (8 ≤ vtEt numbers.me.ctx.vtype) && decide (vtEt numbers.me.ctx.vtype ≤ 11)) = true := by
  unfold VIssues State.Keeps; decide +kernel

theorem witness_WideningNarrowingAndSelection :
    (∀ f ∈ apartForms lanes true 4#5 1#5 1#5 0#4 2 1 (.vwaddVv 4#5 1#5 1#5 0#4) (.vwaddVx 4#5 1#5 1#5 0#4), f.legal = true) ∧
    VIssues lanes true (vBits 4#5 2) (claimed lanes (vBits 4#5 2)) ∧
    (∀ f ∈ apartForms lanes true 4#5 2#5 1#5 0#4 1 2 (.vnclipVv 4#5 2#5 1#5 0#4) (.vnclipVx 4#5 2#5 1#5 0#4), f.legal = true) ∧
    VIssues lanes true (vBits 4#5 1) (claimed lanes (vBits 4#5 1)) ∧
    (∀ f ∈ plainForms lanes (7#4 != 0#4) 4#5 1#5 1#5 7#4 (.vselVv 4#5 1#5 1#5 7#4) (.vselVx 4#5 1#5 1#5 7#4) none, f.legal = true) := by
  unfold VIssues State.Keeps; decide +kernel

theorem witness_SpecialFunctionsKeepTheirListedCases :
    (plainForm numbers (decide (9 ≤ vtEt numbers.me.ctx.vtype) && decide (vtEt numbers.me.ctx.vtype ≤ 11)) (.vfrcp 3#5 1#5 0#4) 4 3#5 1#5 (.scalar 0#64)
      0#4).legal = true ∧ VIssues numbers true (vBits 3#5 1) (claimed numbers (vBits 3#5 1)) ∧
    (∀ p ∈ [(0, 0x7F800001), (1, 0xFF800000), (2, 0), (3, 0x80000000), (4, 0x7F800000), (3, 0xBF800000)],
      (specialCase .f32 p.1 (FloatFmt.f32.read (fcrDaz 0#64 .f32) p.2)).isSome = true) := by
  unfold VIssues State.Keeps; decide +kernel

theorem witness_VectorConversionsRoundToTheTarget : 18 < (19#5 : BitVec 5).toNat ∧ elemOf (18#5 : BitVec 5).toNat = some .e8m0 ∧
    elemOf (9#5 : BitVec 5).toNat = some (.float .f32) ∧ converts (vtElem lanes.me.ctx.vtype) (.float .f32) = true ∧
    (decide (1 * 32 ≤ 8 * 8) && groupOk 4#5 4 && groupOk 1#5 1 && disjoint 4#5 4 1#5 1 && predOk lanes.me.ctx.vtype 0#4) = true ∧
    VIssues lanes true (vBits 4#5 4) (claimed lanes (vBits 4#5 4)) := by
  unfold VIssues State.Keeps; decide +kernel

theorem witness_BlockScalesAndDensePacking :
    (let s := shaped (12#64 ||| 0xA00#64) 0x200020#64
     vtBlk s.me.ctx.vtype = 32 ∧ VIssues s true (vBits 0#5 1 ||| vBits 9#5 1) (claimed s (vBits 0#5 1 ||| vBits 9#5 1)) ∧
      (groupOk 0#5 1 && groupOk 4#5 4 && disjoint 0#5 1 4#5 4 && disjoint 0#5 1 9#5 1 && disjoint 4#5 4 9#5 1) = true) ∧
    (let s := shaped 14#64 0x30003#64
     apartOk s.me.ctx.vtype 2#5 1#5 1 1 (.scalar 0#64) 0#4 = true ∧ VIssues s true (vBits 2#5 1) (claimed s (vBits 2#5 1))) := by
  unfold VIssues State.Keeps; decide +kernel

theorem witness_ComparesAndMaskLogicWriteTheirResult :
    (decide ((7#5 : BitVec 5).toNat ≤ 7) && maskOk lanes.me.ctx.vtype 7 && groupOk 1#5 1 && groupOk 2#5 1 && predOk lanes.me.ctx.vtype 8#4) = true ∧
    VIssues lanes true (mBits 7 (maskRegs lanes.me.ctx.vtype)) (claimed lanes (mBits 7 (maskRegs lanes.me.ctx.vtype))) ∧
    VIssues numbers true (mBits 7 (maskRegs numbers.me.ctx.vtype)) (claimed numbers (mBits 7 (maskRegs numbers.me.ctx.vtype))) ∧
    lanes.me.ctx.status.getLsbD 8 = false ∧ shapeOk lanes.me.ctx.vl lanes.me.ctx.vtype = true ∧ maskOk (shaped 0x20#64 0#64).me.ctx.vtype 1 = false := by
  unfold VIssues State.Keeps; decide +kernel

theorem witness_ReductionsAndScansFollowTheirTrees :
    VIssues lanes true (shBit ((3#5).setWidth 2)) (claimed lanes (shBit ((3#5).setWidth 2))) ∧ lanes.me.ctx.vstart = 0#16 ∧
    (decide ((3#5 : BitVec 5).toNat ≤ 3) && groupOk 1#5 (vtN lanes.me.ctx.vtype) && predOk lanes.me.ctx.vtype 0#4) = true ∧
    apartOk numbers.me.ctx.vtype 3#5 1#5 1 1 (.scalar 0#64) 0#4 = true ∧
    VIssues numbers true (vBits 3#5 1 ||| shBit 0#2) (claimed numbers (vBits 3#5 1 ||| shBit 0#2)) := by
  unfold VIssues State.Keeps; decide +kernel

theorem witness_PermutesMoveElements : VIssues lanes true (vBits 2#5 1) (claimed lanes (vBits 2#5 1)) ∧
    (apartOk lanes.me.ctx.vtype 2#5 1#5 1 1 (.reg 3#5) 0#4 && (vtEt lanes.me.ctx.vtype != 16)) = true ∧
    (decide ((7#5 : BitVec 5).toNat ≤ 7) && maskOk lanes.me.ctx.vtype 7 && apartOk lanes.me.ctx.vtype 2#5 1#5 1 1 (.scalar 0#64) 0#4) = true ∧
    plainOk lanes.me.ctx.vtype 2#5 2#5 (.scalar 0#64) 0#4 = true := by
  unfold VIssues State.Keeps; decide +kernel

theorem witness_ShapeIsSetAndReleased : lanes.me.ctx.vq = [] ∧ lanes.me.stepWaits lanes.slotNum = false ∧ (0xFF2#12 : BitVec 12).toNat % 32 ≤ 18 ∧
    18 < (0x013#12 : BitVec 12).toNat % 32 ∧ lanes.me.ctx.status.getLsbD 8 = false := by decide +kernel

/-- Elements 0 to 2 at x2 = 0x1000 of `lanes`, whose place is 0x70000. -/
theorem witness_elements_reach (store : Bool) (p : BitVec 4) (m : MForm) (hf : m.fields = 1)
    (ha : ∀ i, i < 3 → m.addr i 0 = BitVec.ofNat 64 (0x1000 + i)) (limit : Nat) (hl : limit ≤ 3) :
    ElementsReach (claimed lanes (vBits 2#5 1)) store p limit m (fun i _ => 0x70000 + i) (fun _ _ => 0#2) := by
  intro i f _ hi hlt
  have hi3 : i < 3 := Nat.lt_of_lt_of_le hi hl
  have hf0 : f = 0 := by omega
  subst hf0
  rw [ha i hi3]
  have h : ∀ j : Fin 3, (BitVec.ofNat 64 (0x1000 + j.val)).toNat % (max 1 (vtW (claimed lanes (vBits 2#5 1)).me.ctx.vtype / 8)) = 0 ∧
      (claimed lanes (vBits 2#5 1)).watched (claimed lanes (vBits 2#5 1)).who store (BitVec.ofNat 64 (0x1000 + j.val))
        (max 1 (vtW (claimed lanes (vBits 2#5 1)).me.ctx.vtype / 8)) = false ∧
      (0x70000 + j.val) % (max 1 (vtW (claimed lanes (vBits 2#5 1)).me.ctx.vtype / 8)) = 0 ∧
      HeldIn (claimed lanes (vBits 2#5 1)) store (BitVec.ofNat 64 (0x1000 + j.val)) (0x70000 + j.val) 0#2 := by
    unfold HeldIn
    cases store <;> decide +kernel
  exact h ⟨i, hi3⟩

theorem witness_VectorLoadsReadEachElement :
    (∀ m ∈ vectorLoads 2#5 2#5 4#5 10#6 0#4 lanes, m.legal = true) ∧ VIssues lanes true (vBits 2#5 1) (claimed lanes (vBits 2#5 1)) ∧
    CacheSound (claimed lanes (vBits 2#5 1)) ∧ Healthy (claimed lanes (vBits 2#5 1)) ∧
    ElementsReach (claimed lanes (vBits 2#5 1)) false 0#4 (vlReal lanes.me.ctx.vl)
      ⟨.vld 2#5 2#5 0#4, 1, fun i _ => lanes.x 2#5 + BitVec.ofNat 64 (i * 8 / 8), true⟩ (fun i _ => 0x70000 + i) (fun _ _ => 0#2) ∧
    (∀ i : Fin 3, (claimed lanes (vBits 2#5 1)).chaseWaits 0#2 (0x70000 + i.val) = false) := by
  refine ⟨by decide +kernel, by unfold VIssues State.Keeps; decide +kernel, by unfold CacheSound State.Canonical; decide +kernel,
    by unfold Healthy QueueSound; decide +kernel, witness_elements_reach _ _ _ rfl ?_ _ (by decide +kernel), by decide +kernel⟩
  have h : ∀ i : Fin 3, lanes.x 2#5 + BitVec.ofNat 64 (i.val * 8 / 8) = BitVec.ofNat 64 (0x1000 + i.val) := by decide +kernel
  exact fun i hi => h ⟨i, hi⟩

theorem witness_VectorStoresWriteEachElement :
    (∀ m ∈ vectorStores 2#5 2#5 4#5 0#4 lanes, m.1.legal = true) ∧ VIssues lanes true 0#64 lanes ∧ claimed lanes (vBits 2#5 1) = lanes ∧
    ElementsReach (claimed lanes (vBits 2#5 1)) true 0#4 (vlReal lanes.me.ctx.vl)
      ⟨.vst 2#5 2#5 0#4, 1, fun i _ => lanes.x 2#5 + BitVec.ofNat 64 (i * 8 / 8), true⟩ (fun i _ => 0x70000 + i) (fun _ _ => 0#2) ∧
    resourceByte (0xE0000 / 2) = none := by
  refine ⟨by decide +kernel, by unfold VIssues State.Keeps; decide +kernel, by decide +kernel, witness_elements_reach _ _ _ rfl ?_ _ (by decide +kernel), by decide +kernel⟩
  have h : ∀ i : Fin 3, lanes.x 2#5 + BitVec.ofNat 64 (i.val * 8 / 8) = BitVec.ofNat 64 (0x1000 + i.val) := by decide +kernel
  exact fun i hi => h ⟨i, hi⟩

/-- v4 = 0, 1 as n32 indices, x2 = 0x1000, v1 as n32 values; vl = 2 of n32. -/
def words (x2 : Word) : State := (shaped 6#64 0x20002#64).updCtx fun c => { c.setX 2#5 x2 with v := c.v.set 4 0x100000000#16384 }

theorem witness_VectorAtomicsAddAndMisalignedElementsStop :
    VIssues (words 0x1000#64) true 0#64 (words 0x1000#64) ∧
    (let s := words 0x1000#64
     let c := s.me.ctx
     ElementsReach s true 0#4 (vlLen c.vl) ⟨.vamoAdd 1#5 2#5 4#5 0#4, 1, fun i _ => s.x 2#5 + BitVec.ofNat 64 (c.elem 4 32 i * (32 / 8)), true⟩
       (fun i _ => if i = 0 then 0x70000 else 0x70004) (fun _ _ => 0#2) ∧
     ∀ i, c.computes 0#4 i = true → s.watched s.who false (s.x 2#5 + BitVec.ofNat 64 (c.elem 4 32 i * (32 / 8))) (32 / 8) = false) ∧
    (∀ i, (if i = 0 then 0x70000 else 0x70004) < hostBase ∧ resourceByte (if i = 0 then 0x70000 else 0x70004) = none) ∧
    (let s := words 0x1002#64
     VIssues s true (vBits 3#5 1) (claimed s (vBits 3#5 1)) ∧ (claimed s (vBits 3#5 1)).me.run = some 4#8 ∧
      ((claimed s (vBits 3#5 1)).me.slot? 4#8).isSome = true ∧ s.me.ctx.computes 0#4 0 = true ∧ 0 < vlReal s.me.ctx.vl ∧
      (s.x 2#5 + BitVec.ofNat 64 (0 * 32 / 8)).toNat % max 1 (vtW s.me.ctx.vtype / 8) ≠ 0) := by
  refine ⟨by unfold VIssues State.Keeps; decide +kernel, ⟨?_, fun _ _ => rfl⟩, ?_, by unfold VIssues State.Keeps; decide +kernel⟩
  · intro i f _ hi hf
    let s := words 0x1000#64
    let c := s.me.ctx
    have hf0 : f = 0 := by simp at hf; omega
    replace hi : i < vlLen c.vl := hi
    have hi2 : i < 2 := by
      have h : vlLen c.vl = 2 := by decide +kernel
      omega
    subst hf0
    have h : ∀ j : Fin 2, (s.x 2#5 + BitVec.ofNat 64 (c.elem 4 32 j.val * (32 / 8))).toNat % max 1 (vtW c.vtype / 8) = 0 ∧
        s.watched s.who true (s.x 2#5 + BitVec.ofNat 64 (c.elem 4 32 j.val * (32 / 8))) (max 1 (vtW c.vtype / 8)) = false ∧
        (if j.val = 0 then 0x70000 else 0x70004) % max 1 (vtW c.vtype / 8) = 0 ∧
        HeldIn s true (s.x 2#5 + BitVec.ofNat 64 (c.elem 4 32 j.val * (32 / 8))) (if j.val = 0 then 0x70000 else 0x70004) 0#2 := by
      unfold HeldIn; decide +kernel
    exact h ⟨i, hi2⟩
  · intro i
    split
    · decide +kernel
    · decide +kernel

/-! ### Atomics, tokens and coroutines -/

theorem witness_AtomicsReadAndUpdateOneDoubleword :
    (Instr.amoSwap 8#5 1#5 2#5 1#1 1#1 3#3, true) ∈ (amoRows 8#5 1#5 2#5 1#1 1#1 3#3 0#64 0#64).map (fun r => (r.1, r.2.1)) ∧
    (Instr.amoXor 8#5 1#5 2#5 1#1 1#1 3#3, false) ∈ (amoRows 8#5 1#5 2#5 1#1 1#1 3#3 0#64 0#64).map (fun r => (r.1, r.2.1)) ∧
    (let s := addrs 4#8
     let r := s.release 3#3
     Reaches r true 0x1FF8#64 8 (moved r true 0x1FF8#64) 0x70FF8 0#2 ∧ 0x70FF8 < hostBase ∧ (0x1FF9#64).toNat % 8 ≠ 0 ∧
      Reaches r true 0x5000#64 8 (moved r true 0x5000#64) 0x80000000004000 0#2 ∧ hostBase ≤ 0x80000000004000 ∧
      (r.translateFirst false true 0x3000#64).2 = .fault .protect ∧ r.watched r.who true 0x3000#64 8 = false ∧
      r.watched r.who false 0x3000#64 8 = false ∧
      Healthy (moved r true 0x1FF8#64) ∧ CacheSound (moved r true 0x1FF8#64) ∧ Healthy s ∧ CacheSound s) ∧
    watching.watched watching.who true 0x1008#64 8 = true := by
  dsimp only
  and_intros <;> first | decide +kernel | (unfold QueueSound; decide +kernel) | (unfold State.Canonical; decide +kernel)

theorem witness_AcquiresReleasesAndCleans :
    (let s := addrs 4#8
     Reaches s false 0x1008#64 8 (moved s false 0x1008#64) 0x70008 0#2 ∧ Healthy (moved s false 0x1008#64) ∧ CacheSound (moved s false 0x1008#64) ∧
      Reaches s true 0x2008#64 8 (moved s true 0x2008#64) 0x80008 2#2 ∧ resourceByte 0x80008 = none ∧
      Reaches s true 0x1008#64 8 (moved s true 0x1008#64) 0x70008 0#2 ∧ Healthy (moved s true 0x1008#64) ∧ CacheSound (moved s true 0x1008#64) ∧
      (s.translateFirst false true 0x3000#64).2 = .fault .protect ∧ (s.translateFirst false false 0x9000#64).2 = .fault (.absent none) ∧
      (let u := moved s false 0x1000#64
       u.translateFirst false false 0x1000#64 = (u, .ok 0x70000 0#2) ∧ Healthy u ∧ CacheSound u ∧ (u.l2.map (·.line)).Nodup) ∧
      (1#5 : BitVec 5) ≠ 0#5) := by
  dsimp only
  and_intros <;> first | decide +kernel | (unfold QueueSound; decide +kernel) | (unfold State.Canonical; decide +kernel)

/-- Cell 256 of core 0 with generation 1 and a kind, and its handle. -/
def withCell (kind : BitVec 2) (lower upper : Word) (s : State) : State :=
  s.putCell 0#10 256#16 ⟨lower, upper ||| 0x4000000000#64 ||| (kind.zeroExtend 64 <<< 36)⟩

/-- The handle of that cell. -/
def cell (kind : BitVec 2) : Word := mkHandle 0#10 0#10 kind 1#26 256#16

/-- A user coroutine with a cell of a kind in x1 and a value in x2. -/
def holding (kind : BitVec 2) (lower upper v : Word) : State :=
  withCell kind lower upper (dev 4#8 (regs [(1, cell kind), (2, v), (3, mkHandle 0#10 0#10 1#2 0#26 4#16)]))

/-- 16 operations in the outgoing queue. -/
def stuffed (s : State) : State :=
  { s with me := { s.me with outq := List.replicate 16 ⟨s.opOf 3#8 (cell 1#2) 1#64 0#3 0#64 true, 0, [], [], 0, 0#64⟩ } }

theorem witness_TokenOperationsChangeTheirCell :
    (AppliesAtOnce (holding 0#2 0x300002#64 0#64 1#64) (cell 0#2) ∧ AppliesAtOnce (holding 1#2 0x300000002#64 0#64 1#64) (cell 1#2) ∧
      AppliesAtOnce (holding 2#2 0#64 0x100000000#64 1#64) (cell 2#2)) ∧
    ((holding 0#2 1#64 0#64 1#64).me.run = some 4#8 ∧ Healthy (holding 0#2 1#64 0#64 1#64) ∧ CacheSound (holding 0#2 1#64 0#64 1#64)) ∧
    ((holding 0#2 1#64 0#64 1#64).sup = false ∧ (hIndex (mkHandle 0#10 0#10 1#2 0#26 15#16)).toNat < 16 ∧ 16 ≤ (hIndex (cell 0#2)).toNat) ∧
    16 ≤ (stuffed (holding 0#2 1#64 0#64 1#64)).me.outq.length ∧ (holding 0#2 1#64 0#64 1#64).me.outq.length < 16 ∧
    hKind (cell 3#2) ∉ [0#2, 1#2] ∧ hKind (cell 0#2) ∈ [0#2] := by
  and_intros <;> first | decide +kernel | (unfold QueueSound; decide +kernel) | (unfold State.Canonical; decide +kernel)

theorem witness_TokensAreInitialisedAndRead :
    (let s := holding 1#2 0x300000003#64 0#64 0#64
     Healthy s ∧ CacheSound s ∧ (s.crew == 0#7 || s.boundTo (hCore (cell 1#2)) s.crew) = true ∧ s.heldByReplay s.crew (cell 1#2) = false ∧
      (s.cellOf 0#10 256#16).dval = false ∧ hDev (cell 1#2) = s.devNo ∧ s.stale s.crew (cell 1#2) = false ∧ s.cellCondition (cell 1#2) 0#64 = true ∧
      s.stale s.crew (cell 0#2) = true ∧ s.stale s.crew (s.x 3#5) = false) ∧
    (holding 1#2 0x300000002#64 0#64 0#64).cellCondition (cell 1#2) 0#64 = false ∧ (addrs 0#8).sup = true ∧
    (let s := addrs 4#8
     (s.crew == 0#7 || s.boundTo 0#10 s.crew) && (s.sup || decide (256 ≤ 255))) = false ∧
    (let s := behind (holding 1#2 0x300000003#64 0#64 0#64)
     s.behindPosted (cell 1#2) = true ∧ s.behindPosted (mkHandle s.devNo (hCore (cell 1#2)) 0#2 0#26 0#16) = true ∧
      s.behindPosted (mkHandle 0#10 1#10 1#2 1#26 256#16) = false ∧ Healthy s ∧ CacheSound s) := by
  unfold Healthy QueueSound CacheSound State.Canonical; decide +kernel

theorem witness_init_words : (4095#16 : BitVec 16).toNat < 4096 ∧ ¬InitBad 1#2 0#64 ∧ ¬InitBad 0#2 1#64 ∧ ¬InitBad 0#2 0xFFFFF#64 ∧
    InitBad 0#2 0x100000#64 ∧ InitBad 2#2 1#64 ∧ ¬InitBad 3#2 0x0101000000000000#64 ∧ InitBad 3#2 0x0100000000000000#64 := by
  refine ⟨by decide, ?_, ?_, ?_, ?_, ?_, ?_, ?_⟩ <;> (unfold InitBad; decide +kernel)

theorem witness_WaitsEndWhenTheConditionHolds :
    (let s := holding 2#2 5#64 0x100000000#64 0#64
     s.me.run = some 4#8 ∧ (s.me.slot? 4#8).isSome = true ∧ Healthy s ∧ CacheSound s ∧ s.stale s.crew (cell 2#2) = false ∧
      (s.cellOf 0#10 256#16).phase.getLsbD 0 = true ∧ s.heldByReplay s.crew (cell 2#2) = false ∧ hCore (cell 2#2) = s.me.id) ∧
    ((holding 2#2 0#64 0#64 0#64).cellOf 0#10 256#16).phase.getLsbD 0 = false ∧
    (let h := mkHandle 0#10 0#10 1#2 0#26 2#16
     hIndex h = 2#16 ∧ hKind h = 1#2 ∧ hGen h = 0#26) ∧
    (let s := withCell 3#2 0x0101000000010000#64 0#64 ((dev 4#8 (regs [(1, cell 3#2)])).physWrite 0x10000010008 8 0x8000000000000005)
     s.stale s.crew (cell 3#2) = false ∧ resourceByte (s.headWord (cell 3#2)) = none ∧
      cellAddr 0#10 256#16 + 16 ≤ s.headWord (cell 3#2) ∧ s.cellCondition (cell 3#2) 0#64 = true) ∧
    (holding 3#2 0x0101000000000000#64 0#64 0#64).cellCondition (cell 3#2) 0#64 = false ∧
    (let s := holding 1#2 0x300000002#64 0#64 0#64
     s.stale s.crew (cell 1#2) = false ∧ (s.cellOf 0#10 256#16).count < (s.cellOf 0#10 256#16).threshold) ∧
    (let s := holding 1#2 0x300000003#64 0#64 0#64
     (s.cellOf 0#10 256#16).threshold ≤ (s.cellOf 0#10 256#16).count) := by
  unfold Healthy QueueSound CacheSound State.Canonical; decide +kernel

/-- What a read answered, if it did not fault. -/
def answer {α : Type} : Except (MemFault × Word) α → Option α
  | .ok v => some v
  | .error _ => none

/-- A read that answers a value is one as the statements ask for it. -/
theorem eq_of_answer {α : Type} {r : State × Except (MemFault × Word) α} {v : α} (h : answer r.2 = some v) : ∃ s1, r = (s1, .ok v) := by
  obtain ⟨s1, e | w⟩ := r
  · cases h
  · cases h; exact ⟨s1, rfl⟩

/-- x4 = 0x2000, whose block of 6 doublewords ends with `last`, and x1 names a count cell; x5 = 0. -/
def farmer (last : Nat) (dval : Word) : State :=
  withCell 1#2 0x300000002#64 dval ((dev 4#8 (regs [(1, cell 1#2), (4, 0x2000#64)])).physWrite 0x80028 8 last)

/-- The state after the doublewords of a block are read. -/
def loaded (s : State) (va : Word) (n : Nat) : State := (s.loadDws va n).1

theorem witness_CoroutinesAreCreatedAndEnd :
    (let s := farmer 4 0#64
     s.me.run = some 4#8 ∧ (s.me.slot? 4#8).isSome = true ∧ Healthy s ∧ CacheSound s ∧ (s.coreAt 0#10).bound = s.crew ∧
      (s.coreAt 0#10).lowestSlot s.sup = some 5#8 ∧ 0 < (s.coreAt 0#10).emptySlots s.sup ∧ (s.release (reachOf s.me.id 0#10)).coreAt 0#10 = s.coreAt 0#10 ∧
      ((s.coreAt 0#10).takeContext 5#8).isSome = true ∧ s.crewFaulted s.crew = false ∧ s.behindPosted (cell 1#2) = false ∧
      (behind s).behindPosted (cell 1#2) = true ∧ s.x 1#5 ≠ 0#64 ∧ 16 ≤ (stuffed s).me.outq.length ∧ (s.coreAt 1#10).bound ≠ s.crew ∧ s.crew ≠ 0#7 ∧
      s.heldByReplay s.crew (cell 1#2) = false ∧ s.stale s.crew (cell 1#2) = false ∧ (s.cellOf 0#10 256#16).dval = false ∧
      s.stale s.crew (cell 0#2) = true ∧
      answer (s.loadDws 0x2000#64 6).2 = some [0#64, 0#64, 0#64, 0#64, 0#64, 4#64] ∧ (loaded s 0x2000#64 6).me.ctx = s.me.ctx ∧
      AppliesAtOnce s (cell 1#2) ∧ s.me.ctx.record = none ∧ s.x 5#5 = 0#64) ∧
    ((farmer 4 0x4000#64).cellOf 0#10 256#16).dval = true ∧
    (loaded (farmer 5 0#64) 0x2000#64 6).me.ctx = (farmer 5 0#64).me.ctx ∧
    answer ((farmer 5 0#64).loadDws 0x2000#64 6).2 = some [0#64, 0#64, 0#64, 0#64, 0#64, 5#64] ∧
    (0x2C00#64).getLsbD 13 = true ∧ 2 < 3 ∧ 3 < bits 0x3000#64 12 10 ∧ (0x3000#64).getLsbD 13 = true := by
  dsimp only
  and_intros <;> first | decide +kernel | (unfold QueueSound; decide +kernel) | (unfold State.Canonical; decide +kernel)

/-- Slot 0 runs with x1 naming slot 9, x2 = 0x2000, x3 = `parts`; slot 9 is as given. -/
def saving (parts : Word) (u : List Slot) : State :=
  let s := dev 0#8 (regs [(1, 9#64), (2, 0x2000#64), (3, parts)])
  { s with me := { s.me with slots := s.me.slots ++ u } }

/-- Doublewords as the cells that memory lists from an address. -/
def cellsOf (a : Nat) (l : List Word) : List Host.Cell :=
  ((List.range (8 * l.length)).map fun i => (a + i, (l.getD (i / 8) 0#64).extractLsb' (8 * (i % 8)) 8)).filter fun c => c.2 ≠ 0#8

/-- `saving` with the frame of a slot at 0x2000. -/
def imaged (parts : Word) (frame : List Word) (u : List Slot) : State := { saving parts u with mem := cellsOf 0x80000 frame }

/-- A fresh frame of crew 1. -/
def frame1 : List Word := (slotAt 9#8 .waiting).frame 0#10 1#7 7#32

/-- A frame whose v1 is saved. -/
def frame2 : List Word := ({ slotAt 9#8 .waiting with saved := 0xFFFFFF0000000002#64 } : Slot).frame 0#10 1#7 7#32

theorem witness_ContextsAreSaved : (addrs 4#8).sup = false ∧
    (let s := saving 1#64 [slotAt 9#8 .held]
     s.sup = true ∧ (s.x 1#5).extractLsb' 8 10 = s.me.id ∧ (s.x 2#5).toNat % 4096 = 0 ∧ (s.x 1#5).toNat < 2 ^ 18 ∧
      s.me.completionMasks 9#8 = 0#64 ∧ s.me.slot? 9#8 = some (slotAt 9#8 .held) ∧
      (let r := s.storeBlocks 0x2000#64 ((0, (slotAt 9#8 .held).frame s.me.id (s.me.crewOf 9#8) s.me.saveCount) ::
         (slotAt 9#8 .held).parts (queueImage s.fresh))
       r.2 = none ∧ Healthy r.1 ∧ CacheSound r.1)) ∧
    (saving 1#64 []).me.slot? 9#8 = none ∧ ((saving 1#64 []).me.slot? 0#8).map (·.state) = some .running ∧
    (let s := saving 1#64 [slotAt 9#8 .held]
     ({ s.me with copies := [{ s.newCopy .tile 0x0080000000000000#64 [] with slot := 9#8 }] } : Core).completionMasks 9#8 ≠ 0#64 ∧
      s.statusPending 9#8 = false ∧
      ({ s with me := { s.me with outq := (behind (addrs 4#8)).me.outq.map fun o => { o with op := { o.op with srcSlot := 9#8 } } } } :
        State).statusPending 9#8 = true) := by
  unfold Healthy QueueSound CacheSound State.Canonical; decide +kernel

theorem witness_ContextsAreRestored :
    (let s := imaged 1#64 frame2 []
     answer (s.loadBlock 0x2000#64 0 128).2 = some frame2 ∧ frameDw frame2 0xB0 = 1#64 ∧ frameOk frame2 = true ∧
      frameVector frame2 = true ∧ s.me.slot? 9#8 = none ∧ s.me.bound.zeroExtend 64 = frameDw frame2 0xB0 ∧ ¬((9#8 : BitVec 8).toNat < 4) ∧
      (let r := (s.loadBlock 0x2000#64 0 128).1
       answer (r.readQueue 0x2000#64 (frameDw frame2 0)).2 = some (some none) ∧
       (r.me.takeIn (frameSlot frame2 9#8 (frameCtx frame2))).isSome = true ∧
       ({ r.me with rsv := 0#8, slots := (List.range 44).map fun i => slotAt (BitVec.ofNat 8 (10 + i)) .held } : Core).takeIn
         (frameSlot frame2 9#8 (frameCtx frame2)) = none)) ∧
    (let s := imaged 3#64 frame1 []
     let r := (s.loadBlock 0x2000#64 0 128).1
     let q := (r.readQueue 0x2000#64 (frameDw frame1 0)).1
     answer (s.loadBlock 0x2000#64 0 128).2 = some frame1 ∧ frameVector frame1 = false ∧ answer (r.readQueue 0x2000#64 (frameDw frame1 0)).2 = some (some none) ∧
      (answer (q.loadVector 0x2000#64 (frameDw frame1 8) ((frameDw frame1 0).getLsbD 52) none (frameCtx frame1)).2).isSome = true) ∧
    (let s := imaged 2#64 frame1 [{ slotAt 9#8 .held with deferred := some 7#32, ctx := { Ctx.reset with status := 0x100#64 } }]
     (s.x 3#5).setWidth 2 = 2#2 ∧ answer (s.loadBlock 0x2000#64 0 2).2 = some [frameDw frame1 0, frameDw frame1 8] ∧ (frameDw frame1 0).extractLsb' 16 32 = 7#32 ∧
      (s.me.slot? 9#8).map (fun u => (u.state, u.deferred, u.ctx.status.getLsbD 8)) = some (.held, some 7#32, true)) ∧
    frameOk (frame1.set 0 0#64) = false ∧ 64 < (65#64 : Word).toNat := by decide +kernel

theorem witness_CoroutinesArePreemptedAndCrewsBound : (addrs 4#8).sup = false ∧
    (let s := saving 1#64 [slotAt 9#8 .ready]
     s.sup = true ∧ (s.coreAt (coidCore 9#18)).slot? (coidSlot 9#18) = some (slotAt 9#8 .ready) ∧ s.hasOwnRecord 9#18 = false ∧
      ((slotAt 9#8 .ready).state = .running ↔ (s.coreAt (coidCore 9#18)).run = some 9#8) ∧ (s.x 3#5).getLsbD 0 = true ∧
      (s.coreAt (coidCore 10#18)).slot? (coidSlot 10#18) = none ∧ (∃ u ∈ s.me.slots, 4 ≤ u.num.toNat)) ∧
    (let s := saving 0#64 []
     (s.coreAt (coidCore 0#18)).slot? (coidSlot 0#18) = some (slotAt 0#8 .running) ∧ (s.coreAt (coidCore 0#18)).run = some (coidSlot 0#18) ∧
      (s.x 3#5).getLsbD 0 = false ∧ (s.crew? 1#7).isSome = true ∧ s.crew? 2#7 = none ∧ (∀ u ∈ s.me.slots, u.num.toNat < 4) ∧
      (∀ q ∈ s.me.copies, q.crew ≠ s.me.bound) ∧ s.me.watches = [] ∧ 64 < (65#64 : Word).toNat) := by decide +kernel

/-! ### Copy commands -/

/-- x2 = 0x2000, where a descriptor stands; x1 names a barrier; other cells of memory after it. -/
def copier (desc : List Word) (more : List Host.Cell) : State :=
  let s := dev 4#8 { regs [(1, cell 0#2), (2, 0x2000#64), (3, 0x10000#64)] with vtype := 7#64, vl := 0x20002#64 }
  withCell 0#2 1#64 0#64 { s with mem := cellsOf 0x80000 desc ++ more }

/-- A state with commands of every entry. -/
def filled (s : State) : State :=
  { s with me := { s.me with copies := (List.range 8).map fun e => { s.newCopy .tile 0x0500000050000000#64 [] with entry := BitVec.ofNat 3 e } } }

/-- 256 bytes from scratchpad offset 0x20000 to 0x30000, with further bits of the control word and a barrier. -/
def tileWords (control barrier : Word) : List Word :=
  [control ||| 0x50000000#64, barrier, 0x20000#64, 0x30000#64, 0x1000100000100#64, 0#64, 0#64, 0#64]

theorem witness_CopyCommandsAreAccepted :
    (let s := copier (tileWords 0#64 0#64) []
     s.me.run = some 4#8 ∧ (s.me.slot? 4#8).isSome = true ∧ (s.x 2#5).toNat % 64 = 0 ∧ answer (s.loadDws 0x2000#64 8).2 = some (tileWords 0#64 0#64) ∧
      badTile (tileWords 0#64 0#64) = false ∧ tilesReached 0x50000000#64 (tileWords 0#64 0#64) = [] ∧ s.me.copies = []) ∧
    (let s := loaded (copier (tileWords 0x0800000000000000#64 (cell 0#2)) []) 0x2000#64 8
     Healthy s ∧ CacheSound s ∧ AppliesAtOnce s (cell 0#2)) ∧
    answer ((copier (tileWords 0x0800000000000000#64 (cell 0#2)) []).loadDws 0x2000#64 8).2 = some (tileWords 0x0800000000000000#64 (cell 0#2)) ∧
    badTile (tileWords 0x0800000000000000#64 (cell 0#2)) = false ∧ badTile (tileWords 1#64 0#64) = true ∧
    badTile (tileWords 0x80000000#64 0#64) = true ∧
    (let l := (tileWords 0#64 0#64).set 0 0x90000000#64
     badTile l = false ∧ tilesReached 0x90000000#64 l = [4]) ∧
    (badTile (tileWords 0x0500000000000000#64 0#64) = false ∧ ChaseHeld (filled (copier [] [])) 0x0500000050000000#64) ∧
    (∀ e : BitVec 3, ∃ p ∈ (filled (copier [] [])).me.copies, p.entry = e) ∧ 16 ≤ (stuffed (copier [] [])).me.outq.length := by
  unfold AppliesAtOnce ArrivesAtOnce ChaseHeld Healthy QueueSound CacheSound State.Canonical; decide +kernel

/-- One input stream and no output, 100 elements in strips of 64. -/
def streamWords : List Word :=
  [0x0200000400000000#64, 100#64, cell 0#2, 0#64, 0x10000#64, 0x1000#64] ++ List.replicate 10 0#64

/-- One output stream, reported to a barrier. -/
def streamOut : List Word := [0x0080000400000000#64, 100#64, 0#64, cell 0#2, 0x10000#64] ++ List.replicate 11 0#64

theorem witness_streams :
    answer ((copier streamWords []).loadDws 0x2000#64 16).2 = some streamWords ∧ (0x2000#64).toNat % 128 = 0 ∧
    badStream ((copier [] []).newCopy .stream (streamWords.getD 0 0#64) streamWords) = false ∧
    ((copier [] []).newCopy .stream (streamWords.getD 0 0#64) streamWords).outputs = 0 ∧
    (let s := loaded (copier streamOut []) 0x2000#64 16
     answer ((copier streamOut []).loadDws 0x2000#64 16).2 = some streamOut ∧ badStream (s.newCopy .stream (streamOut.getD 0 0#64) streamOut) = false ∧
      0 < (s.newCopy .stream (streamOut.getD 0 0#64) streamOut).outputs ∧ AppliesAtOnce s (streamOut.getD 3 0#64) ∧ Healthy s ∧ CacheSound s) ∧
    badStream ((copier [] []).newCopy .stream 0#64 []) = true := by
  unfold AppliesAtOnce ArrivesAtOnce Healthy QueueSound CacheSound State.Canonical; decide +kernel

/-- Two entries of one head of 256 bytes from a block table at 0x1000, to scratchpad offset 0x40000. -/
def kvWords (control barrier : Word) : List Word :=
  [control ||| 0x40000000#64, barrier, 0x1000#64, 0x100000004#64, 0x200020000#64, 0#64, 0x10001#64, 0x100#64, 0#64, 0x40000#64, 0x30000#64] ++
    List.replicate 5 0#64

/-- A restriction of a grid of 2 × 1 × 1 f32 points at 0x20000 into one of 1 × 1 × 1 at 0x30000, by the table at 0x10000. -/
def gridWords (control barrier : Word) : List Word :=
  [control, barrier, 0x10000#64, 0#64, 0x20000#64, 0x29000100010002#64, 0x0000000800000008#64, 0#64, 0x30000#64, 0x29000100010001#64,
    0x0000000800000008#64, 0#64, 0#64, 0#64, 0#64, 0#64]

theorem witness_kvs_and_grids :
    (let s := copier (kvWords 0#64 0#64) []
     answer (s.loadDws 0x2000#64 16).2 = some (kvWords 0#64 0#64) ∧ badKvs (s.newCopy .kvs 0x40000000#64 (kvWords 0#64 0#64)) = false ∧
      badKvs (s.newCopy .kvs 0x0840000000000000#64 (kvWords 0#64 0#64)) = true ∧
      badKvs (s.newCopy .kvs 0x0800000040000000#64 (kvWords 0x0800000000000000#64 (cell 0#2))) = false) ∧
    (let s := copier (gridWords 0#64 0#64) (cellsOf 0x10000010010 [0x3F800000#64])
     answer (s.loadDws 0x2000#64 16).2 = some (gridWords 0#64 0#64) ∧ s.readTable 0x10000#64 = .ok 0#64 [0x3F800000] ∧
      badGrid (s.newCopy .grid 0#64 (gridWords 0#64 0#64 ++ [0#64, 0x2000#64])) = false ∧
      badGrid (s.newCopy .grid 0x0800000000000000#64 (gridWords 0x0800000000000000#64 (cell 0#2) ++ [0#64, 0x2000#64])) = false ∧
      badGrid (s.newCopy .grid 1#64 (gridWords 1#64 0#64 ++ [0#64, 0x2000#64])) = true ∧ s.readTable 0x10008#64 = .breach ∧
      s.readTable 0xFFFF0#64 = .breach ∧ { s with bad := [0x10000010000] }.readTable 0x10000#64 = .bad (padEaddr 0#10 0x10000)) := by
  decide +kernel

/-- Two elements of 8 bytes gathered from 0x1000 to scratchpad offset 0x30000. -/
def gatherWords : List Word := [0x13000000#64, 0#64, 0x1000#64, 0x30000#64, 0#64, 0#64, 0#64, 0#64]

theorem witness_wst_and_gathers :
    (let s := copier gatherWords []
     s.me.ctx.status.getLsbD 8 = false ∧ shapeOk s.me.ctx.vl s.me.ctx.vtype = true ∧ (3#5 : BitVec 5).toNat % vtN s.me.ctx.vtype = 0 ∧
      vtEt s.me.ctx.vtype = 7 ∧ vlLen s.me.ctx.vl ≤ 2048 ∧ answer (s.loadDws 0x2000#64 8).2 = some gatherWords ∧ badGather gatherWords 1#3 2 = false ∧
      badGather (gatherWords.set 7 1#64) 1#3 2 = true ∧ s.me.ctx.vq = [] ∧ ((loaded s 0x2000#64 8).claimDirty 0x200000000#64).2 = true ∧
      (0 < (s.x 3#5).toNat ∧ (s.x 3#5).toNat ≤ 2 ^ 24) ∧ (s.x 0#5).toNat = 0) ∧
    shapeOk 0x20002#64 0#64 = true ∧ ¬(vtEt 0#64 = 6 ∨ vtEt 0#64 = 7) := by decide +kernel

/-- A state with one command in entry 2. -/
def commanded (c : CopyState) : State :=
  let s := copier [] []
  { s with me := { s.me with copies := [{ s.newCopy .tile 0x50000000#64 (tileWords 0#64 0#64) with entry := 2#3, seq := 5#29, state := c }] } }

theorem witness_CopyCommandsAreControlled :
    (commanded .stopped).me.copies.map (fun c => (c.entry, c.seq, c.state, c.crew == (commanded .stopped).crew)) = [(2#3, 5#29, .stopped, true)] ∧
    (commanded .running).me.copies.map (fun c => (c.entry, c.seq, c.state, c.crew == (commanded .running).crew)) = [(2#3, 5#29, .running, true)] ∧
    (commanded .waiting).me.copies.map (fun c => (c.entry, c.seq, c.state, c.crew == 2#7)) = [(2#3, 5#29, .waiting, false)] ∧
    ((0x40000005#64).extractLsb' 32 10, (0x40000005#64).extractLsb' 29 3, (0x40000005#64).extractLsb' 0 29) = (0#10, 2#3, 5#29) ∧
    ((0x5FFFFFFF#64).extractLsb' 32 10, (0x5FFFFFFF#64).extractLsb' 29 3, (0x5FFFFFFF#64).extractLsb' 0 29) = (0#10, 2#3, 0x1FFFFFFF#29) ∧
    (0x40000006#64).extractLsb' 0 29 ≠ 5#29 ∧ (copier [] []).me.copies.length = 0 ∧ (0x100000000#64).extractLsb' 32 10 ≠ (0#10 : BitVec 10) := by
  decide +kernel

theorem witness_mgCheck : (copier [] []).readTable 0x10001#64 = .breach ∧
    (copier [] (cellsOf 0x10000010000 [1#64, 0#64, 0x3F0000003F000000#64])).readTable 0x10000#64 = .ok 1#64 [0x3F000000, 0x3F000000] ∧
    ({ copier [] [] with bad := [0x10000010000] } : State).readTable 0x10000#64 = .bad (padEaddr 0#10 0x10000) := by decide +kernel

/-! ### The matrix engine, pages and spaces -/

/-- x1 = 2, x2 = 0x10000; the core holds tile 0 in unit 3 under a shape; vector-off as given. -/
def matrixed (shape status : Word) (bad : List Nat) : State :=
  let s := dev 4#8 { regs [(1, 2#64), (2, 0x10000#64)] with status := status }
  { s with me := { s.me with grant := [3#3], mshape := shape }, movements := [{ Movement.reset 0#8 with tlb := tlb, bad := bad }] }

theorem witness_MatrixInstructionsActOnTiles :
    (let s := matrixed 0x0C0C#64 0#64 []
     s.me.run = some 4#8 ∧ (s.me.slot? 4#8).isSome = true ∧ s.me.ctx.mq = [] ∧ s.me.ctx.status.getLsbD 8 = false ∧ (0#3 : BitVec 3).toNat < s.me.grant.length ∧
      ¬(7#3 : BitVec 3).toNat < s.me.grant.length ∧ s.me.mshape.getLsbD 63 = false ∧ bits s.me.mshape 4 0 = 12 ∧ bits s.me.mshape 12 8 = 12 ∧
      Healthy s ∧ CacheSound s ∧ s.me.copies = [] ∧ (s.claimDirty 0xFF00#64).2 = true ∧ (s.x 2#5).toNat % 1024 = 0 ∧ (s.x 1#5).toNat % 1024 ≠ 0 ∧
      ¬s.accBad 3#3 0) ∧
    (matrixed 0x8000000000000000#64 0#64 []).me.mshape.getLsbD 63 = true ∧ (matrixed 0#64 0x100#64 []).me.ctx.status.getLsbD 8 = true ∧
    ((matrixed 0x0C0C#64 0#64 [24576]).accBad 3#3 0) ∧ (0x1010#64).getLsbD 63 = false ∧
    (bits 0x0F0C#64 63 13 = 0 ∧ bits 0x0F0C#64 7 5 = 0 ∧ bits 0x0F0C#64 4 0 = 12 ∧ bits 0x0F0C#64 12 8 = 15) := by
  unfold State.accBad Healthy QueueSound CacheSound State.Canonical; decide +kernel

theorem witness_no_bad_accumulator : ∀ i < 4096, ¬(matrixed 0x0C0C#64 0#64 []).accBad 3#3 i := fun _ _ => by
  unfold State.accBad; exact List.not_mem_nil

/-- Crew 1 with an arena of 2 MiB at 0x40000000 over pool 0, whose top is frame 5 of two; frames 6 (held) and 7 (mapped). -/
def paged (n : BitVec 8) (c : Ctx) (leaf : Word) (head : Word) : State :=
  { dev n c with
    mem := cellsOf 0 [0x401#64] ++ cellsOf 0x1000 [0x801#64] ++ cellsOf 0x2008 [0xC01#64] ++ cellsOf 0x3000 [0x1001#64] ++
      cellsOf 0x4000 [leaf] ++ cellsOf 0x20000 [0x40000000#64, 0x200000#64, 0x8000000000000000#64] ++ cellsOf 0x30000 [head, 2#64]
    frames := [⟨5, .pooled, 1#7, 0xFFFFFF#24⟩, ⟨6, .held, 1#7, 0xFFFFFF#24⟩, ⟨7, .mapped, 1#7, 0xFFFFFF#24⟩] }

/-- x1 names pool 0 of crew 1 for S, x2 to x4 frames 6, 7 and 5, x5 a page of the arena. -/
def pool1 : Ctx := regs [(1, 0x10#64), (2, 0x60000#64), (3, 0x70000#64), (4, 0x50000#64), (5, 0x40000000#64), (6, 1#64)]

theorem witness_FramesMoveBetweenPoolsAndCrews :
    (let s := paged 0#8 pool1 0#64 5#64
     PoolNamed s 0x10#64 crew1 0 ∧ PoolPlaced crew1 0 ∧ Healthy s ∧ CacheSound s ∧ s.poolTop crew1 0 = some 5 ∧ PoolQuiet s crew1 0 ∧
      (s.frame? 6).map (fun e => (e.state, e.crew)) = some (.held, 1#7) ∧ (s.frame? 7).map (·.state) = some .mapped ∧ s.frame? 8 = none ∧
      (s.frame? 5).map (·.state) = some .pooled ∧ (0x60000 % 65536 = 0 ∧ 0x60000 < s.romBase ∧ 0x60000 < hbmSize) ∧ s.crew? 2#7 = none) ∧
    PoolNamed (paged 4#8 pool1 0#64 5#64) 0#64 crew1 0 ∧ (paged 0#8 pool1 0#64 0xFFFFFF#64).poolTop crew1 0 = none := by
  unfold PoolNamed PoolPlaced PoolQuiet Healthy QueueSound CacheSound State.Canonical; decide +kernel

theorem witness_PagesAreCommittedAndDecommitted :
    (let s := paged 4#8 pool1 0#64 5#64
     ((s.arenaPage 0x40000000).map fun p => (p.1.num, p.2.1.getD 1 0#64, p.2.2)) = some (1#7, 0x200000#64, 0x4000) ∧ s.arenaPage 0x40200000 = none ∧
      Healthy s ∧ CacheSound s ∧ NothingWaits s 0x101#16 0x40000000 ∧ (∀ i < 16, resourceByte (0x4000 + 8 * i) = none) ∧
      (∀ i, i < 16 → (s.release 3#3).physRead (0x4000 + 8 * i) 8 = 0) ∧ PoolPlaced crew1 0 ∧ (s.release 3#3).poolTop crew1 0 = some 5 ∧
      PoolQuiet (s.release 3#3) crew1 0 ∧ (s.frame? (0x60000 / 65536)).map (fun e => (e.state, e.crew)) = some (.held, 1#7)) ∧
    ((paged 4#8 pool1 0x80000000000150D7#64 5#64).release 3#3).physRead 0x4000 8 ≠ 0 ∧
    ((paged 4#8 pool1 0x80000000000150D7#64 5#64).arenaPage 0x40000000).isSome = true ∧ 0x30000 + 32 ≤ hbmSize ∧ 0x4000 + 128 ≤ 0x30000 := by
  unfold NothingWaits PoolPlaced PoolQuiet Healthy QueueSound CacheSound State.Canonical; decide +kernel

theorem witness_TranslationsAndSpacesAreSupervised :
    (let s := dev 0#8 (regs [(1, 0x101000000000000#64 >>> 4), (2, 0x1000#64), (3, 0x1000#64), (4, 1#64), (5, 0xB000000000000007#64), (6, 3#64), (7, 65#64)])
     s.sup = true ∧ bits (s.x 1#5) 1 0 = 0 ∧ s.faults = [] ∧ Healthy s ∧ CacheSound s ∧ s.crew? 1#7 = some crew1 ∧ bits (s.x 5#5) 63 60 = 11 ∧
      bits (s.x 2#5) 63 60 = 0 ∧ bits (s.x 3#5) 63 60 ∈ [0, 10, 11] ∧ bits (s.x 6#5) 1 0 = 3 ∧ s.crew? 3#7 = none ∧ 64 < (s.x 7#5).toNat) ∧
    (addrs 4#8).sup = false := by
  unfold Healthy QueueSound CacheSound State.Canonical; decide +kernel

/-! ### Messages, rankings and windows -/

/-- x1 names a mailbox of two slots at scratchpad offset 0x10000, whose slots hold buffers as given; x2 = 0x2000, where a block stands; x3 = a
buffer of 512 bytes. -/
def mailer (kind : BitVec 2) (lower : Word) (block : List Word) (slots : List Word) : State :=
  withCell kind lower 0#64 { dev 4#8 (regs [(1, cell kind), (2, 0x2000#64), (3, 0x4002#64)]) with
    mem := cellsOf 0x80000 block ++ cellsOf 0x10000010000 slots }

theorem witness_MessagesAreSentAndBuffersPosted :
    (let s := mailer 3#2 0x0101000100000000#64 [0x1000#64, 100#64, 7#64, 0#64] [0x1002#64]
     let s1 := loaded s 0x2000#64 4
     let s2 := s1.release (s1.reach s1.me.id (cell 3#2))
     16 ≤ (hIndex (cell 3#2)).toNat ∧ (s.x 2#5).toNat % 32 = 0 ∧ answer (s.loadDws 0x2000#64 4).2 = some [0x1000#64, 100#64, 7#64, 0#64] ∧ Healthy s1 ∧
      CacheSound s1 ∧ hKind (cell 3#2) = 3#2 ∧ s.me.copies = [] ∧ hDev (cell 3#2) = s.devNo ∧ s2.stale s.crew (cell 3#2) = false ∧
      s2.boundTo (hCore (cell 3#2)) s.crew = true ∧ (s2.coreAt (hCore (cell 3#2))).replay = false ∧ (s2.cellOf 0#10 256#16).posted = 1#16 ∧
      s2.physRead (slotAddr 0#10 (s2.cellOf 0#10 256#16) 0) 8 = 0x1002 ∧ s2.stale s.crew (cell 3#2 + 0x10000#64) = true) ∧
    ((mailer 3#2 0x0101000000000000#64 [] []).cellOf 0#10 256#16).posted = 0#16 := by
  unfold Healthy QueueSound CacheSound State.Canonical; decide +kernel

theorem witness_posts :
    (let s := mailer 3#2 0x0101000100010000#64 [] [0x1002#64, 0#64, 0x1001#64]
     let c := s.cellOf 0#10 256#16
     hDev (cell 3#2) = s.devNo ∧ hCore (cell 3#2) = s.me.id ∧ (s.x 3#5).toNat % 256 ≠ 0 ∧ s.heldByReplay s.crew (cell 3#2) = false ∧
      s.stale s.crew (cell 3#2) = false ∧ (c.tail - c.head).toNat + c.posted.toNat = 2 ^ c.lsize) ∧
    (let s := mailer 3#2 0x0101000000010000#64 [] [0x1002#64]
     let c := s.cellOf 0#10 256#16
     let at_ := slotAddr 0#10 c (c.tail.toNat + c.posted.toNat)
     (c.tail - c.head).toNat + c.posted.toNat ≠ 2 ^ c.lsize ∧ Healthy s ∧ CacheSound s ∧ resourceByte at_ = none ∧ cellAddr 0#10 256#16 + 16 ≤ at_) ∧
    (let s := mailer 1#2 0x300000002#64 [] []
     s.me.ctx.vq = [] ∧ s.me.outq.length < 16 ∧ AppliesAtOnce s (cell 1#2) ∧ hKind (cell 3#2) ∉ [0#2, 1#2] ∧ Healthy s ∧ CacheSound s ∧
      hKind (cell 1#2) ∈ [0#2, 1#2]) := by
  dsimp only
  and_intros <;> first | decide +kernel | (unfold QueueSound; decide +kernel) | (unfold State.Canonical; decide +kernel)

/-- v1 = 3, 9, −1 as i32 scores, merged into a list in v2 and v3; x1 asks for the best 2. -/
def scores (vl : Word) : State := (shaped 6#64 vl).updCtx fun c => { c with
  v := c.v.set 1 0xFFFFFFFF0000000900000003#16384, x := c.x.set 1 0x201#64 }

/-- x1 = 0x20000, where a block stands; arrays from 0x21000 on. -/
def ranked (block : List Word) : State :=
  { dev 4#8 (regs [(1, 0x20000#64), (2, 0x80000001#64)]) with
    mem := cellsOf 0x10000020000 block ++ cellsOf 0x10000021000 [0x3F0000003E800000#64] ++ cellsOf 0x10000023000 [3#64] }

/-- Two positions of f32 confidences. -/
def roundBlock : List Word := [2#64, 0x21000#64, 0x22000#64, 0x23000#64, 0x24000#64, 0x25000#64]

/-- Two layers of three blocks and one committed position. -/
def dirtyBlock : List Word := [0x30002#64, 0x21000#64, 0x22000#64, 1#64, 0x24000#64]

theorem witness_RankingsSelectTheBest :
    (let s := (scores 0x30003#64).updCtx fun c => { c with vtype := 9#64 }
     let c := s.me.ctx
     let legal : Bool := decide (vtEt c.vtype ∈ [2, 9, 10, 11, 13]) && decide (vlLen c.vl ≤ 4096) && groupOk 1#5 (vtN c.vtype) && decide ((4#5 : BitVec 5).toNat % 2 = 0) &&
       disjoint 4#5 2 1#5 (vtN c.vtype)
     VIssues s legal (vBits 4#5 2 ||| shBit 1#2) (claimed s (vBits 4#5 2 ||| shBit 1#2)) ∧ 0 < vlLen c.vl) ∧
    vlLen (scores 0#64).me.ctx.vl = 0 ∧
    ((ranked []).x 2#5 = 0x80000001#64 ∧ ¬((ranked []).x 1#5).toNat % 64 ≠ 0 ∧ ((ranked []).x 2#5).toNat % 64 ≠ 0) ∧
    (Healthy (ranked roundBlock) ∧ CacheSound (ranked roundBlock)) ∧
    ((List.range 8).map fun i => BitVec.ofNat 64 ((ranked roundBlock).pad (0x20000 + 8 * i) 8)) = roundBlock ++ [0#64, 0#64] ∧
    badRound (roundBlock ++ [0#64, 0#64]) = false ∧ badRound [] = true ∧ Apart 0x23000 1 0x24000 8 ∧ Apart 0x24000 8 0x25000 8 ∧ Apart 0x23000 1 0x25000 8 ∧
    ((List.range 8).map fun i => BitVec.ofNat 64 ((ranked dirtyBlock).pad (0x20000 + 8 * i) 8)) = dirtyBlock ++ [0#64, 0#64, 0#64] ∧
    badDirty (dirtyBlock ++ [0#64, 0#64, 0#64]) = false ∧ badDirty [] = true := by
  dsimp only
  and_intros <;> first | decide +kernel | (unfold QueueSound; decide +kernel) | (unfold State.Canonical; decide +kernel) | (unfold State.Keeps; decide +kernel) | (unfold Apart; decide +kernel)

/-- What an endpoint's page check answers, if it does not fault. -/
def pageOf {α : Type} : Except MemFault α → Option α
  | .ok v => some v
  | .error _ => none

/-- Window 5 of crew 1: a page from a base, open to crew 1 of every device. -/
def window5 (base : Word) (st : WindowState) : Window :=
  ⟨5#12, st, 1#7, base, 0x1000, true, true, true, true, 0#10, 1, [⟨true, 0#10, 1023#10, 1#7⟩], 0, 0#64⟩

/-- x1 points through window 5 of this device, x2 through window 6, x3 through a window of device 1, x4 = 0x2000, x5 = 8 bytes further. -/
def windowed (base : Word) (st : WindowState) (block : List Word) : State :=
  { dev 4#8 (regs [(1, 0x140000000008#64), (2, 0x180000000008#64), (3, 0x40000000000008#64), (4, 0x2000#64), (5, cell 1#2)]) with
    mem := cellsOf 0x80000 block, windows := [window5 base st] }

/-- A descriptor of a page, read and written by crew 1 of device 1. -/
def windowWords : List Word := [0x1000#64, 0x1000#64, 3#64, 0#64, 0x8000000000020081#64, 0#64, 0#64, 0#64]

theorem witness_WindowsAreOpenedAndUsed :
    (let s := windowed 0x1000#64 .opened windowWords
     s.me.run = some 4#8 ∧ (s.me.slot? 4#8).isSome = true ∧ (s.x 4#5).toNat % 64 = 0 ∧ answer (s.loadDws 0x2000#64 8).2 = some windowWords ∧
      badWindow windowWords = false ∧ badWindow (windowWords.set 3 1#64) = true ∧ (∀ w ∈ s.windows, w.index ≠ s.lastWindow + 1#12) ∧
      ((s.x 1#5).extractLsb' 42 12) = 5#12 ∧ ((s.x 2#5).extractLsb' 42 12) = 6#12 ∧ hDev (s.x 1#5) = s.devNo ∧ hDev (s.x 3#5) ≠ s.devNo ∧
      s.hasRoute (hDev (s.x 3#5)) = false ∧ ({ s with routes := [1] } : State).hasRoute (hDev (s.x 3#5)) = true ∧
      (s.x 1#5).toNat % 8 = 0) ∧
    (windowed 0#64 .closing []).windows = [window5 0#64 .closing] := by decide +kernel

/-- Page tables from 0 on, with a last entry for a page below 0x1000000. -/
def tables (page : Nat) (leaf : Word) : List Host.Cell :=
  cellsOf 0 [0x401#64] ++ cellsOf 0x1000 [0x801#64] ++ cellsOf 0x2000 [0xC01#64] ++ cellsOf 0x3000 [0x1001#64] ++ cellsOf (0x4000 + 8 * page) [leaf]

theorem witness_window_accesses :
    (let s := { windowed 0x1000#64 .opened [] with mem := tables 1 0x1C0D7#64 }
     NothingBefore s 4#8 (hDev (s.x 1#5)) false ∧ Admits s (window5 0x1000#64 .opened) (·.r) (s.x 1#5) 8 ∧ Admits s (window5 0x1000#64 .opened) (·.a) (s.x 1#5) 8 ∧
      pageOf (s.endpointPage (window5 0x1000#64 .opened) false 0x1008#64).2 = some 0x70008 ∧
      pageOf (s.endpointPage (window5 0x1000#64 .opened) true 0x1008#64).2 = some 0x70008 ∧
      Healthy (s.endpointPage (window5 0x1000#64 .opened) true 0x1008#64).1 ∧ resourceByte 0x70008 = none) ∧
    pageOf ((windowed 0x7000#64 .opened []).endpointPage (window5 0x7000#64 .opened) false 0x7008#64).2 = none ∧
    (Instr.wamoCas 8#5 1#5 2#5 1#1 1#1, (none : Option Word)) ∈
      (wamoRows 8#5 1#5 2#5 1#1 1#1 0#64 1#64).map (fun r => (r.1, r.2 0#64)) := by
  dsimp only
  and_intros <;> first | decide +kernel | (unfold QueueSound; decide +kernel)

/-- Every window of the table, open. -/
def allWindows : List Window := (List.range 4096).map fun k => { window5 0#64 .opened with index := BitVec.ofNat 12 k }

theorem witness_no_window_left (i : BitVec 12) : ∃ w ∈ allWindows, w.index = i := by
  have h : i.toNat < 4096 := i.isLt
  unfold allWindows
  exact ⟨{ window5 0#64 .opened with index := i }, List.mem_map.mpr ⟨i.toNat, List.mem_range.mpr h, by simp⟩, rfl⟩

theorem witness_wfence :
    (let s := withCell 1#2 0x300000002#64 0#64 (windowed 0x1000#64 .opened [])
     AppliesAtOnce s (s.x 5#5) ∧ NothingBefore s 4#8 (hDev (s.x 5#5)) true ∧ hKind (s.x 5#5) ∈ [0#2, 1#2] ∧ Healthy s ∧ CacheSound s ∧ s.sup = false ∧
      (hIndex 0#64).toNat < 16 ∧ 16 ≤ (stuffed s).me.outq.length) := by
  dsimp only
  and_intros <;> first | decide +kernel | (unfold QueueSound; decide +kernel) | (unfold State.Canonical; decide +kernel) | (unfold State.Keeps; decide +kernel) | (unfold Apart; decide +kernel)

/-! ### The device's own steps -/

/-- Slot 4 runs with a quantum word; further slots. -/
def sharing (quantum tvec : Word) (more : List Slot) : State :=
  let s := dev 4#8 { regs [] with quantum := quantum }
  { s with me := { s.me with slots := s.me.slots ++ more, tvec := tvec } }

theorem witness_TheEscapementSwitchesAndSpills :
    ({ sharing 0#64 0#64 [] with me := { (sharing 0#64 0#64 []).me with run := none } } : State).me.run = none ∧
    (let s := sharing 0x1400000000#64 0#64 [slotAt 5#8 .ready]
     s.me.run = some 4#8 ∧ s.me.slot? 4#8 = some (slotAt 4#8 .running) ∧ s.me.ctx.quantum.toNat % 2 ^ 34 = 0 ∧ bits s.me.ctx.quantum 57 34 ≠ 0 ∧
      supSlot 5#8 = supSlot 4#8 ∧ (slotAt 5#8 .ready).cls ≤ (slotAt 4#8 .running).cls ∧ s.me.tvec.getLsbD 0 = false ∧ supSlot 4#8 = false ∧
      s.me.readyOrder = [slotAt 5#8 .ready]) ∧
    (sharing 0x1400000000#64 1#64 []).me.tvec.getLsbD 0 = true ∧ supSlot 0#8 = true ∧
    (let s := sharing 0#64 0#64 [slotAt 0#8 .ready, slotAt 1#8 .waiting]
     InCache (slotAt 1#8 .waiting) ∧ slotAt 1#8 .waiting ∈ s.me.slots ∧
      (∀ u ∈ s.me.slots, u.state = .running ∨ u = slotAt 0#8 .ready ∨ u = slotAt 1#8 .waiting) ∧
      (slotAt 1#8 .waiting).spillSize ≤ s.me.reserveFree true ∧ ({ s.me with rsv := 0#8 } : Core).reserveFree false < (slotAt 5#8 .ready).spillSize) ∧
    (∀ u ∈ (sharing 0#64 0#64 []).me.slots, ¬InCache u) ∧
    (let u := { slotAt 5#8 .ready with spilled := true }
     let s := sharing 0#64 0#64 [u]
     s.me.slot? 5#8 = some u ∧ s.me.readyOrder = [u] ∧ u.units ≤ s.me.freeUnits ∧ 1 ≤ s.me.freeFrames) := by
  unfold InCache; decide +kernel

/-- `lanes` with a vector queue entry. -/
def queued (op : VOp) (finished : Bool) : State :=
  lanes.updCtx fun c => { c with
    vq := [⟨op, 2#5, 1#5, .scalar 1#64, 0#4, 0#19, c.vl, c.vtype, 0#64, 0#64, none, 0, 3, finished, 0#64, 0, 0#64, 0#64, false⟩] }

/-- A matrix queue entry on unit 3, on a state whose accumulator 0 there is uncorrectable. -/
def entered (op : MOp) : State :=
  let s := matrixed 0#64 0#64 [24576]
  s.updCtx fun c => { c with mq := [⟨op, 0#5, 0#5, 0#5, 0#1, 0#64, 3#3, 0#19, 0, false⟩] }

theorem witness_TheQueuesAndTilesAdvance :
    lanes.me.ctx.vq = [] ∧ lanes.me.ctx.mq = [] ∧
    (∀ e ∈ (queued (.int .add) false).me.ctx.vq, e.finished = false ∧ e.op.keepsStart = false ∧ ((queued (.int .add) false).vPerform e).2 = none) ∧
    (∀ e ∈ (queued (.load .unit 0x7000#64) false).me.ctx.vq, e.finished = false) ∧
    (∀ e ∈ (queued (.store .unit 0x3000#64 false) false).me.ctx.vq,
      (((queued (.store .unit 0x3000#64 false) false).vPerform e).2).map (fun r => (r.1, r.2.1)) = some (.protect, 0x3000#64)) ∧
    (∀ e ∈ (queued (.int .add) true).me.ctx.vq, e.finished = true ∧ e.op.keepsStart = false) ∧
    (∀ e ∈ (queued (.topk 1#64 0#2) false).me.ctx.vq, e.op = .topk 1#64 0#2 ∧ e.finished = false) ∧
    (let s := withCell 1#2 0x300000002#64 0#64 (queued (.fenceArrive (cell 1#2) 1#64 0#64 3#3) false)
     Healthy s ∧ CacheSound s ∧ AppliesAtOnce s (cell 1#2) ∧ s.me.ctx.vq.length = 1) ∧
    (entered (.shape 0x0C0C#64)).me.ctx.mq.length = 1 ∧ (entered .zero).me.ctx.mq.length = 1 ∧
    (∀ e ∈ (entered (.drain false)).me.ctx.mq, ((entered (.drain false)).mExecute e).2.isSome = true) ∧
    (({ entered .zero with movements := [{ Movement.reset 0#8 with freeing := [2#3] }] } : State).movAt 0#8).freeing = [2#3] := by
  unfold AppliesAtOnce ArrivesAtOnce Healthy QueueSound CacheSound State.Canonical; decide +kernel

/-- A state with the command of `tileWords` from offset `src`, in entry 2, as `f` changes it. -/
def moving (src : Word) (f : CopyCmd → CopyCmd) : State :=
  let s := copier [] []
  { s with me := { s.me with copies := [f { s.newCopy .tile 0x50000000#64 ((tileWords 0#64 0#64).set 2 src) with entry := 2#3 }] } }

theorem witness_CopyChannelsMoveTheirUnits :
    (let s := moving 0x20000#64 id
     s.channelBusy (movOf s.me.id) 0#4 = false ∧ (s.nextCopy (movOf s.me.id) 0#4).isSome = true ∧ s.me.copy? 3#3 = none) ∧
    (copier [] []).nextCopy 0#8 0#4 = none := by decide +kernel

theorem witness_pad_copies :
    (let s := moving 0x20000#64 fun c => { c with state := .running }
     (∀ c ∈ s.me.copies, PadCopy s c 0x20000 0x30000 256 ∧ c.done < (0x30000 % 256 + 256 + 255) / 256 ∧ c.kind ≠ .gather) ∧ Healthy s ∧ CacheSound s) := by
  unfold PadCopy Healthy QueueSound CacheSound State.Canonical; decide +kernel

theorem witness_pad_faults :
    (let s := moving 0x1000#64 fun c => { c with state := .running, slot := 9#8 }
     (∀ c ∈ s.me.copies, PadCopy s c 0x1000 0x30000 256 ∧ supSlot c.slot = false ∧ c.issuer = .present ∧ s.me.run ≠ some c.slot) ∧ Healthy s ∧ CacheSound s) := by
  unfold PadCopy Healthy QueueSound CacheSound State.Canonical; decide +kernel

theorem witness_gather_units :
    let s := moving 0x20000#64 fun c => { c with
      kind := .gather, state := .running, control := 0x13000000#64, desc := gatherWords, index := [0, 5] }
    ∀ c ∈ s.me.copies, c.kind = .gather ∧ c.state = .running ∧ c.control.getLsbD 55 = false ∧ c.dw 1 = 0#64 ∧ c.done < c.unitCount ∧
      (s.gatherRuns (c.who s.me.id) c (s.byQueue (c.who s.me.id) (c.unitRuns c.done))).2.2 = none := by decide +kernel

theorem witness_restarts :
    (let s := withCell 2#2 0#64 0x100000000#64 (moving 0x20000#64 fun c => { c with state := .waiting, token := cell 2#2 })
     ∀ c ∈ s.me.copies, c.state = .waiting ∧ (s.cellOf (hCore c.token) (hIndex c.token)).gen = hGen c.token ∧
       (s.cellOf (hCore c.token) (hIndex c.token)).phase.getLsbD 0 = true ∧ (s.cellOf (hCore c.token) (hIndex c.token)).lower = 0#64) ∧
    (let s := withCell 2#2 1#64 0x100000000#64 (moving 0x20000#64 fun c => { c with state := .waiting, token := cell 2#2, slot := 9#8 })
     ∀ c ∈ s.me.copies, (s.cellOf (hCore c.token) (hIndex c.token)).lower ≠ 0#64 ∧ c.issuer = .present ∧ s.me.run ≠ some c.slot) ∧
    (let s := withCell 2#2 0#64 0#64 (moving 0x20000#64 fun c => { c with state := .waiting, token := cell 2#2 })
     (s.cellOf 0#10 256#16).phase.getLsbD 0 = false ∧ (s.cellOf 0#10 256#16).gen = hGen (cell 2#2)) := by decide +kernel

/-- An add of 1 to a cell by a user coroutine of crew 1. -/
def adding (h : Word) : TokenOp := ⟨3#8, h, 1#64, 3#3, 0#64, false, 1#7, true, 0#10, 0#10, 4#8⟩

/-- The doublewords of an entry of a signal log (08_tokens.md Table 8.7). -/
def entryWords (op : TokenOp) : List Word :=
  [op.handle, BitVec.ofNat 64 (2 ^ 63 + op.scope.toNat * 2 ^ 60 + op.srcDev.toNat * 2 ^ 50 + op.srcCore.toNat * 2 ^ 40 + op.code.toNat), op.operand,
    op.reply]

/-- A count cell, with crew 1's signal log, its tail, an outgoing queue and a core that replays. -/
def homed (log : List TokenOp) (tail : Nat) (faulted : Bool) (out : List OutOp) (replay : Bool) : State :=
  let s := withCell 1#2 0x300000002#64 0#64 { addrs 4#8 with mem := cellsOf 0x40000 (log.flatMap entryWords) }
  { s with me := { s.me with outq := out, replay := replay, replayEnd := replay }, crews := [{ crew1 with logTail := tail, faulted := faulted }] }

theorem witness_TokenHomesApplyAndWake :
    (let s := homed [] 0 false [] false
     Healthy s ∧ CacheSound s ∧ TakenAtOnce s (adding (cell 1#2)) ∧ s.stale 0#7 (cell 0#2) = true ∧ hDev 0x40000000000000#64 ≠ s.devNo ∧
      (16 ≤ (hIndex (cell 0#2)).toNat)) ∧
    (let h := mkHandle 0#10 1#10 1#2 1#26 256#16
     let s := homed [] 0 false [] false
     hDev h = s.devNo ∧ s.crew? 1#7 = some crew1 ∧ s.boundTo (hCore h) 1#7 = false ∧ 16 ≤ (hIndex h).toNat ∧ crew1.faulted = false ∧
      LogSound crew1 ∧ crew1.logTail < crew1.logHead + 2 ^ crew1.logSize.toNat) ∧
    ((homed [] 256 false [] false).crews.map fun r => (r.faulted, decide (r.logHead + 2 ^ r.logSize.toNat ≤ r.logTail))) = [(false, true)] ∧
    (homed [] 0 true [] false).crews.map (·.faulted) = [true] := by
  unfold TakenAtOnce LogSound Healthy QueueSound CacheSound State.Canonical; decide +kernel

theorem witness_sends_and_replays :
    (let s := homed [] 0 false [⟨adding (cell 1#2), 0, [], [], 0, 0#64⟩] false
     s.me.outq.map (·.op) = [adding (cell 1#2)] ∧ s.me.copies = [] ∧ s.me.run = some (adding (cell 1#2)).srcSlot ∧ s.me.ctx.vq = [] ∧
      TakenAtOnce s (adding (cell 1#2)) ∧ (adding 0x40000000000000#64).srcCore = s.me.id ∧ (adding 0x40000000000000#64).reply = 0#64 ∧
      s.hasRoute (hDev 0x40000000000000#64) = false ∧ hDev 0x40000000000000#64 ≠ s.devNo ∧
      ({ s with routes := [1] } : State).hasRoute (hDev 0x40000000000000#64) = true) ∧
    (let o : OutOp := ⟨adding (cell 1#2), 0, [0#29], [5#29], 0, 0#64⟩
     (∃ c ∈ (commanded .stopped).me.copies, c.seq ∈ o.whole ∨ (c.seq ∈ o.first ∧ c.done = 0)) ∧
      ∃ e ∈ (queued (.load .unit 0x1000#64) false).me.ctx.vq, e.op.isMemory = true ∧ e.ord ≤ o.vector) ∧
    (let s := homed [adding (cell 1#2)] 1 false [] true
     let r := { crew1 with logTail := 1 }
     s.me.replay = true ∧ s.me.replayEnd = true ∧ Healthy s ∧ CacheSound s ∧ s.crew? s.me.bound = some r ∧ LogSound r ∧
      Logged s r 0 (adding (cell 1#2)) ∧ ReplayDue s r 0 s.me.id ∧ (adding (cell 1#2)).code ≠ 6#8 ∧
      hCore (cell 1#2) = s.me.id ∧ s.stale 1#7 (cell 1#2) = false) ∧
    (let s := homed [adding (mkHandle 0#10 1#10 1#2 1#26 256#16)] 1 false [] true
     ¬ReplayDue s { crew1 with logTail := 1 } 0 s.me.id) := by
  dsimp only
  and_intros <;> first | decide +kernel | (unfold QueueSound; decide +kernel) | (unfold State.Canonical; decide +kernel) | (unfold ReplayDue; decide +kernel)

/-- A watch of the count cell by slot 5, and the state with a slot that waits for it. -/
def watch5 : Watch := ⟨cell 1#2, 3#64, 0#10, 0#10, 5#8, 1#7⟩

/-- Slot 5 waits for the cell of another core; the watches of core 0. -/
def waiting5 (h : Word) (l : List Watch) : State :=
  let s := homed [] 0 false [] false
  { s with me := { s.me with slots := s.me.slots ++ [{ slotAt 5#8 .waiting with waitFor := .token, handle := h, phase := 3#64 }], watches := l } }

theorem witness_watches_and_wakes :
    (let s := waiting5 (cell 1#2) []
     s.condition 1#7 (cell 1#2) 3#64 = false ∧ watch5 ∉ (s.coreAt 0#10).watches ∧ (s.coreAt 0#10).watches.length < 64 ∧ watch5.dev = s.devNo ∧
      16 ≤ (hIndex (cell 1#2)).toNat ∧ (hIndex (cell 1#2)).toNat < 4096 ∧ Healthy s ∧ CacheSound s) ∧
    (withCell 1#2 0x300000003#64 0#64 (addrs 4#8)).condition 1#7 (cell 1#2) 3#64 = true ∧
    watch5 ∈ ((waiting5 (cell 1#2) [watch5]).coreAt 0#10).watches ∧
    64 ≤ ((waiting5 (cell 1#2) (List.replicate 64 { watch5 with slot := 6#8 })).coreAt 0#10).watches.length ∧
    watch5 ∉ List.replicate 64 { watch5 with slot := 6#8 } ∧
    (let h := mkHandle 0#10 1#10 1#2 1#26 256#16
     let s := waiting5 h []
     (s.coreAt 0#10).slots.map (fun u => (u.num, u.state == .waiting && u.waitFor == .token && u.handle == h && u.phase == 3#64 && !u.woken)) =
       [(4#8, false), (5#8, true)] ∧
      s.sees (s.coreAt 0#10) h = false ∧ hDev h = s.devNo ∧ hCore h ≠ s.me.id) := by
  unfold Healthy QueueSound CacheSound State.Canonical; decide +kernel

/-- A mailbox of crew 1 with one buffer posted, open with every core through window 5; indexes that the endpoint caches. -/
def ingress (cached : List (BitVec 12)) : State :=
  { mailer 3#2 0x0101000100000000#64 [] [0x1002#64] with windows := [window5 0x1000#64 .opened], endpoint := cached }

/-- A request of crew 1 of device 1 through window 5. -/
def asked1 (kind : RemoteKind) (addr : Word) : RemoteReq := ⟨kind, 1#7, 1#10, addr, 8#9, 5#64, 0#64, adding addr, 0x77#2048⟩

theorem witness_MailboxesAndTheIngressAnswer :
    (let s := ingress []
     let c := s.cellOf 0#10 256#16
     Healthy s ∧ CacheSound s ∧ s.tokenWindow (hCore (cell 3#2)) 1#7 1#10 = some (window5 0x1000#64 .opened) ∧
      s.stale 1#7 (cell 3#2) = false ∧ c.posted ≠ 0#16 ∧ s.physRead (slotAddr 0#10 c c.tail.toNat) 8 = 0x1002 ∧ 16 ≤ (hIndex (cell 3#2)).toNat ∧
      s.stale 0#7 (cell 3#2) = false ∧ c.notify = false ∧ resourceByte (slotAddr 0#10 c 0 + 8) = none ∧ cellAddr 0#10 256#16 + 16 ≤ slotAddr 0#10 c 0 + 8 ∧
      s.stale 0#7 (cell 1#2) = true ∧ s.sectorsHeld = [] ∧ s.tokenWindow (hCore (cell 3#2)) 2#7 1#10 = none) ∧
    (mailer 3#2 0x0101000000000000#64 [] []).windows = [] ∧ (addrs 4#8).portsDown = [] := by
  unfold Healthy QueueSound CacheSound State.Canonical; decide +kernel

theorem witness_ingress :
    (let s := { ingress [5#12] with mem := tables 1 0x1C0D7#64 }
     let p : Word := 0x140000000008#64
     ptrWindow p ∈ s.endpoint ∧ ptrWindow p ∉ (ingress []).endpoint ∧ s.admitted (·.r) p 8 1#7 1#10 = some (window5 0x1000#64 .opened) ∧
      s.admitted (·.w) p 8 1#7 1#10 = some (window5 0x1000#64 .opened) ∧ s.admitted (·.a) p 8 1#7 1#10 = some (window5 0x1000#64 .opened) ∧
      s.admitted (·.r) p 8 2#7 1#10 = none ∧ pageOf (s.endpointLoad (window5 0x1000#64 .opened) p 8).2 = some 0#64 ∧
      (pageOf (s.endpointStore (window5 0x1000#64 .opened) p 8 0x77).2).isSome = true ∧
      pageOf (s.endpointAtomic (window5 0x1000#64 .opened) p 0#4 5#64 0#64).2 = some 0#64 ∧ Healthy s ∧ CacheSound s) ∧
    (asked1 .store 0#64).op.code ≠ 6#8 ∧ (window5 0x1000#64 .closing).completion = 0#64 := by
  unfold Healthy QueueSound CacheSound State.Canonical; decide +kernel

/-- Crew 1's agent on core 0, with page tables whose entry for page 7 is `leaf`. -/
def walked (leaf : Word) : State := { addrs 4#8 with mem := tables 7 leaf }

theorem witness_page_walks :
    (let s := walked 0x1C0D7#64
     s.swaps = [] ∧ canonical 0x7123#64 = true ∧ bits s.who.space 63 60 = 0xA ∧ s.tlbFind s.who true 0x7123#64 = none ∧
      s.walk (dieOf s.me.id) s.who.space (0x7123 % 2 ^ 57) [4, 3, 2, 1, 0] (bits s.who.space 43 0) = .leaf 0x4038 0x1C0D7#64 0 ∧ (0x1C0D7#64).getLsbD 1 = true ∧
      (0x1C0D7#64).getLsbD 2 = true ∧ (0x1C0D7#64).getLsbD 4 = true ∧ (0x1C0D7#64).getLsbD 60 = false ∧ s.regionOk s.who 0x70123 = true ∧ Healthy s ∧
      s.Canonical) ∧
    (walked 0#64).walk 0#2 (walked 0#64).who.space (0x8123 % 2 ^ 57) [4, 3, 2, 1, 0] 0 = .absent 0 true ∧
    (walked 0x21C0D7#64).walk 0#2 (walked 0#64).who.space (0x7123 % 2 ^ 57) [4, 3, 2, 1, 0] 0 = .leaf 0x4038 0x21C0D7#64 0 ∧
    (walked 0x2#64).walk 0#2 (walked 0#64).who.space (0x7123 % 2 ^ 57) [4, 3, 2, 1, 0] 0 = .absent 0 false ∧
    (walked 0x5#64).walk 0#2 (walked 0#64).who.space (0x7123 % 2 ^ 57) [4, 3, 2, 1, 0] 0 = .malformed ∧
    (walked 0x100000000001C0D7#64).walk 0#2 (walked 0#64).who.space (0x7123 % 2 ^ 57) [4, 3, 2, 1, 0] 0 = .leaf 0x4038 0x100000000001C0D7#64 0 ∧
    (0x100000000001C0D7#64).getLsbD 60 = true ∧ (walked 0#64).ats = [] ∧ (walked 0#64).me.walks = [] := by
  unfold Healthy QueueSound State.Canonical; decide +kernel

/-- A page fault of crew 1 that awaits its page's response, by a future. -/
def fault1 : FaultEntry := ⟨0#2, 0x101#16, 7, 4096, cell 2#2, false, 0x7123#64, false, some 0#4, 4#18, some 0#64, false⟩

/-- A state with that fault; crew 1's arena 0 names a mailbox, whose buffer stands at 0x1000. -/
def faulting : State :=
  { withCell 3#2 0x0101000100000000#64 0#64 { addrs 4#8 with mem := cellsOf 0x20018 [cell 3#2] ++ cellsOf 0x10000010000 [0x1002#64] } with
    faults := [fault1] }

theorem witness_answers :
    (let s := { withCell 2#2 0#64 0#64 (addrs 4#8) with faults := [fault1], atsOut := [(0x101#16, 7)] }
     fault1 ∈ s.faults ∧ fault1.signalled = false ∧ fault1.key = (0x7123#64).toNat / fault1.size ∧ s.faults.Nodup ∧ CacheSound s ∧
      16 ≤ (hIndex fault1.token).toNat ∧ s.stale 0#7 fault1.token = false ∧ hKind fault1.token = 2#2 ∧
      (s.cellOf 0#10 256#16).phase.getLsbD 0 = false ∧ (0x101#16, (0x7123#64).toNat / 4096) ∈ s.atsOut ∧ (0x101#16, 8) ∉ s.atsOut) ∧
    (addrs 4#8).faults = [] := by
  unfold CacheSound State.Canonical; decide +kernel

theorem witness_arena_records :
    (let s := faulting
     let r := s.reserve 1#7 (cell 3#2) 64
     s.faults.find? (fun f => f.die == 0#2 && f.key == 7 && !f.sent) = some fault1 ∧ s.crews.find? (fun q => spaceAsid q.space = 0x101#16) = some crew1 ∧
      (s.arenaDws crew1 0).getD 3 0#64 = cell 3#2 ∧ hDev (cell 3#2) = s.devNo ∧ hKind (cell 3#2) = 3#2 ∧ 256 ≤ (hIndex (cell 3#2)).toNat ∧
      s.heldByReplay 1#7 (cell 3#2) = false ∧ r.2 = .ok 0 0x1000#64 ∧
      (r.1.bufferDws ⟨crew1.space, true, 1#7, 0#10⟩ 0x1000#64 fault1.recordDws).isSome = true ∧ Healthy s ∧ s.Canonical) := by
  unfold Healthy QueueSound State.Canonical; decide +kernel

/-- A page of HBM and one of host memory that change places, and a state in which they do, with page entries that name them. -/
def pair1 (bitmap : BitVec 256) : SwapPair := ⟨0x100000, 0x80000000010000, 0x4000, 0x5000, 0#64, 0x101#16, bitmap⟩

/-- A 64 KiB leaf entry for a physical page. -/
def wide (page : Nat) : Word := BitVec.ofNat 64 (2 ^ 63 + (page / 65536 * 16 + 8) * 2 ^ 10 + 0xD7)

/-- The device while a pair's lines are exchanged. -/
def swapping (bitmap : BitVec 256) : State :=
  { addrs 4#8 with
    swaps := [pair1 bitmap], swapRung := 1
    mem := cellsOf 0x4000 (List.replicate 16 (wide 0x100000)) ++ cellsOf 0x5000 (List.replicate 16 (wide 0x80000000010000)) }

theorem witness_swap_pairs :
    (let s := swapping 1#256
     s.swaps = [pair1 1#256] ∧ (pair1 1#256).near ≠ (pair1 1#256).far ∧ (pair1 1#256).bitmap.getLsbD 0 = true ∧ (pair1 1#256).bitmap.getLsbD 1 = false ∧
      Healthy s ∧ s.Canonical) ∧
    (let p := pair1 (BitVec.allOnes 256)
     let s := swapping (BitVec.allOnes 256)
     (∀ i, i < 256 → p.bitmap.getLsbD i = true) ∧ p.future = 0#64 ∧ s.me.l1 = [] ∧ s.others = [] ∧ p.far < 2 ^ 56 ∧ p.near < hbmSize ∧
      p.nearEntry + 128 ≤ hbmSize ∧ Apart p.nearEntry 128 p.farEntry 128 ∧ Apart p.nearEntry 128 p.near 65536 ∧ Apart p.farEntry 128 p.near 65536 ∧
      hostBase ≤ p.far) := by
  unfold Apart Healthy QueueSound State.Canonical; decide +kernel

theorem witness_swap_entries :
    (let s := swapping (BitVec.allOnes 256)
     s.asidHost 0x101#16 = false ∧ (∀ k ∈ s.cores, k.l1 = [] ∧ k.wq = []) ∧ isResource 0#64 = true ∧
      ∀ i, i < 16 → s.namesPage false (BitVec.ofNat 64 (s.physRead (0x4000 + 8 * i) 8)) 0x100000 = true ∧
        s.namesPage false (BitVec.ofNat 64 (s.physRead (0x5000 + 8 * i) 8)) 0x80000000010000 = true) ∧
    (swapping 0#256).swapOk [0x100000#64, 0x80000000010000#64, 0x4000#64, 0x5000#64, 0#64, 0#64, 0#64, 0#64] = true ∧
    (swapping 0#256).swapOk [] = false ∧ (swapping 0#256).swapRung ≠ 0 ∧ (swapping 0#256).swaps.length < 16 := by
  decide +kernel

theorem witness_MemoryLinksAndPowerStep :
    (let s := { addrs 4#8 with lanerepair := [], sparesUsed := [(3, 2#64), (4, 2#64), (5, 2#64)] }
     countAt s.sparesUsed 0 < 2#64 ∧ ¬countAt s.sparesUsed 3 < 2#64 ∧ countAt s.sparesUsed (3 ^^^ 1) < 2#64 ∧ ¬countAt s.sparesUsed (4 ^^^ 1) < 2#64 ∧
      s.kerlo.ready = true ∧ State.reset.kerlo.ready = false ∧ 0x1000 + 8 ≤ s.romBase ∧ ¬0xBFFFFFFFFD + 8 ≤ s.romBase ∧ Healthy State.reset ∧
      State.reset.Canonical) ∧
    (let s := { sharing 0#64 0#64 [slotAt 5#8 .ready] with movements := [{ Movement.reset 0#8 with power := .m1 }] }
     ((s.coreAt 0#10).slots.any fun u => u.state == .ready) = true ∧ (s.movAt 0#8).power = .m1) ∧
    (let s := { dev 4#8 Ctx.reset with me := { (dev 4#8 Ctx.reset).me with run := none, slots := [] } }
     let g := { s with kerlo := { s.kerlo with gating := 1#1 } }
     g.kerlo.gating = 1#1 ∧ (g.movAt 0#8).power = .m0 ∧ ∀ c ∈ [0#10, 1#10, 2#10, 3#10], (g.coreAt c).run = none ∧ (g.coreAt c).slots.length = 0 ∧
      (g.coreAt c).ctx.mq.length = 0 ∧ (g.coreAt c).copies.length = 0) := by
  unfold Healthy QueueSound State.Canonical; decide +kernel

/-! ### Kerlo commands -/

/-- A command in slot 5 from its doublewords. -/
def command (dw : List Word) : KerloCmd := ⟨5#6, dw⟩

/-- A state with one command queued. -/
def commandedBy (s : State) (dw : List Word) : State := { s with kerlo := { s.kerlo with queue := [command dw] } }

/-- What `Queued` asks of a command's doublewords. -/
def queuedAs (dw : List Word) (op : Nat) (sub : Option Nat) (n : Nat) : Bool :=
  decide (bits (dw.getD 0 0#64) 7 0 = op) && sub.all (fun k => decide ((dw.getD 1 0#64).toNat = k)) && decide (bits (dw.getD 0 0#64) 63 15 = 0) &&
    (List.range 32).all fun i => decide (i ≤ n) || decide (dw.getD i 0#64 = 0#64)

theorem queued_of (s : State) {dw : List Word} {op n : Nat} {sub : Option Nat} (h : queuedAs dw op sub n = true) :
    Queued (commandedBy s dw) (command dw) op sub n := by
  simp only [queuedAs, Bool.and_eq_true, decide_eq_true_eq, List.all_eq_true, List.mem_range, Bool.or_eq_true] at h
  obtain ⟨⟨⟨h1, h2⟩, h3⟩, h4⟩ := h
  exact ⟨rfl, h1, fun k hk => by simp only [hk, Option.all_some, decide_eq_true_eq] at h2; exact h2, h3, fun i hi hj => (h4 i hj).resolve_left (by omega)⟩

theorem witness_commands : ∀ q ∈ ([([0x01#64], 1, none, 0), ([0x02#64, 0#64, 7#64], 2, some 0, 7), ([0x102#64, 1#64, 7#64], 2, some 1, 13),
      ([0x02#64, 2#64], 2, some 2, 19), ([0x03#64, 2#64, 0x801#64], 3, none, 7), ([0x04#64, 1#64], 4, none, 1),
      ([0x05#64, 0x70000#64, 64#64, 0#64, 1#64, 0#64, 0#64, 0#64, 1#64], 5, none, 8), ([0x06#64, 1#64, 1#64, 1#64, 0#64], 6, none, 4),
      ([0x07#64, 1#64, 0x1000#64, cell 1#2], 7, none, 3), ([0x08#64, cell 1#2, 3#64, 1#64, 1#64], 8, none, 4), ([0x09#64, 4#64, 0#64], 9, none, 2),
      ([0x0A#64, 1#64, 0x70000#64], 10, none, 2), ([0x0B#64, 0#64, 1000#64], 11, some 0, 6), ([0x0B#64, 1#64, 1#64, 1#64], 11, some 1, 6),
      ([0x0B#64, 2#64, 1#64], 11, some 2, 6), ([0x0C#64, 0#64, 1#64], 12, some 0, 14), ([0x0C#64, 1#64, 1#64, 3#64, 0#64, 64#64, 3#64], 12, some 1, 6),
      ([0x0C#64, 2#64, 4#64, 0x70000#64], 12, some 2, 3), ([0x0D#64], 13, none, 0), ([0x0E#64, 12#64], 14, none, 1),
      ([0x0F#64, 0x70000#64, 64#64], 15, none, 2)] : List (List Word × Nat × Option Nat × Nat)), queuedAs q.1 q.2.1 q.2.2.1 q.2.2.2 = true := by
  decide +kernel

/-- Crew 1 as made, and a state in which the life cycle, the debug level and slot 9 are as given. -/
def served (life dbg : BitVec 8) (consent : Bool) (more : List Slot) : State :=
  let s := addrs 4#8
  { s with
    me := { s.me with slots := s.me.slots ++ more }, crews := [{ crew1 with consent := consent }]
    kerlo := { s.kerlo with life := life, dbg := dbg } }

theorem witness_KerloCommandsAnswer :
    (∃ r ∈ kerloRows, r.2 = (0x0C, some 2)) ∧ (served 1#8 0#8 false []).kerlo.queue = [] ∧ bits 0x8001#64 63 15 ≠ 0 ∧
    (served 1#8 0#8 false []).kerlo.life ≠ 2#8 ∧ (served 2#8 0#8 false []).kerlo.life = 2#8 ∧ State.reset.crews = [] ∧
    (∀ w ∈ [1000, 4400], 1000 ≤ w ∧ w ≤ 4400) ∧ 4 ≤ (4#64 : Word).toNat ∧
    (let s := { served 1#8 0#8 false [] with movements := [{ Movement.reset 1#8 with power := .m3 }] }
     (s.movAt 0#8).power ≠ .m3 ∧ (s.movAt 1#8).power = .m3 ∧ (s.coreAt 0#10).bound ≠ 0#7 ∧
      ∀ k ∈ [8#10, 9#10, 10#10, 11#10], (s.coreAt k).run = none ∧ (s.coreAt k).bound = 0#7 ∧ (s.coreAt k).grant.length = 0 ∧
        (s.coreAt k).ctx.mq.length = 0 ∧ (s.coreAt k).copies.length = 0) ∧
    (let s := served 1#8 2#8 false [slotAt 9#8 .held]
     2 ≤ s.kerlo.dbg.toNat ∧ s.debugReaches ((s.coreAt 0#10).crewOf 9#8) = true ∧ (s.coreAt 0#10).slot? 9#8 = some (slotAt 9#8 .held) ∧
      (slotAt 9#8 .held).deferred = none ∧ 0x70000 + 0x12000 ≤ hbmSize ∧ ({ slotAt 9#8 .held with saved := 0#64 } : Slot).ctx.hasFrame = false ∧
      s.poweredOff 0#10 = false ∧ s.swaps = [] ∧ (0x70000#64).toNat % 4096 = 0) ∧
    (served 1#8 1#8 true []).kerlo.dbg = 1#8 ∧ ((served 1#8 1#8 true []).crew? 1#7).map (·.consent) = some true ∧
    ((served 1#8 0#8 false []).crew? 2#7) = none ∧ (served 1#8 0#8 false []).debugReaches 1#7 = false ∧
    (served 1#8 0#8 false []).readable 0x70000 64 = true ∧ (served 1#8 0#8 false []).kerlo.patch = 0#16 := by
  decide +kernel

theorem witness_movement_alone (k : BitVec 8) : ([1#64, 0#64, 0#64, 0#64].getD (k.toNat / 64) 0#64).getLsbD (k.toNat % 64) = true ↔ k = 0#8 := by
  revert k; decide +kernel

theorem witness_KerloCommandsActForCrews :
    (let s := served 1#8 0#8 false []
     Healthy s ∧ s.swaps = [] ∧ s.Canonical ∧ s.crew? 2#7 = none ∧ (s.crew? 1#7).isSome = true ∧ s.frames.length ≤ s.romBase / 65536 ∧
      0x50000 + 512 ≤ hbmSize ∧ regionOf 0x40000 ≠ .reserved ∧ regionOf 0x50000 ≠ .reserved ∧ s.windows = [] ∧ 0x801#64 &&& ~~~0x11F1F#64 = 0#64 ∧
      bits 0x801#64 4 0 = 1 ∧ bits 0x801#64 12 8 = 8 ∧ (s.movAt 0#8).power ≠ .m3 ∧ 0x70000 + 64 ≤ hbmSize ∧ 0x80000 < 0x7FFFE + 4) ∧
    (let s := served 1#8 0#8 false []
     (s.coreAt 1#10).slots = [] ∧ (s.coreAt 1#10).copies = [] ∧ (s.coreAt 0#10).bound = 1#7 ∧ (∃ u ∈ (s.coreAt 0#10).slots, supSlot u.num = false) ∧
      s.kerlo.life ≠ 2#8 ∧ (s.coreAt 0#10).run = some 4#8 ∧ ((s.coreAt 0#10).slot? 4#8).map (·.state) = some .running ∧
      (s.coreAt 0#10).slot? 9#8 = none) := by
  unfold Healthy QueueSound State.Canonical; decide +kernel

theorem witness_signal_and_launch :
    (let s := withCell 1#2 0x300000002#64 0#64 (served 1#8 0#8 false [])
     TakenAtOnce s { adding (cell 1#2) with scope := 5#3 } ∧ CacheSound s ∧ kindFits 3#8 (cell 1#2) = true ∧ kindFits 5#8 (cell 1#2) = false) ∧
    (let s := withCell 1#2 0x300000002#64 0#64 { served 1#8 0#8 false [] with mem := tables 1 0x1C0D7#64 ++ cellsOf 0x70028 [4#64] }
     let r := s.crewDws ⟨crew1.space, true, 1#7, 0#10⟩ 0x1000#64 8
     pageOf r.2 = some [0#64, 0#64, 0#64, 0#64, 0#64, 4#64, 0#64, 0#64] ∧ hDev (cell 1#2) = r.1.devNo ∧ r.1.heldByReplay 1#7 (cell 1#2) = false ∧
      r.1.stale 1#7 (cell 1#2) = false ∧ hKind (cell 1#2) = 1#2 ∧ Healthy r.1 ∧ CacheSound r.1) ∧
    ({ served 1#8 0#8 false [] with mem := cellsOf 0x70000 windowWords } : State).physReadDws 0x70000 8 = windowWords := by
  unfold TakenAtOnce Healthy QueueSound CacheSound State.Canonical; decide +kernel

/-- Every core is unbound or bound to crew 1. -/
theorem witness_code_load (k : BitVec 10) : ((served 1#8 0#8 false []).coreAt k).bound = 0#7 ∨ ((served 1#8 0#8 false []).coreAt k).bound = 1#7 := by
  unfold State.coreAt
  split
  · exact .inr (by decide +kernel)
  · exact .inl rfl

/-! ### Further clauses -/

theorem witness_upsets_and_links :
    ({ ints with upsets := [.l2 7 3#5 true] } : State).upsets = .l2 7 3#5 true :: [] ∧
    (State.reset.upsets = [] ∧ ∀ v < 64, State.reset.kerlo.pba.getLsbD v = true → State.reset.kerlo.masked v = true) ∧
    ((crown (.placeBar 0x123456789 2#4) []).kerlo.access = .placeBar 0x123456789 2#4 :: [] ∧ (2#4 : BitVec 4).toNat ≤ 10 ∧
      ¬(11#4 : BitVec 4).toNat ≤ 10) ∧
    ((crown .packageReset []).inbox = [] ∧ (crown .packageReset []).kerlo.access = .packageReset :: []) ∧
    ((crown (.write 0x1000C 0#64) []).kerlo.access = .write 0x1000C 0#64 :: [] ∧ 0x10008 < 0x10400 ∧ 0x10008 % 8 = 0) := by decide +kernel

theorem witness_pages_wait :
    (let s := { paged 4#8 pool1 0#64 5#64 with swaps := [⟨0x100000, 0x80000000010000, 0x4000, 0x5000, 0#64, 0x101#16, 0#256⟩] }
     (s.arenaPage 0x40000000).isSome = true ∧ ∃ p ∈ s.swaps, p.nearEntry = 0x4000 ∨ p.farEntry = 0x4000) ∧
    (let s := paged 4#8 pool1 0#64 5#64
     let far := { crew1 with space := 0xB010100000000000#64 }
     s.tablePage crew1 5 = some 5 ∧ s.tablePage far 5 = none ∧ s.romBase ≠ 0 ∧
      ({ s with barBase := 0x40000000, barSize := 0x40000000 } : State).tablePage far 5 = some 0x4005 ∧ CoresSound s ∧ OthersQuiet s) := by
  unfold CoresSound OthersQuiet; decide +kernel

theorem witness_logged_sends :
    (let h := mkHandle 0#10 1#10 3#2 1#26 256#16
     let s := { mailer 3#2 0x0101000100000000#64 [0x1000#64, 100#64, 7#64, 0#64] [] with me :=
       { (mailer 3#2 0x0101000100000000#64 [0x1000#64, 100#64, 7#64, 0#64] []).me with ctx := regs [(1, h), (2, 0x2000#64)] } }
     let s2 := (loaded s 0x2000#64 4).release 3#3
     hDev h = s.devNo ∧ hKind h = 3#2 ∧ s2.behindPosted h = false ∧ s.crew = 1#7 ∧ s2.crew? 1#7 = some crew1 ∧ s2.boundTo (hCore h) 1#7 = false ∧
      crew1.logTail - crew1.logHead < 2 ^ crew1.logSize.toNat ∧ s.x 1#5 = h) ∧
    ((behind (mailer 3#2 0x0101000100000000#64 [0x1000#64, 100#64, 7#64, 0#64] [])).behindPosted (cell 3#2) = true) ∧
    (stuffed (mailer 1#2 0x300000002#64 [] [])).Keeps := by
  unfold State.Keeps; decide +kernel

/-- A leaf entry for a page of host memory. -/
def hostLeaf : Word := 0x100000000001C0D7#64

/-- What an answer faults with, if it does. -/
def faultOf {α : Type} : Except MemFault α → Option MemFault
  | .ok _ => none
  | .error f => some f

theorem witness_host_windows :
    (let s := { windowed 0x1000#64 .opened [] with mem := tables 1 hostLeaf }
     faultOf (s.endpointPage (window5 0x1000#64 .opened) false 0x1008#64).2 = some .wait ∧
      faultOf (s.endpointPage (window5 0x1000#64 .opened) true 0x1008#64).2 = some .wait) ∧
    (let s := windowed 0x7000#64 .opened []
     faultOf (s.endpointPage (window5 0x7000#64 .opened) false 0x7008#64).2 = some (.absent none)) ∧
    (let s := { behind (windowed 0x1000#64 .opened []) with routes := [1] }
     ¬NothingBefore s 4#8 0#10 false ∧ ¬NothingBefore s 4#8 0#10 true ∧ s.hasRoute 1#10 = true) := by
  dsimp only
  and_intros <;> first | decide +kernel | (unfold NothingBefore; decide +kernel)

theorem witness_groups :
    (∀ e ∈ (queued (.int .add) false).me.ctx.vq, e.idle = false ∧ e.next = 3 ∧
      ((queued (.int .add) false).vPerform { e.masked (queued (.int .add) false).me.ctx with lim := e.next }).2 = none) ∧
    (∀ e ∈ (queued (.int .add) false).me.ctx.vq, ({ e with pos := 3 } : VEntry).idle = true) ∧
    (∀ e ∈ (queued (.store .unit 0x3000#64 false) false).me.ctx.vq,
      (((queued (.store .unit 0x3000#64 false) false).vPerform
        { e.masked (queued (.store .unit 0x3000#64 false) false).me.ctx with lim := e.next }).2).map (fun r => (r.1, r.2.1)) =
          some (.protect, 0x3000#64)) ∧
    (∀ e ∈ (queued (.int .add) false).me.ctx.vq,
      ({ (entered (.fill false)).me.ctx with vq := [e] } : Ctx).behindMatrix { e with dirty := vBits 3#5 1 } = true) ∧
    (entered .zero).me.ctx.matrixStarts = true ∧ (entered (.drain false)).me.ctx.matrixStarts = true ∧ lanes.me.ctx.matrixStarts = false := by
  decide +kernel

/-- A running copy from a memory address to the scratchpad, in entry 2 of a state. -/
def fetching (s : State) (src : Word) : State :=
  { s with me := { s.me with copies := [{ s.newCopy .tile 0x10000000#64 ((tileWords 0#64 0#64).set 2 src) with entry := 2#3, state := .running }] } }

theorem witness_copies_wait :
    (let s := fetching { copier [] [] with mem := tables 7 hostLeaf } 0x7000#64
     ∀ c ∈ s.me.copies, c.workable = true ∧ (s.copyAttempt c).2.2 = some .wait) ∧
    (let s := fetching (paged 4#8 Ctx.reset 0#64 5#64) 0x40000000#64
     ∀ c ∈ s.me.copies, c.workable = true ∧ (s.copyAttempt c).2.2 = some (.fault 0x05#8 (some 0#4) 0x40000000#64 false) ∧
      (s.copyAttempt c).2.1.entry = 2#3 ∧ ((s.copyAttempt c).1.me.copy? 2#3).isSome = true ∧
      (let s1 := (s.copyAttempt c).1
       let r := s1.claimFault (s1.faultWho s.me.id (s.copyAttempt c).2.1 false) (some 0#4) 0x40000000#64 false (coidOf s.me.id c.slot)
         (some ((s.copyAttempt c).2.1.id s.me.id))
       s1.me.id = s.me.id ∧ r.1.me = s1.me ∧ r.2 = .claimed 0x80000010000#64)) ∧
    (let s := withCell 2#2 1#64 0x100000000#64
       (moving 0x20000#64 fun c => { c with kind := .remote, state := .waiting, token := cell 2#2, slot := 9#8, partIn := 1 })
     ∀ c ∈ s.me.copies, c.kind = .remote ∧ (s.cellOf (hCore c.token) (hIndex c.token)).lower ≠ 0#64 ∧ c.issuer = .present ∧
       s.me.run ≠ some c.slot) := by
  decide +kernel

theorem witness_watches_of_devices :
    ({ watch5 with dev := 1#10 } : Watch).dev ≠ (waiting5 (cell 1#2) []).devNo ∧
    (let h := mkHandle 0#10 1#10 1#2 1#26 256#16
     let s := waiting5 h []
     ∃ u ∈ s.me.slots, u.state ≠ .running ∧ u.waitFor = .token ∧ u.woken = false ∧ hDev u.handle = s.devNo ∧ hCore u.handle ≠ s.me.id) ∧
    (let h := mkHandle 1#10 1#10 1#2 1#26 256#16
     ∃ u ∈ (waiting5 h []).me.slots, u.state ≠ .running ∧ u.waitFor = .token ∧ u.woken = false ∧ hDev u.handle = 1#10) := by
  decide +kernel

/-- The ingress of a crew that has faulted, or whose mailbox's core another crew holds. -/
def ingressOf (faulted : Bool) (bound : BitVec 7) : State :=
  let s := ingress [5#12]
  { s with crews := [{ crew1 with faulted := faulted }], me := { s.me with bound := bound } }

theorem witness_reservations :
    (ingressOf true 1#7).crewFaulted 1#7 = true ∧ (ingressOf true 1#7).tokenWindow 0#10 1#7 1#10 = some (window5 0x1000#64 .opened) ∧
    (let s := ingressOf false 2#7
     s.crew? 1#7 = some crew1 ∧ LogSound crew1 ∧ s.boundTo (hCore (cell 3#2)) 1#7 = false ∧ s.heldReqs = [] ∧
      s.tokenWindow (hCore (cell 3#2)) 1#7 1#10 = some (window5 0x1000#64 .opened)) ∧
    (let s := (withCell 3#2 0x0101000100000000#64 1#64 (mailer 3#2 0x0101000100000000#64 [] [0x1002#64])).putCell 0#10 257#16 ⟨0x300000002#64, 0x5000000000#64⟩
     (s.cellOf 0#10 256#16).notify = true ∧ (s.cellOf 0#10 257#16).kind = 1#2 ∧ (hIndex (cell 3#2)).toNat < 4095 ∧ s.stale 0#7 (cell 3#2) = false ∧
      cellAddr 0#10 256#16 + 32 ≤ slotAddr 0#10 (s.cellOf 0#10 256#16) 0 + 8 ∧ Healthy s ∧ CacheSound s) := by
  unfold LogSound Healthy QueueSound CacheSound State.Canonical; decide +kernel

theorem witness_requests_wait :
    (let s := { ingress [5#12] with mem := tables 1 hostLeaf }
     faultOf (s.endpointLoad (window5 0x1000#64 .opened) 0x140000000008#64 8).2 = some .wait) ∧
    (let s := ingress [5#12]
     s.stale 1#7 (cell 3#2) = false ∧ s.heldByReplay 1#7 (cell 3#2) = false ∧ s.stale 1#7 (cell 1#2) = true ∧ hDev (cell 3#2) = s.devNo ∧
      faultOf (s.endpointLoad (window5 0x1000#64 .opened) 0x140000000008#64 8).2 = some (.absent none)) := by
  decide +kernel

theorem witness_ports : ∃ port : BitVec 5, port.toNat < 24 ∧ ({ addrs 4#8 with routes := [1] } : State).portFor 1#10 0#8 = some port.toNat ∧
    port.toNat ∉ (addrs 4#8).portsDown := by
  have h : (Config.routePort 1#10 0#8).toNat % 24 < 24 := Nat.mod_lt _ (by decide)
  refine ⟨BitVec.ofNat 5 ((Config.routePort 1#10 0#8).toNat % 24), ?_, ?_, by decide +kernel⟩
  · rw [BitVec.toNat_ofNat, Nat.mod_eq_of_lt (by omega)]; exact h
  · rw [BitVec.toNat_ofNat, Nat.mod_eq_of_lt (by omega)]
    rfl

theorem witness_lanes_and_lines :
    (let s := { addrs 4#8 with laneErrors := [(75, 7#64), (3, 9#64)] }
     s.laneErrors.find? (fun e => e.1 / 72 == 0 && decide (8 ≤ e.2.toNat)) = some (3, 9#64) ∧ (∀ e ∈ s.laneErrors, e.1 / 72 = 1 → e.2.toNat < 8)) ∧
    (let s := walked 0x1C0D7#64
     CacheSound s ∧ OthersQuiet s ∧ CoresSound s ∧ (∀ k ∈ s.cores, k.l1 = [] ∧ k.wq = [])) ∧
    (faulting.recordDue fault1 = true) := by
  unfold CacheSound OthersQuiet CoresSound State.Canonical; decide +kernel

theorem witness_system_frames : ∃ f, (served 1#8 0#8 false []).systemFrames ((served 1#8 0#8 false []).romBase / 65536) 1 = some f := by
  rw [← Option.isSome_iff_exists]
  unfold State.systemFrames
  rw [List.find?_isSome]
  exact ⟨0, by simp, by decide +kernel⟩

theorem witness_crew_frames : (let s := served 1#8 0#8 false []
    1 ≤ s.framesLeft (s.romBase / 65536) ∧ s.framesLeft (s.romBase / 65536) < 2 ^ 24 + 1 ∧ isResource (mkHandle 0#10 0#10 1#2 0#26 3#16) = true ∧
      hIndex (mkHandle 0#10 0#10 1#2 0#26 6#16) = 6#16 ∧ s.poweredOff 0#10 = false ∧ 7 ≤ (hIndex (mkHandle 0#10 0#10 1#2 0#26 9#16)).toNat ∧
      s.readable 0x70000 64 = true ∧ s.readable hbmSize 64 = false ∧
      faultOf (({ s with mem := tables 1 hostLeaf } : State).crewDws ⟨crew1.space, true, 1#7, 0#10⟩ 0x1000#64 8).2 = some .wait) := by
  decide +kernel

/-- A supervisor with core 0's hardware cell 3, which ends replay, in x1 and a free future in x3. -/
def ringing : State := withCell 2#2 0#64 0#64 (dev 0#8 (regs [(1, mkHandle 0#10 0#10 1#2 0#26 3#16), (3, cell 2#2)]))

theorem witness_resource_signals :
    ringing.me.run = some 0#8 ∧ ringing.sup = true ∧ (hIndex (ringing.x 1#5)).toNat < 16 ∧ ArrivesAtOnce ringing (ringing.x 1#5) ∧
    hKind (ringing.x 3#5) = 2#2 ∧ AppliesAtOnce ringing (ringing.x 3#5) ∧ hIndex (ringing.x 3#5) ≠ hIndex (ringing.x 1#5) ∧
    ringing.me.outq.length < 16 ∧ Healthy ringing ∧ CacheSound ringing := by
  and_intros <;> first | decide +kernel | (unfold QueueSound; decide +kernel) | (unfold State.Canonical; decide +kernel)

/-- Core 0 with `n` slots of crew 1 from 4 on, the first one running. -/
def crowded (n : Nat) : State :=
  let s := farmer 4 0#64
  { s with me := { s.me with rsv := 0#8, slots := (List.range n).map fun i => slotAt (BitVec.ofNat 8 (4 + i)) (if i = 0 then .running else .held) } }

theorem witness_full_cores :
    ((crowded 252).coreAt 0#10).emptySlots (crowded 252).sup = 0 ∧ ((crowded 252).coreAt 0#10).bound = (crowded 252).crew ∧
    (crowded 44).x 5#5 = 0#64 ∧ 0 < ((crowded 44).coreAt 0#10).emptySlots (crowded 44).sup ∧
    ((crowded 44).coreAt 0#10).lowestSlot (crowded 44).sup = some 48#8 ∧ ((crowded 44).coreAt 0#10).takeContext 48#8 = none := by decide +kernel

theorem witness_farm_sets :
    (∀ k, k ∈ [0#10] ↔ InSet 0#64 1#64 k) ∧
    answer (((farmer 4 0#64).physWrite 0x80018 8 1).loadDws 0x2000#64 6).2 = some [0#64, 0#64, 0#64, 1#64, 0#64, 4#64] ∧
    (farmer 4 0#64).workers 1#7 [0#10] = 1 := by
  refine ⟨fun k => ?_, by decide +kernel, by decide +kernel⟩
  simp only [InSet, List.mem_singleton, ← BitVec.toNat_inj]
  have h : bits 1#64 10 0 = 1 ∧ bits 0#64 9 0 = 0 ∧ (0#10).toNat = 0 := by decide
  rw [h.1, h.2.1, h.2.2]
  omega

theorem witness_exit_with_record :
    (let s := handling (record 0x06#8 false)
     s.me.run = some 0#8 ∧ (s.me.slot? 0#8).isSome = true ∧ s.x 1#5 = 0#64 ∧ s.me.ctx.record = some (record 0x06#8 false)) := by decide +kernel

theorem witness_deferred_parts :
    (let u := { slotAt 9#8 .held with deferred := some 7#32, ctx := { Ctx.reset with status := 0x100#64 } }
     let s := imaged 2#64 frame1 [u]
     let r := (s.loadBlock 0x2000#64 0 2).1
     let q := (r.readQueue 0x2000#64 (frameDw frame1 0)).1
     let v := q.loadVector 0x2000#64 (frameDw frame1 8) ((frameDw frame1 0).getLsbD 52) none { u.ctx with status := 0#64 }
     answer (r.readQueue 0x2000#64 (frameDw frame1 0)).2 = some (some none) ∧ (answer v.2).isSome = true ∧
      (v.1.me.reseat { u with deferred := none }).isSome = true ∧
      ({ v.1.me with rsv := 0#8, slots := u :: (List.range 44).map fun i => slotAt (BitVec.ofNat 8 (10 + i)) .held } : Core).reseat
        { u with deferred := none } = none) := by decide +kernel

theorem witness_numbers :
    (let r : Rounding := ⟨0, false, false, 0⟩
     r.rm < 6 ∧ r.draw < 2 ^ 24 ∧
     (let x := Size.quot 3 1 0
      x.vs (FloatFmt.f32.steps 0x40400000) FloatFmt.f32.unit = .eq ∧ x.vs (FloatFmt.f32.steps 0x40400001) FloatFmt.f32.unit = .lt ∧
       x.vs (FloatFmt.f32.steps (2 ^ 23)) FloatFmt.f32.unit ≠ .lt ∧ x.vs 3 0 ≠ .lt ∧ x.vs 4 0 = .lt ∧ x.vs 1 1 ≠ .lt ∧ x.vs 1 2 = .lt) ∧
     (Size.quot (3 ^ 8) 1 0).vs 1 (2 * 22 - 33) ≠ .lt ∧ (Size.quot (3 ^ 8) 1 0).vs 1 (2 * 22 - 31) = .lt ∧
     (Size.quot 1 1 (-149)).vs (FloatFmt.f32.steps (2 ^ 23)) FloatFmt.f32.unit = .lt) := by decide +kernel

theorem witness_passed_windows :
    (let s := windowed 0x1000#64 .opened []
     s.me.passed ≠ some (s.x 1#5) ∧ Admits s (window5 0x1000#64 .opened) (·.r) (s.x 1#5) 8) ∧
    (let s := windowed 0x1000#64 .opened []
     let u := { s with me := { s.me with passed := some (s.x 1#5) } }
     u.me.passed = some (u.x 1#5) ∧ hDev (u.x 1#5) = u.devNo ∧
      u.windows.find? (fun v => v.index = (u.x 1#5).extractLsb' 42 12) = some (window5 0x1000#64 .opened)) := by
  dsimp only
  and_intros <;> decide +kernel

theorem witness_paused_accesses :
    (let s := { queued (.load .unit 0x1000#64) false with pauses := [1] }
     ∀ e ∈ s.me.ctx.vq, e.op.isMemory = true ∧ e.finished = false ∧ s.vWaits e = false ∧ min e.next (e.pos + s.pauses.headD 0) = 1 ∧
       ({ s with pauses := s.pauses.drop 1 }.vPerform { e.masked s.me.ctx with lim := 1 }).2 = none) ∧
    (let s := queued (.int .add) true
     ∀ e ∈ s.me.ctx.vq, e.finished = true ∧ s.vWaits e = false ∧ vlLen e.vl ≤ e.lim ∧ e.op.isMemory = false ∧ e.pins = 0#64 ∧ e.statusPins = 0#64) ∧
    (∀ e ∈ (queued (.gatherMarker 2#3 5#29) true).me.ctx.vq, e.op = .gatherMarker 2#3 5#29 ∧ e.finished = true ∧
      (queued (.gatherMarker 2#3 5#29) true).vWaits e = false) := by decide +kernel

theorem witness_kv_decisions :
    (let s0 := { copier [] [] with mem := tables 7 hostLeaf ++ cellsOf 0x70000 [0x7000#64] }
     let s := { s0 with me := { s0.me with copies := [{ s0.newCopy .kvs 0x40000000#64 (kvWords 0#64 0#64) with entry := 2#3, state := .running }] } }
     ∀ c ∈ s.me.copies, c.workable = true ∧ (s.copyAttempt c).2.2 = some .wait ∧ (s.copyAttempt c).2.1.decided = c.decided ++ [(0, false)]) := by
  decide +kernel

theorem witness_overflowing_watches :
    (let h := mkHandle 0#10 0#10 1#2 0#26 2#16
     let l := List.replicate 64 { watch5 with slot := 6#8 }
     let s := waiting5 h l
     s.condition 0#7 h 0#64 = false ∧ { watch5 with handle := h, phase := 0#64, crew := 0#7 } ∉ (s.coreAt 0#10).watches ∧ (hIndex h).toNat < 16 ∧
      64 ≤ (s.coreAt 0#10).watches.length ∧ Healthy s ∧ CacheSound s) ∧
    (let h := mkHandle 1#10 1#10 1#2 1#26 256#16
     let s := waiting5 h []
     s.hasRoute 1#10 = false ∧ ({ s with routes := [1] } : State).hasRoute 1#10 = true ∧ (s.cores.map (·.id)).Nodup ∧ SlotsSound s.me) := by
  unfold SlotsSound Healthy QueueSound CacheSound State.Canonical; decide +kernel

theorem witness_draining_windows :
    (let s := windowed 0x1000#64 .closing []
     let w := window5 0x1000#64 .closing
     s.windows.find? (fun v => v.index = 5#12) = some w ∧ w.inflight = 0 ∧ w.completion = 0#64 ∧ (∀ k ∈ s.cores, k.passed = none) ∧
      ({ s.me with passed := some 0x140000000008#64 } : Core).passed.map ptrWindow = some w.index) ∧
    (ingressOf true 1#7).crewFaulted (window5 0x1000#64 .opened).owner = true := by decide +kernel

/-- Movement 0 in M3, with slot 9 of its core 0 kept. -/
def asleep : State :=
  { served 1#8 0#8 false [] with
    movements := [{ Movement.reset 0#8 with power := .m3, kept := [(0#10, [slotAt 9#8 .held])] }]
    me := { (served 1#8 0#8 false []).me with run := none, slots := [] } }

theorem witness_masks (m : BitVec 8) :
    ([3#64, 0#64, 0#64, 0#64].getD (m.toNat / 64) 0#64).getLsbD (m.toNat % 64) = true ↔ m = 0#8 ∨ m = 1#8 := by
  revert m; decide +kernel

theorem witness_power_states :
    queuedAs [0x0B#64, 1#64, 0#64, 1#64] 11 (some 1) 6 = true ∧ queuedAs [0x0B#64, 1#64, 3#64, 3#64] 11 (some 1) 6 = true ∧
    (asleep.movAt 0#8).power = .m3 ∧ ((asleep.movAt 0#8).kept.map fun e => e.1).Nodup ∧
    (∀ e ∈ (asleep.movAt 0#8).kept, e.1 ∈ [0#8 ++ 0#2, 0#8 ++ 1#2, 0#8 ++ 2#2, 0#8 ++ 3#2] ∧ (e.2.map (·.num)).Nodup ∧ (asleep.coreAt e.1).slots.length = 0) ∧
    (∀ m ∈ [1#8, 2#8], (asleep.movAt m).power ≠ .m3 ∧ ∀ k ∈ [m ++ 0#2, m ++ 1#2, m ++ 2#2, m ++ 3#2],
      (asleep.coreAt k).run = none ∧ (asleep.coreAt k).copies.length = 0 ∧ (asleep.coreAt k).bound = 0#7 ∧ (asleep.coreAt k).grant.length = 0) ∧
    asleep.faults.length = 0 ∧ asleep.swaps.length = 0 ∧ ∀ k ∈ asleep.cores, k.l1.length = 0 ∧ k.wq.length = 0 := by
  decide +kernel

theorem witness_bindings :
    (let s := served 1#8 0#8 false []
     let k := (s.emptyQueues 1#10).coreAt 1#10
     k.run = none ∧ (s.coreAt 1#10).slots.length = 0 ∧ (s.movAt (movOf 1#10)).power ≠ .m3) ∧
    (let s := { queued (.load .unit 0x7000#64) false with mem := tables 7 hostLeaf, me := { (queued (.load .unit 0x7000#64) false).me with run := some 0#8, slots := [slotAt 0#8 .running] } }
     ((s.emptyQueues 0#10).coreAt 0#10).run = some 0#8 ∧ ((s.emptyQueues 0#10).coreAt 0#10).ctx.vq.length = 1) := by decide +kernel

end Sys2Proof.Tests
end

section
/-!
PROOFS. The scalar integer instructions, branches and jumps of 04_scalar.md: first the value of each operation as a number (R108 to R112),
then the offsets that branches and jumps reach (R114, R115), then what the instructions leave.
-/

namespace Sys2Proof.Machine

/-! ## Sums, products and shifts as numbers (04_scalar.md R108, R111, R112) -/

theorem add_eq_ofNat (A B : Word) : A + B = BitVec.ofNat 64 (A.toNat + B.toNat) := by
  simp only [BitVec.ofNat_add, BitVec.ofNat_toNat, BitVec.setWidth_eq]

theorem mul_eq_ofNat (A B : Word) : A * B = BitVec.ofNat 64 (A.toNat * B.toNat) := by
  simp only [BitVec.ofNat_mul, BitVec.ofNat_toNat, BitVec.setWidth_eq]

/-- A difference of words is that of their signed values, modulo 2^64. -/
theorem sub_eq_ofInt (A B : Word) : A - B = BitVec.ofInt 64 (A.toInt - B.toInt) := by
  rw [Int.sub_eq_add_neg, BitVec.ofInt_add, BitVec.ofInt_neg, BitVec.ofInt_toInt, BitVec.ofInt_toInt, BitVec.sub_eq_add_neg]

/-- An immediate is added by its signed value: sign extension keeps it. -/
theorem add_signExtend_eq_ofInt {n : Nat} (A : Word) (i : BitVec n) : A + i.signExtend 64 = BitVec.ofInt 64 (A.toInt + i.toInt) := by
  rw [BitVec.ofInt_add, BitVec.ofInt_toInt, BitVec.signExtend]

theorem shiftLeft_eq_ofNat (A : Word) (n : Nat) : A <<< n = BitVec.ofNat 64 (A.toNat * 2 ^ n) := by
  apply BitVec.eq_of_toNat_eq
  rw [BitVec.toNat_shiftLeft, Nat.shiftLeft_eq, BitVec.toNat_ofNat]

theorem ushiftRight_eq_ofNat {w : Nat} (A : BitVec w) (n : Nat) : A >>> n = BitVec.ofNat w (A.toNat / 2 ^ n) := by
  rw [← Nat.shiftRight_eq_div_pow, ← BitVec.toNat_ushiftRight, BitVec.ofNat_toNat, BitVec.setWidth_eq]

/-- An arithmetic shift right divides the signed value, rounding down. -/
theorem sra64_eq_ofInt (A : Word) (n : Nat) : sra64 A n = BitVec.ofInt 64 (A.toInt / 2 ^ n) := by
  rw [sra64, BitVec.sshiftRight, Int.shiftRight_eq_div_pow, Int.natCast_pow, Int.cast_ofNat_Int]

theorem ofInt_two_pow (w k : Nat) : BitVec.ofInt w (2 ^ k) = BitVec.twoPow w k := by
  apply BitVec.eq_of_toNat_eq
  rw [BitVec.toNat_twoPow, show (2 : Int) ^ k = ((2 ^ k : Nat) : Int) from (Int.natCast_pow 2 k).symm, BitVec.ofInt_natCast, BitVec.toNat_ofNat]

/-- A sign-extended immediate shifted into place is the shifted number: the upper immediates and the halfword offsets. -/
theorem signExtend_shiftLeft_eq_ofInt {n : Nat} (u : BitVec n) (w k : Nat) :
    u.signExtend w <<< k = BitVec.ofInt w (u.toInt * 2 ^ k) := by
  rw [BitVec.shiftLeft_eq_mul_twoPow, BitVec.ofInt_mul, BitVec.signExtend, ofInt_two_pow]

/-! ## The upper half of a product (04_scalar.md Table 4.6) -/

theorem extractHigh_ofInt (z : Int) : (BitVec.ofInt 128 z).extractLsb' 64 64 = BitVec.ofInt 64 (z / 2 ^ 64) := by
  apply BitVec.eq_of_toNat_eq
  rw [BitVec.extractLsb'_toNat, BitVec.toNat_ofInt, BitVec.toNat_ofInt, Nat.shiftRight_eq_div_pow]
  omega

theorem mulHigh_true_eq_ofInt (A B : Word) : mulHigh true A B = BitVec.ofInt 64 (A.toInt * B.toInt / 2 ^ 64) := by
  rw [mulHigh, if_pos rfl, BitVec.signExtend, BitVec.signExtend, ← BitVec.ofInt_mul, extractHigh_ofInt]

theorem mulHigh_false_eq_ofNat (A B : Word) : mulHigh false A B = BitVec.ofNat 64 (A.toNat * B.toNat / 2 ^ 64) := by
  have product : A.zeroExtend 128 * B.zeroExtend 128 = BitVec.ofInt 128 ((A.toNat * B.toNat : Nat) : Int) := by
    rw [BitVec.ofInt_natCast, BitVec.ofNat_mul, BitVec.ofNat_toNat, BitVec.ofNat_toNat]
  rw [mulHigh, if_neg Bool.false_ne_true, product, extractHigh_ofInt, ← BitVec.ofInt_natCast]
  rfl

/-! ## Comparisons and selections (04_scalar.md Table 4.6, R111) -/

theorem oneIf_slt (A B : Word) : oneIf (A.slt B) = if A.toInt < B.toInt then 1#64 else 0#64 := by
  simp only [oneIf, BitVec.slt_eq_decide, decide_eq_true_eq]

theorem oneIf_ult (A B : Word) : oneIf (A.ult B) = if A.toNat < B.toNat then 1#64 else 0#64 := by
  simp only [oneIf, BitVec.ult_eq_decide, decide_eq_true_eq]

/-- An immediate compares by its signed value: sign extension keeps it. -/
theorem oneIf_slt_signExtend (A : Word) (i : BitVec 15) :
    oneIf (A.slt (i.signExtend 64)) = if A.toInt < i.toInt then 1#64 else 0#64 := by
  rw [oneIf_slt, BitVec.toInt_signExtend_of_le (by decide)]

theorem pick_slt (A B C D : Word) : pick (A.slt B) C D = if A.toInt < B.toInt then C else D := by
  simp only [pick, BitVec.slt_eq_decide, decide_eq_true_eq]

theorem pick_ult (A B C D : Word) : pick (A.ult B) C D = if A.toNat < B.toNat then C else D := by
  simp only [pick, BitVec.ult_eq_decide, decide_eq_true_eq]

/-- The larger of two words may be chosen by either comparison: where neither is smaller they are one word. -/
theorem pick_slt_larger (A B : Word) : pick (B.slt A) A B = if A.toInt < B.toInt then B else A := by
  rw [pick_slt]
  obtain h | h | h := Int.lt_trichotomy A.toInt B.toInt
  · rw [if_pos h, if_neg (Int.lt_asymm h)]
  · rw [BitVec.eq_of_toInt_eq h, ite_self]
  · rw [if_pos h, if_neg (Int.lt_asymm h)]

/-- The same in the unsigned order. -/
theorem pick_ult_larger (A B : Word) : pick (B.ult A) A B = if A.toNat < B.toNat then B else A := by
  rw [pick_ult]
  obtain h | h | h := Nat.lt_trichotomy A.toNat B.toNat
  · rw [if_pos h, if_neg (Nat.lt_asymm h)]
  · rw [BitVec.eq_of_toNat_eq h, ite_self]
  · rw [if_pos h, if_neg (Nat.lt_asymm h)]

/-! ## Counts of bits (04_scalar.md Table 4.6) -/

theorem clz64_eq_clz (A : Word) : clz64 A = A.clz := by
  unfold clz64
  split
  · next h => exact (BitVec.clz_eq_iff_eq_zero.mpr h).symm
  · next h =>
    have hA : A.toNat ≠ 0 := fun e => h (BitVec.eq_of_toNat_eq e)
    have hle := BitVec.two_pow_sub_clz_le_toNat_of_ne_zero (by decide) h
    have hlt := BitVec.toNat_lt_two_pow_sub_clz (x := A)
    have hclz : A.clz.toNat < 64 := BitVec.clz_lt_iff_ne_zero.mpr h
    have hlog : Nat.log2 A.toNat = 63 - A.clz.toNat :=
      (Nat.log2_eq_iff hA).mpr ⟨hle, by rwa [show 63 - A.clz.toNat + 1 = 64 - A.clz.toNat by omega]⟩
    apply BitVec.eq_of_toNat_eq
    rw [hlog, BitVec.toNat_ofNat]
    omega

theorem ctzNat_zero (n : Nat) : ctzNat n 0 = n := by
  induction n with
  | zero => rfl
  | succ n ih => rw [ctzNat, if_neg (by decide), Nat.zero_div, ih, Nat.add_comm]

/-- The count of trailing zeros is the place of the lowest one bit. -/
theorem ctzNat_eq_of_testBit {n v k : Nat} (hk : k < n) (hone : v.testBit k = true) (hlow : ∀ i < k, v.testBit i = false) :
    ctzNat n v = k := by
  induction n generalizing v k with
  | zero => omega
  | succ n ih =>
    rw [ctzNat]
    cases k with
    | zero => rw [if_pos (Nat.mod_two_eq_one_iff_testBit_zero.mpr hone)]
    | succ k =>
      have heven : ¬v % 2 = 1 := by
        rw [Nat.mod_two_eq_one_iff_testBit_zero, hlow 0 (by omega)]
        exact Bool.false_ne_true
      rw [Nat.testBit_add_one] at hone
      have hrest : ∀ i < k, (v / 2).testBit i = false := fun i hi => by
        rw [← Nat.testBit_add_one]; exact hlow (i + 1) (by omega)
      rw [if_neg heven, ih (by omega) hone hrest, Nat.add_comm]

theorem ctz64_eq_ctz (A : Word) : ctz64 A = A.ctz := by
  unfold ctz64
  by_cases h : A = 0#64
  · subst h
    rw [BitVec.toNat_zero, ctzNat_zero, BitVec.ctz_eq_reverse_clz]
    exact (BitVec.clz_eq_iff_eq_zero.mpr (BitVec.reverse_eq_zero_iff.mpr rfl)).symm
  · have hctz : A.ctz.toNat < 64 := BitVec.ctz_lt_iff_ne_zero.mpr h
    rw [ctzNat_eq_of_testBit hctz (BitVec.getLsbD_true_ctz_of_ne_zero h) fun i hi => BitVec.getLsbD_false_of_lt_ctz hi,
      BitVec.ofNat_toNat, BitVec.setWidth_eq]

/-- The model counts from bit 0 upward: the highest bit is the last one it adds. -/
theorem popNat_succ (n v : Nat) : popNat (n + 1) v = popNat n v + (v.testBit n).toNat := by
  induction n generalizing v with
  | zero => rw [popNat, popNat, popNat, Nat.toNat_testBit, Nat.pow_zero, Nat.div_one, Nat.add_comm]
  | succ n ih => rw [popNat, ih, popNat, Nat.testBit_add_one, Nat.add_assoc]

theorem popNat_eq_cpopNatRec (A : Word) (n : Nat) : popNat n A.toNat = A.cpopNatRec n 0 := by
  induction n with
  | zero => rfl
  | succ n ih => rw [popNat_succ, ih, BitVec.cpopNatRec_succ, BitVec.cpopNatRec_add, BitVec.testBit_toNat]

theorem popc64_eq_cpop (A : Word) : popc64 A = A.cpop := by
  rw [popc64, popNat_eq_cpopNatRec, BitVec.cpop]

/-! ## Quotient and remainder (04_scalar.md R109) -/

theorem sdiv_eq_ofInt (A B : Word) : A.sdiv B = BitVec.ofInt 64 (A.toInt.tdiv B.toInt) := by
  apply BitVec.eq_of_toInt_eq
  rw [BitVec.toInt_sdiv, BitVec.toInt_ofInt]

theorem srem_eq_ofInt (A B : Word) : A.srem B = BitVec.ofInt 64 (A.toInt.tmod B.toInt) := by
  rw [← BitVec.toInt_srem, BitVec.ofInt_toInt]

theorem umod_eq_ofNat (A B : Word) : A % B = BitVec.ofNat 64 (A.toNat % B.toNat) := by
  rw [← BitVec.toNat_umod, BitVec.ofNat_toNat, BitVec.setWidth_eq]

theorem divide_eq_quotRem (signed : Bool) (A B : Word) : divide signed A B = quotRem signed A B := by
  unfold divide quotRem
  rw [sdiv_eq_ofInt, srem_eq_ofInt, BitVec.udiv_def, umod_eq_ofNat]
  rfl

/-! ## Offsets of the instruction store (04_scalar.md R112, R114, R115) -/

/-- ipc adds to the instruction's own offset as a 64-bit number, not modulo 2^19 (R112). -/
theorem offset_add_upper_eq_ofInt (pc : Offset) (u : BitVec 20) :
    pc.zeroExtend 64 + (u.signExtend 64 <<< 15) = BitVec.ofInt 64 (pc.toNat + u.toInt * 2 ^ 15) := by
  rw [BitVec.ofInt_add, BitVec.ofInt_natCast, BitVec.ofNat_toNat, signExtend_shiftLeft_eq_ofInt]

/-- An offset and a displacement, modulo 2^19. -/
theorem offset_add_ofInt (pc : Offset) (z : Int) : pc + BitVec.ofInt 19 z = BitVec.ofInt 19 (pc.toNat + z) := by
  rw [BitVec.ofInt_add, BitVec.ofInt_natCast, BitVec.ofNat_toNat, BitVec.setWidth_eq]

/-- A number truncated twice is truncated once to the narrower width. -/
theorem setWidth_ofInt {m n : Nat} (h : n ≤ m) (z : Int) : (BitVec.ofInt m z).setWidth n = BitVec.ofInt n z := by
  have hdvd : ((2 ^ n : Nat) : Int) ∣ (2 ^ m : Nat) := Int.ofNat_dvd.mpr (Nat.pow_dvd_pow 2 h)
  have nonneg (k : Nat) : 0 ≤ z % (2 ^ k : Nat) := Int.emod_nonneg z (Int.ofNat_ne_zero.mpr (Nat.ne_of_gt (Nat.two_pow_pos k)))
  apply BitVec.eq_of_toNat_eq
  apply Int.ofNat_inj.mp
  rw [BitVec.toNat_setWidth, BitVec.toNat_ofInt, BitVec.toNat_ofInt, Int.natCast_emod, Int.toNat_of_nonneg (nonneg m),
    Int.toNat_of_nonneg (nonneg n), Int.emod_emod_of_dvd z hdvd]

theorem branchTarget_eq_ofInt (pc : Offset) (o : BitVec 15) :
    pc + (o.signExtend 19 <<< 1) = BitVec.ofInt 19 (pc.toNat + 2 * o.toInt) := by
  rw [signExtend_shiftLeft_eq_ofInt, offset_add_ofInt, Int.mul_comm, Int.pow_one]

theorem jalTarget_eq_ofInt (pc : Offset) (o : BitVec 25) :
    pc + (o.signExtend 26 <<< 1).truncate 19 = BitVec.ofInt 19 (pc.toNat + 2 * o.toInt) := by
  rw [signExtend_shiftLeft_eq_ofInt, BitVec.truncate_eq_setWidth, setWidth_ofInt (by decide), offset_add_ofInt, Int.mul_comm, Int.pow_one]

/-- Clearing bit 0 of an offset rounds it down to an even one. -/
theorem ofInt_and_evenMask (z : Int) : BitVec.ofInt 19 z &&& 0x7FFFE#19 = BitVec.ofInt 19 (z % 2 ^ 19 / 2 * 2) := by
  have mask : 0x7FFFE#19 = BitVec.allOnes 19 <<< 1 := rfl
  apply BitVec.eq_of_toNat_eq
  rw [mask, ← BitVec.shiftLeft_ushiftRight, BitVec.toNat_shiftLeft, BitVec.toNat_ushiftRight, Nat.shiftLeft_eq,
    Nat.shiftRight_eq_div_pow, BitVec.toNat_ofInt, BitVec.toNat_ofInt]
  omega

theorem jalrTarget_eq_ofInt (A : Word) (i : BitVec 15) :
    (A + i.signExtend 64).truncate 19 &&& 0x7FFFE#19 = BitVec.ofInt 19 ((A.toNat + i.toInt) % 2 ^ 19 / 2 * 2) := by
  have sum : A + i.signExtend 64 = BitVec.ofInt 64 (A.toNat + i.toInt) := by
    rw [BitVec.ofInt_add, BitVec.ofInt_natCast, BitVec.ofNat_toNat, BitVec.setWidth_eq, BitVec.signExtend]
  rw [sum, BitVec.truncate_eq_setWidth, setWidth_ofInt (by decide), ofInt_and_evenMask]

theorem State.link_eq_ofNat (s : State) : s.link = BitVec.ofNat 64 ((s.pc.toNat + 4) % 2 ^ 19) := by
  rw [show (s.pc.toNat + 4) % 2 ^ 19 = (s.pc + 4#19).toNat from rfl, BitVec.ofNat_toNat]
  rfl

/-! ## What the instructions leave -/

/-- The instruction completes, writes x[d] and nothing else (04_scalar.md R108, R111, R112). -/
def Completes (i : Instr) (s : State) (d : BitVec 5) (v : Word) : Prop := ∃ t, exec i s = .next t ∧ Writes s t d v 4

/-- An instruction whose meaning is a write of x[d] completes with the value that it writes. -/
theorem completes_of_write {i : Instr} {s : State} {d : BitVec 5} {v w : Word} (he : exec i s = .next (s.write d v)) (hv : v = w) :
    Completes i s d w := ⟨_, he, hv ▸ s.write_writes d v⟩

/-- Each register operation writes what Table 4.6 gives. -/
theorem aluRows_complete (d a b : BitVec 5) (s : State) : ∀ p ∈ aluRows d a b (s.x a) (s.x b), Completes p.1 s d p.2 := by
  simp only [aluRows, List.forall_mem_cons]
  exact ⟨completes_of_write rfl (add_eq_ofNat _ _), completes_of_write rfl (sub_eq_ofInt _ _),
    completes_of_write rfl rfl, completes_of_write rfl rfl, completes_of_write rfl rfl,
    completes_of_write rfl (shiftLeft_eq_ofNat _ _), completes_of_write rfl (ushiftRight_eq_ofNat _ _),
    completes_of_write rfl (sra64_eq_ofInt _ _),
    completes_of_write rfl (oneIf_slt _ _), completes_of_write rfl (oneIf_ult _ _),
    completes_of_write rfl (mul_eq_ofNat _ _), completes_of_write rfl (mulHigh_true_eq_ofInt _ _),
    completes_of_write rfl (mulHigh_false_eq_ofNat _ _),
    completes_of_write rfl (pick_slt _ _ _ _), completes_of_write rfl (pick_slt_larger _ _),
    completes_of_write rfl (pick_ult _ _ _ _), completes_of_write rfl (pick_ult_larger _ _),
    completes_of_write rfl (clz64_eq_clz _), completes_of_write rfl (ctz64_eq_ctz _), completes_of_write rfl (popc64_eq_cpop _),
    List.forall_mem_nil _⟩

/-- Each immediate operation writes what its register form gives for the extended immediate (04_scalar.md R111, R112). -/
theorem immediateRows_complete (d a : BitVec 5) (i : BitVec 15) (n : BitVec 6) (u : BitVec 20) (s : State) :
    ∀ p ∈ immediateRows d a i n u (s.x a) s.pc, Completes p.1 s d p.2 := by
  have zeroExt : i.zeroExtend 64 = BitVec.ofNat 64 i.toNat := (BitVec.ofNat_toNat 64 i).symm
  simp only [immediateRows, List.forall_mem_cons]
  exact ⟨completes_of_write rfl (add_signExtend_eq_ofInt _ i),
    completes_of_write rfl (congrArg (s.x a &&& ·) zeroExt), completes_of_write rfl (congrArg (s.x a ||| ·) zeroExt),
    completes_of_write rfl (congrArg (s.x a ^^^ ·) zeroExt),
    completes_of_write rfl (shiftLeft_eq_ofNat _ _), completes_of_write rfl (ushiftRight_eq_ofNat _ _),
    completes_of_write rfl (sra64_eq_ofInt _ _),
    completes_of_write rfl (oneIf_slt_signExtend _ i), completes_of_write rfl (oneIf_ult _ _),
    completes_of_write rfl (signExtend_shiftLeft_eq_ofInt u 64 15), completes_of_write rfl (offset_add_upper_eq_ofInt s.pc u),
    List.forall_mem_nil _⟩

/-- A division writes x[d] and, for a zero divisor, sets status.idz, and changes nothing else (04_scalar.md R109). -/
theorem State.noteDivisor_write_writesStatus (s : State) (d : BitVec 5) (b v : Word) :
    WritesStatus s ((s.noteDivisor b).write d v) d v (if b = 0#64 then s.me.ctx.status ||| 1#64 else s.me.ctx.status) := by
  rw [State.noteDivisor_eq]
  exact State.write_writes _ d v

/-- Each division writes its quotient or remainder and notes its divisor (04_scalar.md R109). -/
theorem divideRows_complete (d a b : BitVec 5) (s : State) :
    ∀ p ∈ divideRows d a b (s.x a) (s.x b), ∃ t, exec p.1 s = .next t ∧
      WritesStatus s t d p.2 (if s.x b = 0#64 then s.me.ctx.status ||| 1#64 else s.me.ctx.status) := by
  simp only [divideRows, ← divide_eq_quotRem, List.forall_mem_cons]
  exact ⟨⟨_, rfl, s.noteDivisor_write_writesStatus d _ _⟩, ⟨_, rfl, s.noteDivisor_write_writesStatus d _ _⟩,
    ⟨_, rfl, s.noteDivisor_write_writesStatus d _ _⟩, ⟨_, rfl, s.noteDivisor_write_writesStatus d _ _⟩, List.forall_mem_nil _⟩

/-- A branch changes the program counter alone (04_scalar.md R114). -/
theorem State.branch_onlyPc (s : State) (taken : Bool) (o : BitVec 15) :
    OnlyPc s (s.branch taken o) (if taken then BitVec.ofInt 19 (s.pc.toNat + 2 * o.toInt) else s.pc + 4#19) := by
  rw [← branchTarget_eq_ofInt]
  cases taken <;> rfl

/-- The instruction completes as a branch that is taken or not (04_scalar.md R114). -/
def Branches (i : Instr) (s : State) (taken : Bool) (o : BitVec 15) : Prop :=
  ∃ t, exec i s = .next t ∧ OnlyPc s t (if taken then BitVec.ofInt 19 (s.pc.toNat + 2 * o.toInt) else s.pc + 4#19)

theorem branches_of_branch {i : Instr} {s : State} {c taken : Bool} {o : BitVec 15} (he : exec i s = .next (s.branch c o))
    (hc : c = taken) : Branches i s taken o := ⟨_, he, hc ▸ s.branch_onlyPc c o⟩

/-- Each branch is taken on its condition (04_scalar.md R114). -/
theorem branchRows_branch (a b : BitVec 5) (o : BitVec 15) (s : State) :
    ∀ p ∈ branchRows a b o (s.x a) (s.x b), Branches p.1 s p.2 o := by
  simp only [branchRows, List.forall_mem_cons]
  exact ⟨branches_of_branch rfl (Bool.beq_eq_decide_eq _ _), branches_of_branch rfl (by rw [bne, Bool.beq_eq_decide_eq, decide_not]),
    branches_of_branch rfl BitVec.slt_eq_decide,
    branches_of_branch rfl BitVec.sle_eq_not_slt.symm,
    branches_of_branch rfl BitVec.ult_eq_decide,
    branches_of_branch rfl (BitVec.ule_eq_not_ult _ _).symm, List.forall_mem_nil _⟩

/-- The instruction completes as a jump to an offset with its link in x[d]: at most the general registers, ldst and the program counter
change (04_scalar.md R115). -/
def Jumps (i : Instr) (s : State) (d : BitVec 5) (target : Offset) : Prop :=
  ∃ t, exec i s = .next t ∧ OnlyGeneral s t ∧ HoldsAt s t d (BitVec.ofNat 64 ((s.pc.toNat + 4) % 2 ^ 19)) ∧
    t.me.ctx.ldst = 0#1 ++ d ∧ t.pc = target

/-- A register written and the program counter set change x, the program counter and ldst alone. -/
theorem State.putX_setPc_ctx (s : State) (d : BitVec 5) (v : Word) (o : Offset) :
    ((s.putX d v).setPc o).me.ctx = { s.me.ctx with x := ((s.putX d v).setPc o).me.ctx.x, pc := o, ldst := 0#1 ++ d } := by
  unfold State.setPc State.putX State.updCtx Ctx.setX
  split <;> rfl

theorem jumps_of_link {i : Instr} {s : State} {d : BitVec 5} {o target : Offset}
    (he : exec i s = .next ((s.putX d s.link).setPc o)) (ho : o = target) : Jumps i s d target :=
  ⟨_, he, ⟨rfl, s.putX_setPc_ctx d _ o⟩, fun r => s.link_eq_ofNat ▸ s.putX_x d r s.link, rfl, ho⟩

theorem jal_jumps (o : BitVec 25) (s : State) : Jumps (.jal o) s 1#5 (BitVec.ofInt 19 (s.pc.toNat + 2 * o.toInt)) :=
  jumps_of_link rfl (jalTarget_eq_ofInt s.pc o)

/-- jalr reads x[a] for its target before the link is written, so d = a is no exception (04_scalar.md R115). -/
theorem jalr_jumps (d a : BitVec 5) (i : BitVec 15) (s : State) :
    Jumps (.jalr d a i) s d (BitVec.ofInt 19 (((s.x a).toNat + i.toInt) % 2 ^ 19 / 2 * 2)) :=
  jumps_of_link rfl (jalrTarget_eq_ofInt (s.x a) i)

/-- Settles O12: each row of the three tables, by the value of its operation and what a write of x[d] leaves. -/
theorem integerOperationsWriteTheirResult : Obligations.IntegerOperationsWriteTheirResult :=
  ⟨aluRows_complete, immediateRows_complete, divideRows_complete⟩

/-- Settles O13: each branch by its condition, and the jumps by their targets and the link. -/
theorem branchesAndJumpsGoToTheirTarget : Obligations.BranchesAndJumpsGoToTheirTarget :=
  ⟨branchRows_branch, fun o d a i s => ⟨jal_jumps o s, jalr_jumps d a i s⟩⟩

end Sys2Proof.Machine
end

section
/-!
PROOFS. Registers read as one array of bits, and their elements (05_lanes.md R126, R139): what a group reads, and what it reads after it is written.
-/

namespace Sys2Proof.Machine

/-! ## Registers read as one array of bits (05_lanes.md R126, R139) -/

/-- Register `k` of a register file, whose numbers wrap. -/
def regAt {W K : Nat} (hK : 0 < K) (v : Vector (BitVec W) K) (k : Nat) : BitVec W := v[k % K]'(Nat.mod_lt k hK)

/-- Bit `i` of the registers from `base` on. -/
def bitAt {W K : Nat} (hK : 0 < K) (v : Vector (BitVec W) K) (base i : Nat) : Bool := (regAt hK v (base + i / W)).getLsbD (i % W)

/-- `n` registers from `base` as one number. -/
def joinRegs {W K : Nat} (hK : 0 < K) (v : Vector (BitVec W) K) (base : Nat) : Nat → Nat
  | 0 => 0
  | n + 1 => (regAt hK v base).toNat + joinRegs hK v (base + 1) n <<< W

/-- `n` registers from `base` written from one number. -/
def setRegs {W K : Nat} (hK : 0 < K) (v : Vector (BitVec W) K) (base : Nat) : Nat → Nat → Vector (BitVec W) K
  | 0, _ => v
  | n + 1, g => setRegs hK (v.set (base % K) (BitVec.ofNat W g) (Nat.mod_lt base hK)) (base + 1) n (g >>> W)

section
variable {W K : Nat} {hK : 0 < K} {v : Vector (BitVec W) K}

theorem testBit_joinRegs (hW : 0 < W) {base n i : Nat} (hi : i < n * W) : (joinRegs hK v base n).testBit i = bitAt hK v base i := by
  induction n generalizing base i with
  | zero => omega
  | succ n ih =>
    rw [joinRegs, Nat.shiftLeft_eq, Nat.add_comm, Nat.mul_comm, Nat.testBit_two_pow_mul_add _ (regAt hK v base).isLt, bitAt]
    split
    · next h => rw [BitVec.testBit_toNat, Nat.div_eq_of_lt h, Nat.mod_eq_of_lt h, Nat.add_zero]
    · next h =>
      rw [Nat.succ_mul] at hi
      have hq : i / W = (i - W) / W + 1 := by rw [← Nat.add_div_right _ hW, Nat.sub_add_cancel (Nat.le_of_not_lt h)]
      have hr : i % W = (i - W) % W := Nat.mod_eq_sub_mod (Nat.le_of_not_lt h)
      rw [ih (by omega), bitAt, hq, hr, Nat.add_assoc, Nat.add_comm 1]

/-- A register after a group is written: the number's bits at its place, or as before outside the group. -/
theorem regAt_setRegs {base n g k : Nat} (h : base + n ≤ K) (hk : k < K) :
    regAt hK (setRegs hK v base n g) k = if base ≤ k ∧ k < base + n then BitVec.ofNat W (g >>> ((k - base) * W)) else regAt hK v k := by
  induction n generalizing v base g with
  | zero => rw [setRegs, if_neg (by omega)]
  | succ n ih =>
    rw [setRegs, ih (by omega)]
    have hb : base % K = base := Nat.mod_eq_of_lt (by omega)
    have hkk : k % K = k := Nat.mod_eq_of_lt hk
    by_cases hlt : base + 1 ≤ k ∧ k < base + 1 + n
    · rw [if_pos hlt, if_pos (by omega), ← Nat.shiftRight_add, show k - base = (k - (base + 1)) + 1 by omega, Nat.succ_mul, Nat.add_comm W]
    · simp only [if_neg hlt, regAt, Vector.getElem_set, hb, hkk]
      by_cases he : base = k
      · rw [if_pos he, if_pos (by omega), he, Nat.sub_self, Nat.zero_mul, Nat.shiftRight_zero]
      · rw [if_neg he, if_neg (by omega)]

theorem bitAt_setRegs (hW : 0 < W) {base n g i : Nat} (h : base + n ≤ K) (hi : i < n * W) :
    bitAt hK (setRegs hK v base n g) base i = g.testBit i := by
  have hq : i / W < n := Nat.div_lt_of_lt_mul (by rwa [Nat.mul_comm])
  rw [bitAt, regAt_setRegs h (by omega), if_pos ⟨Nat.le_add_right base _, by omega⟩, BitVec.getLsbD_ofNat, Nat.testBit_shiftRight,
      Nat.add_sub_cancel_left,
    Nat.div_add_mod', decide_eq_true (Nat.mod_lt i hW), Bool.true_and]

end

/-! ### The vector and mask registers -/

theorem Ctx.vGroup_eq (c : Ctx) (base n : Nat) : c.vGroup base n = joinRegs (by decide) c.v base n := by
  induction n generalizing base with
  | zero => unfold Ctx.vGroup joinRegs; rfl
  | succ n ih => unfold Ctx.vGroup joinRegs; rw [ih, Ctx.vReg, regAt]

theorem Ctx.mGroup_eq (c : Ctx) (base n : Nat) : c.mGroup base n = joinRegs (by decide) c.m base n := by
  induction n generalizing base with
  | zero => unfold Ctx.mGroup joinRegs; rfl
  | succ n ih => unfold Ctx.mGroup joinRegs; rw [ih, Ctx.mReg, regAt]

theorem Ctx.setVGroup_eq (c : Ctx) (base n g : Nat) : c.setVGroup base n g = { c with v := setRegs (by decide) c.v base n g } := by
  induction n generalizing c base g with
  | zero => rfl
  | succ n ih => rw [Ctx.setVGroup, ih]; rfl

theorem Ctx.setMGroup_eq (c : Ctx) (base n g : Nat) : c.setMGroup base n g = { c with m := setRegs (by decide) c.m base n g } := by
  induction n generalizing c base g with
  | zero => rfl
  | succ n ih => rw [Ctx.setMGroup, ih]; rfl

theorem Ctx.testBit_mGroup (c : Ctx) {base n i : Nat} (hi : i < n * 2048) : (c.mGroup base n).testBit i = c.maskBit base i := by
  rw [c.mGroup_eq, testBit_joinRegs (by decide) hi]
  rfl

/-! ## Elements (05_lanes.md R126) -/

theorem testBit_elemAt (w g i k : Nat) : (elemAt w g i).testBit k = (decide (k < w) && g.testBit (i * w + k)) := by
  rw [elemAt, Nat.testBit_mod_two_pow, Nat.testBit_shiftRight]

theorem elemAt_lt (w g i : Nat) : elemAt w g i < 2 ^ w := Nat.mod_lt _ (Nat.two_pow_pos w)

theorem Ctx.elem_lt (c : Ctx) (base w i : Nat) : c.elem base w i < 2 ^ w := Nat.mod_lt _ (Nat.two_pow_pos w)

theorem VSrc.at_lt (b : VSrc) (c : Ctx) (w i : Nat) : b.at c w i < 2 ^ w := by
  cases b with
  | reg r => exact c.elem_lt _ _ _
  | scalar x => exact Nat.mod_lt _ (Nat.two_pow_pos w)

/-- An element lies in one register, so its bits are consecutive bits of the group. -/
theorem Ctx.testBit_elem (c : Ctx) {w : Nat} (hw : w ∣ 16384) (base i k : Nat) :
    (c.elem base w i).testBit k = (decide (k < w) && bitAt (by decide) c.v base (i * w + k)) := by
  obtain ⟨m, hm⟩ := hw
  have w0 : 0 < w := Nat.pos_of_ne_zero fun h => by rw [h, Nat.zero_mul] at hm; omega
  rw [Ctx.elem, Nat.testBit_mod_two_pow, Nat.testBit_div_two_pow, BitVec.testBit_toNat]
  by_cases hk : k < w
  · have hd : (i * w + k) / w = i := by rw [Nat.mul_comm, Nat.mul_add_div w0, Nat.div_eq_of_lt hk, Nat.add_zero]
    have hd' : i * w / w = i := Nat.mul_div_cancel i w0
    have hq : (i * w + k) / 16384 = i * w / 16384 := by rw [hm, ← Nat.div_div_eq_div_mul, ← Nat.div_div_eq_div_mul, hd, hd']
    have hr : (i * w + k) % 16384 = i * w % 16384 + k := by
      rw [hm, Nat.mod_mul, Nat.mod_mul, hd, hd', Nat.mul_mod_left, Nat.mul_comm i w, Nat.mul_add_mod, Nat.mod_eq_of_lt hk]
      omega
    rw [bitAt, hq, hr, Nat.add_comm k]
    rfl
  · rw [decide_eq_false hk, Bool.false_and, Bool.false_and]

theorem index_bit_lt {i k w N : Nat} (hi : i < N / w) (hk : k < w) : i * w + k < N :=
  calc i * w + k < i * w + w := by omega
    _ = (i + 1) * w := (Nat.succ_mul i w).symm
    _ ≤ N / w * w := Nat.mul_le_mul_right w hi
    _ ≤ N := Nat.div_mul_le_self N w

/-- Element `i` of a group read as one number is the element of the registers. -/
theorem Ctx.elemAt_vGroup (c : Ctx) {w : Nat} (hw : w ∣ 16384) {base n i : Nat} (hi : i < n * 16384 / w) :
    elemAt w (c.vGroup base n) i = c.elem base w i := by
  apply Nat.eq_of_testBit_eq
  intro k
  rw [testBit_elemAt, c.testBit_elem hw, c.vGroup_eq]
  by_cases hk : k < w
  · rw [testBit_joinRegs (by decide) (index_bit_lt hi hk)]
  · rw [decide_eq_false hk, Bool.false_and, Bool.false_and]

/-- Element `i` of the registers after their group is written. -/
theorem Ctx.elem_setVGroup (c : Ctx) {w : Nat} (hw : w ∣ 16384) {base n g i : Nat} (h : base + n ≤ 32) (hi : i < n * 16384 / w) :
    (c.setVGroup base n g).elem base w i = elemAt w g i := by
  apply Nat.eq_of_testBit_eq
  intro k
  rw [testBit_elemAt, Ctx.testBit_elem _ hw, c.setVGroup_eq]
  by_cases hk : k < w
  · rw [bitAt_setRegs (by decide) h (index_bit_lt hi hk)]
  · rw [decide_eq_false hk, Bool.false_and, Bool.false_and]

theorem Ctx.setVGroup_v_outside (c : Ctx) {base n g : Nat} (h : base + n ≤ 32) (r : Fin 32) (hr : r.val < base ∨ base + n ≤ r.val) :
    (c.setVGroup base n g).v[r] = c.v[r] := by
  have := regAt_setRegs (hK := by decide) (v := c.v) (g := g) h r.isLt
  rw [if_neg (by omega)] at this
  simpa only [regAt, Nat.mod_eq_of_lt r.isLt, c.setVGroup_eq, Fin.getElem_fin] using this

theorem Ctx.setMGroup_m_outside (c : Ctx) {base n g : Nat} (h : base + n ≤ 8) (r : Fin 8) (hr : r.val < base ∨ base + n ≤ r.val) :
    (c.setMGroup base n g).m[r] = c.m[r] := by
  have := regAt_setRegs (hK := by decide) (v := c.m) (g := g) h r.isLt
  rw [if_neg (by omega)] at this
  simpa only [regAt, Nat.mod_eq_of_lt r.isLt, c.setMGroup_eq, Fin.getElem_fin] using this

theorem Ctx.maskBit_setMGroup (c : Ctx) {base n g i : Nat} (h : base + n ≤ 8) (hi : i < n * 2048) :
    (c.setMGroup base n g).maskBit base i = g.testBit i := by
  rw [c.setMGroup_eq]
  exact bitAt_setRegs (by decide) h hi

/-- An element read after one is replaced. -/
theorem elemAt_setElem {w v : Nat} (hv : v < 2 ^ w) (g i j : Nat) : elemAt w (setElem w g i v) j = if j = i then v else elemAt w g j := by
  apply Nat.eq_of_testBit_eq
  intro k
  rw [testBit_elemAt, setElem, Nat.testBit_xor, Nat.testBit_shiftLeft]
  by_cases hk : k < w
  · obtain hj | rfl | hj := Nat.lt_trichotomy j i
    · have := Nat.mul_le_mul_right w hj
      rw [Nat.succ_mul] at this
      rw [if_neg (by omega), testBit_elemAt, decide_eq_false (by omega : ¬j * w + k ≥ i * w), Bool.false_and, Bool.xor_false]
    · rw [if_pos rfl, decide_eq_true (by omega : j * w + k ≥ j * w), Bool.true_and, Nat.add_sub_cancel_left, Nat.testBit_xor, testBit_elemAt,
        decide_eq_true hk, Bool.true_and, Bool.true_and, ← Bool.xor_assoc, Bool.xor_self, Bool.false_xor]
    · have := Nat.mul_le_mul_right w hj
      rw [Nat.succ_mul] at this
      have small : elemAt w g i ^^^ v < 2 ^ (j * w + k - i * w) :=
        Nat.lt_of_lt_of_le (Nat.xor_lt_two_pow (elemAt_lt w g i) hv) (Nat.pow_le_pow_right (by decide) (by omega))
      rw [if_neg (by omega), testBit_elemAt, Nat.testBit_lt_two_pow small, Bool.and_false, Bool.xor_false]
  · rw [decide_eq_false hk, Bool.false_and]
    split
    · exact (Nat.testBit_lt_two_pow (Nat.lt_of_lt_of_le hv (Nat.pow_le_pow_right (by decide) (by omega)))).symm
    · rw [testBit_elemAt, decide_eq_false hk, Bool.false_and]

theorem testBit_clearBits (lo hi g k : Nat) : (clearBits lo hi g).testBit k = (g.testBit k && !(decide (lo ≤ k) && decide (k < hi))) := by
  rw [clearBits]
  split
  · next h =>
    rw [show (decide (lo ≤ k) && decide (k < hi)) = false by simp only [Bool.and_eq_false_iff, decide_eq_false_iff_not]; omega, Bool.not_false,
        Bool.and_true]
  · next h =>
    have small : g % 2 ^ lo < 2 ^ hi := Nat.lt_of_lt_of_le (Nat.mod_lt _ (Nat.two_pow_pos lo)) (Nat.pow_le_pow_right (by decide) (by omega))
    rw [Nat.shiftLeft_eq, Nat.add_comm, Nat.mul_comm, Nat.testBit_two_pow_mul_add _ small]
    split
    · next hk => rw [Nat.testBit_mod_two_pow, decide_eq_true hk, Bool.and_true, ← decide_not, Bool.and_comm, decide_eq_decide.mpr Nat.not_le]
    · next hk => rw [Nat.testBit_shiftRight, Nat.add_sub_cancel' (by omega), decide_eq_false hk, Bool.and_false, Bool.not_false, Bool.and_true]

/-- An element read after whole elements are cleared. -/
theorem elemAt_clearBits (w lo hi g i : Nat) :
    elemAt w (clearBits (lo * w) (hi * w) g) i = if lo ≤ i ∧ i < hi then 0 else elemAt w g i := by
  apply Nat.eq_of_testBit_eq
  intro k
  rw [testBit_elemAt, testBit_clearBits]
  by_cases hk : k < w
  · have low : lo * w ≤ i * w + k ↔ lo ≤ i := by
      rw [← Nat.lt_succ_iff, ← Nat.lt_succ_iff, Nat.succ_eq_add_one, Nat.succ_eq_add_one]
      constructor
      · intro h
        exact Nat.lt_of_mul_lt_mul_right (a := w) (by rw [Nat.succ_mul]; omega)
      · intro h
        have := Nat.mul_le_mul_right w (Nat.lt_succ_iff.mp h)
        omega
    have high : i * w + k < hi * w ↔ i < hi := by
      constructor
      · intro h
        exact Nat.lt_of_mul_lt_mul_right (a := w) (by omega)
      · intro h
        have := Nat.mul_le_mul_right w h
        rw [Nat.succ_mul] at this
        omega
    rw [decide_eq_decide.mpr low, decide_eq_decide.mpr high, ← Bool.decide_and]
    split
    · next h => rw [decide_eq_true h, Bool.not_true, Bool.and_false, Bool.and_false, Nat.zero_testBit]
    · next h => rw [decide_eq_false h, Bool.not_false, Bool.and_true, testBit_elemAt]
  · rw [decide_eq_false hk, Bool.false_and]
    split
    · rw [Nat.zero_testBit]
    · rw [testBit_elemAt, decide_eq_false hk, Bool.false_and]

end Sys2Proof.Machine
end

section
/-!
PROOFS. Sweeps over the elements of a group (06_vector_arithmetic.md R158): the shapes that they run over, and what an element-wise entry leaves.
-/

namespace Sys2Proof.Machine

/-! ## Shapes (05_lanes.md R128 to R131, R139) -/

theorem bits_lt (x : Word) (hi lo : Nat) : bits x hi lo < 2 ^ (hi - lo + 1) := Nat.mod_lt _ (Nat.two_pow_pos _)

/-- Every element type has one of five widths. -/
theorem vtW_mem (vt : Word) : vtW vt ∈ [4, 8, 16, 32, 64] := by
  have widths : ∀ n < 32, ((elemOf n).getD (.int true 8)).width ∈ [4, 8, 16, 32, 64] := by decide
  exact widths _ (bits_lt vt 4 0)

theorem vtN_mem (vt : Word) : vtN vt ∈ [1, 2, 4, 8] := by
  have sizes : ∀ n < 4, 2 ^ n ∈ [1, 2, 4, 8] := by decide
  exact sizes _ (bits_lt vt 6 5)

theorem two_mul_vtW_dvd (vt : Word) : 2 * vtW vt ∣ 16384 := by
  have dvd : ∀ w ∈ [4, 8, 16, 32, 64], 2 * w ∣ 16384 := by decide
  exact dvd _ (vtW_mem vt)

theorem vtW_dvd (vt : Word) : vtW vt ∣ 16384 := Nat.dvd_trans (Nat.dvd_mul_left _ 2) (two_mul_vtW_dvd vt)

theorem vlMax_eq (vt : Word) : vlMax vt = vtN vt * 16384 / vtW vt := by rw [vlMax, Nat.mul_comm]

/-- Elements of twice the width fill twice the registers. -/
theorem vlMax_eq_wide (vt : Word) : vlMax vt = 2 * vtN vt * 16384 / (2 * vtW vt) := by
  rw [vlMax_eq, Nat.mul_assoc, Nat.mul_div_mul_left _ _ (by decide)]

/-- A mask group has a bit for every element. -/
theorem vlMax_le_maskRegs (vt : Word) : vlMax vt ≤ maskRegs vt * 2048 := by
  have fits : ∀ n ∈ [1, 2, 4, 8], ∀ w ∈ [4, 8, 16, 32, 64], 16384 * n / w ≤ max 1 (16384 * n / w / 2048) * 2048 := by decide
  exact fits _ (vtN_mem vt) _ (vtW_mem vt)

/-- A legal mask group lies within the eight mask registers (05_lanes.md R139). -/
theorem maskOk_add_le {vt : Word} {k : Nat} (hk : k ≤ 7) (h : maskOk vt k = true) : k + maskRegs vt ≤ 8 := by
  have fits : ∀ n ∈ [1, 2, 4, 8], ∀ w ∈ [4, 8, 16, 32, 64], ∀ k < 8,
      (decide (max 1 (16384 * n / w / 2048) ≤ 8) && k % max 1 (16384 * n / w / 2048) == 0) = true → k + max 1 (16384 * n / w / 2048) ≤ 8 := by decide
  exact fits _ (vtN_mem vt) _ (vtW_mem vt) k (by omega) h

theorem vlLen_le_vlMax {vl vt : Word} (h : shapeOk vl vt = true) : vlLen vl ≤ vlMax vt := by
  simp only [shapeOk, Bool.and_eq_true, decide_eq_true_eq] at h
  exact h.1.2

theorem groupOk_add_le {d : BitVec 5} {n : Nat} (h : groupOk d n = true) : d.toNat + n ≤ 32 := by
  rw [groupOk, Bool.and_eq_true, decide_eq_true_eq] at h
  exact h.2

/-! ## Draws (03_numbers.md R75, R78) -/

theorem xorshiftN_succ (k : Nat) (x : Word) : xorshiftN (k + 1) x = xorshift (xorshiftN k x) := by
  induction k generalizing x with
  | zero => rfl
  | succ k ih => exact ih (xorshift x)

/-! ## Sweeping elements (06_vector_arithmetic.md R158) -/

/-- A sweep whose active elements give `F`: element i's draw is draw i + 1 of the captured prng. -/
theorem sweep_congr {w : Nat} {act A : Nat → Bool} {mz : Bool} {f : Nat → Word → Elt} {F : Nat → Elt} {q : Word} (n e : Nat) (acc : Sweep)
    (h : ∀ i, e ≤ i → i < e + n → act i = A i ∧ (A i = true → f i (xorshiftN (i + 1) q) = F i)) :
    sweep w act mz f n e (xorshiftN e q) acc = sweep w A mz (fun i _ => F i) n e (xorshiftN e q) acc := by
  induction n generalizing e acc with
  | zero => rfl
  | succ n ih =>
    obtain ⟨ha, hf⟩ := h e (Nat.le_refl e) (by omega)
    rw [sweep, sweep, ← xorshiftN_succ, ih _ _ fun i hi hn => h i (by omega) (by omega), ha]
    cases hA : A e with
    | false => rfl
    | true => rw [hf hA]

section
variable {w : Nat} {A : Nat → Bool} {mz : Bool} {F : Nat → Elt}

theorem elemAt_sweep (n e : Nat) (x : Word) (acc : Sweep) (h : ∀ i, e ≤ i → i < e + n → A i = true → (F i).out < 2 ^ w) (j : Nat) :
    elemAt w (sweep w A mz (fun i _ => F i) n e x acc).group j =
      if e ≤ j ∧ j < e + n then (if A j then (F j).out else if mz then 0 else elemAt w acc.group j) else elemAt w acc.group j := by
  induction n generalizing e x acc with
  | zero => rw [sweep, if_neg (by omega)]
  | succ n ih =>
    rw [sweep, ih _ _ _ fun i hi hn => h i (by omega) (by omega)]
    have first : elemAt w (if A e then (⟨setElem w acc.group e (F e).out, acc.flags ||| (F e).flags, acc.idz || (F e).idz⟩ : Sweep)
        else if mz then { acc with group := setElem w acc.group e 0 } else acc).group j =
        if j = e then (if A j then (F j).out else if mz then 0 else elemAt w acc.group j) else elemAt w acc.group j := by
      by_cases hA : A e = true
      · rw [if_pos hA, elemAt_setElem (h e (Nat.le_refl e) (by omega) hA)]
        split
        · next hj => rw [hj, if_pos hA]
        · rfl
      · rw [if_neg hA]
        cases mz with
        | true =>
          rw [if_pos rfl, elemAt_setElem (Nat.two_pow_pos w)]
          split
          · next hj => rw [hj, if_neg hA, if_pos rfl]
          · rfl
        | false =>
          rw [if_neg Bool.false_ne_true]
          split
          · next hj => rw [hj, if_neg hA, if_neg Bool.false_ne_true]
          · rfl
    rw [first]
    by_cases hj : j = e
    · rw [if_pos hj, if_neg (show ¬(e + 1 ≤ j ∧ j < e + 1 + n) by omega), if_pos (show e ≤ j ∧ j < e + (n + 1) by omega)]
    · rw [if_neg hj]
      by_cases hr : e ≤ j ∧ j < e + (n + 1)
      · rw [if_pos hr, if_pos (by omega)]
      · rw [if_neg hr, if_neg (by omega)]

theorem sweep_flags (n e : Nat) (x : Word) (acc : Sweep) : (sweep w A mz (fun i _ => F i) n e x acc).flags =
    ((List.range' e n).filter A).foldl (fun a i => a ||| (F i).flags) acc.flags := by
  induction n generalizing e x acc with
  | zero => rfl
  | succ n ih =>
    rw [sweep, ih, List.range'_succ, List.filter_cons]
    cases A e with
    | true => rfl
    | false => cases mz <;> rfl

theorem sweep_idz (n e : Nat) (x : Word) (acc : Sweep) : (sweep w A mz (fun i _ => F i) n e x acc).idz =
    (acc.idz || ((List.range' e n).filter A).any fun i => (F i).idz) := by
  induction n generalizing e x acc with
  | zero => exact (Bool.or_false _).symm
  | succ n ih =>
    rw [sweep, ih, List.range'_succ, List.filter_cons]
    cases A e with
    | true => exact Bool.or_assoc ..
    | false => cases mz <;> rfl

end

/-- The elements from `p` on among the first `n`. -/
theorem filter_range' (p n : Nat) (A : Nat → Bool) :
    (List.range' p (n - p)).filter A = (List.range n).filter fun i => decide (p ≤ i) && A i := by
  induction n with
  | zero => rw [Nat.zero_sub]; rfl
  | succ n ih =>
    rw [List.range_succ, List.filter_append, ← ih]
    by_cases h : p ≤ n
    · rw [Nat.succ_sub h, List.range'_concat, List.filter_append, Nat.one_mul, Nat.add_sub_cancel' h]
      simp only [List.filter_cons, List.filter_nil, h, decide_true, Bool.true_and]
    · simp only [Nat.sub_eq_zero_of_le (show n + 1 ≤ p by omega), Nat.sub_eq_zero_of_le (show n ≤ p by omega), List.range'_zero, List.filter_nil,
        List.filter_cons, h, decide_false, Bool.false_and, List.nil_append, Bool.false_eq_true, if_false]

/-! ## Element-wise forms on a context (06_vector_arithmetic.md R158) -/

/-- The tail of a group whose entry ends at vl. -/
theorem VEntry.elemAt_tailed {e : VEntry} (hlim : e.lim = vlLen e.vl) (w g i : Nat) : elemAt w (e.tailed w g) i =
    if vtTz e.vtype = true ∧ vlLen e.vl ≠ 0 ∧ vlLen e.vl ≤ i ∧ i < vlMax e.vtype then 0 else elemAt w g i := by
  rw [VEntry.tailed, if_neg (by omega), Machine.tailed]
  by_cases h : (vtTz e.vtype && vlLen e.vl != 0) = true
  · rw [if_pos h, elemAt_clearBits]
    rw [Bool.and_eq_true, bne_iff_ne] at h
    simp only [h.1, h.2, ne_eq, not_false_eq_true, true_and]
  · rw [if_neg h, if_neg]
    rw [Bool.and_eq_true, bne_iff_ne] at h
    exact fun hc => h ⟨hc.1, hc.2.1⟩

/-- The elements that an entry computes: from its progress index on, below vl and active. -/
def VEntry.computed (e : VEntry) (A : Nat → Bool) : List Nat := (List.range (vlLen e.vl)).filter fun i => decide (e.pos ≤ i) && A i

/-- What an element-wise entry leaves in a context, where active elements give `F`: its flags merged, the elements written. -/
theorem VEntry.elementwise_spec {e : VEntry} {c : Ctx} {nd w : Nat} {mz : Bool} {act A : Nat → Bool} {f : Nat → Nat → Word → Elt} {F : Nat → Elt}
    (hw : w ∣ 16384) (hlim : e.lim = vlLen e.vl) (hmax : vlMax e.vtype = nd * 16384 / w)
    (hlen : vlLen e.vl ≤ vlMax e.vtype) (hA : ∀ i < vlLen e.vl, act i = A i)
    (hF : ∀ i < vlLen e.vl, A i = true → f i (c.elem e.d.toNat w i) (xorshiftN (i + 1) e.prng) = F i)
    (hlt : ∀ i < vlLen e.vl, A i = true → (F i).out < 2 ^ w) :
    ∃ g, e.elementwise c nd w mz act f =
        (c.setVGroup e.d.toNat nd g).noteFlags ((e.computed A).foldl (fun a i => a ||| (F i).flags) 0#6) ((e.computed A).any fun i => (F i).idz) ∧
      ∀ i < nd * 16384 / w, elemAt w g i =
        if e.pos ≤ i ∧ i < vlLen e.vl then (if A i then (F i).out else if mz then 0 else c.elem e.d.toNat w i)
        else if vtTz e.vtype = true ∧ vlLen e.vl ≠ 0 ∧ vlLen e.vl ≤ i then 0 else c.elem e.d.toNat w i := by
  unfold VEntry.elementwise
  dsimp only
  rw [sweep_congr (A := A) (F := F) _ _ _ fun i hp hn => ⟨hA i (by omega), fun ha => by
    rw [c.elemAt_vGroup hw (by omega)]; exact hF i (by omega) ha⟩]
  generalize hr : sweep w A mz (fun i _ => F i) _ _ _ _ = r
  refine ⟨e.tailed w r.group, ?_, fun i hi => ?_⟩
  · rw [← hr, sweep_flags, sweep_idz, hlim, filter_range', Bool.false_or]
    rfl
  · rw [VEntry.elemAt_tailed hlim, ← hr, elemAt_sweep _ _ _ _ fun i hp hn => hlt i (by omega), c.elemAt_vGroup hw hi, hlim]
    by_cases h : e.pos ≤ i ∧ i < vlLen e.vl
    · rw [if_neg (by omega), if_pos h, if_pos (by omega)]
    · rw [if_neg h, if_neg (show ¬(e.pos ≤ i ∧ i < e.pos + (vlLen e.vl - e.pos)) by omega)]
      simp only [hmax, hi, and_true]

end Sys2Proof.Machine
end

section
/-!
PROOFS. A vector instruction that issues into empty queues (05_lanes.md R143 to R146): its entry runs to its commit at once.
-/

namespace Sys2Proof.Machine

/-! ## Issue into empty queues (05_lanes.md R143 to R146; log 21) -/

theorem State.updCtx_congr {s : State} {f g : Ctx → Ctx} (h : f s.me.ctx = g s.me.ctx) : s.updCtx f = s.updCtx g :=
  congrArg (fun c => ({ s with me := { s.me with ctx := c } } : State)) h

theorem State.updCtx_updCtx (s : State) (f g : Ctx → Ctx) : (s.updCtx f).updCtx g = s.updCtx fun c => g (f c) := rfl

theorem Core.makeRoom_ctx {frames units n : Nat} {k l : Core} (h : Core.makeRoom frames units n k = some l) : l.ctx = k.ctx := by
  induction n generalizing k with
  | zero =>
    rw [Core.makeRoom] at h
    split at h
    · exact Option.some.inj h ▸ rfl
    · cases h
  | succ n ih =>
    rw [Core.makeRoom] at h
    split at h
    · exact Option.some.inj h ▸ rfl
    · split at h
      · cases h
      · next t _ => exact (ih h).trans rfl

/-- A claim that finds room may spill other contexts of the core, and changes nothing else (07_coroutines.md R192). -/
theorem State.claimDirty_room {s s1 : State} {dirty : Word} (h : s.claimDirty dirty = (s1, true)) :
    s1 = { s with me := s1.me } ∧ s1.me.ctx = s.me.ctx := by
  unfold State.claimDirty at h
  dsimp only at h
  split at h
  · cases h; exact ⟨rfl, rfl⟩
  · split at h
    · next k hk => cases h; exact ⟨rfl, Core.makeRoom_ctx hk⟩
    · cases h

/-- Whether an operation's work is its elements alone: it accesses no memory, keeps no shadow and is no marker. -/
def VOp.onlyElements : VOp → Bool
  | .reduce _ _ _ => false
  | .scan _ _ _ => false
  | .topk _ _ => false
  | .load _ _ => false
  | .chase _ _ => false
  | .loadSeg _ _ => false
  | .store _ _ _ => false
  | .atomicAdd _ => false
  | .release => false
  | .shape => false
  | .fenceArrive _ _ _ _ => false
  | .gatherMarker _ _ => false
  | .drained _ => false
  | _ => true

/-- What the queue does with such an entry: it waits for no cell and no stream, its commit runs what it computes, and nothing else follows. -/
theorem VEntry.onlyElements_rules {e : VEntry} (h : e.op.onlyElements = true) :
    e.op.isMemory = false ∧ (∀ v, e.startAfter v = v) ∧ (∀ s, State.vRetire s e = s) ∧
      (∀ s : State, s.me.ctx.mq = [] → s.vWaits e = false) ∧ e.idle = (decide (e.pos ≠ 0) && decide (vlLen e.vl ≤ e.pos)) ∧
      (e.pins = 0#64 ∧ e.statusPins = 0#64 → vlLen e.vl ≤ e.lim → ∀ s, State.vFinish s e = s.updCtx e.compute) := by
  obtain ⟨op⟩ := e
  cases op <;> first
    | exact absurd h Bool.false_ne_true
    | exact ⟨rfl, fun _ => rfl, fun _ => rfl, fun s hm => by rw [State.vWaits, hm]; rfl, Bool.and_true _,
        fun hp hl s => (if_neg (Nat.not_lt.mpr hl)).trans (congrArg s.updCtx (funext fun _ => if_pos hp))⟩

/-- The entry as it commits: its predicate mask taken, its elements run to vl. -/
def VEntry.atCommit (e : VEntry) (c : Ctx) : VEntry := { e.masked c with lim := vlLen e.vl, finished := true }

/-- A context whose queue holds no entry any more. -/
def Ctx.settled (c : Ctx) : Ctx := { c with vq := [], vstart := 0#16 }

/-- A context once an entry at its commit, the only one of its queue, has committed: nothing is computed where the entry began at or above
a vl that is not 0 (05_lanes.md R132). -/
def Ctx.committed (c : Ctx) (e : VEntry) : Ctx :=
  if vlLen e.vl ≠ 0 ∧ vlLen e.vl ≤ e.pos then c.settled else (e.compute c).settled

/-- The commit of a finished entry that is the queue's only one. -/
theorem State.vCommit_eq {s : State} {e : VEntry} (hop : e.op.onlyElements = true) (hq : s.me.ctx.vq = [e]) (hm : s.me.ctx.mq = [])
    (hf : e.finished = true) : s.vCommit = (s.vFinish e).setQueue [] 0 := by
  obtain ⟨-, hstart, hretire, hwaits, -, -⟩ := VEntry.onlyElements_rules hop
  rw [State.vCommit, hq]
  dsimp only
  rw [hf, hwaits s hm, Bool.not_false, Bool.and_true, if_pos rfl, hretire, hstart]

/-- The only entry of the queues runs to its end: nothing is left of it but its commit. -/
theorem State.vAdvance_eq {s : State} {e : VEntry} (hop : e.op.onlyElements = true) (hq : s.me.ctx.vq = [e]) (hm : s.me.ctx.mq = [])
    (hf : e.finished = false) : (s.vAdvance fun e => vlLen e.vl) =
      s.setQueue [if vlLen e.vl ≠ 0 ∧ vlLen e.vl ≤ e.pos then { e.atCommit s.me.ctx with lim := 0 } else e.atCommit s.me.ctx] e.pos := by
  obtain ⟨hmem, -, -, hwaits, -, -⟩ := VEntry.onlyElements_rules hop
  obtain ⟨-, -, -, -, hidle, -⟩ := VEntry.onlyElements_rules (e := { e.masked s.me.ctx with lim := vlLen e.vl }) hop
  have hmatrix : s.me.ctx.behindMatrix e = false := by rw [Ctx.behindMatrix, hm]; rfl
  rw [State.vAdvance, hq]
  dsimp only
  rw [hf, hmatrix, hwaits s hm, hidle]
  dsimp only [VEntry.masked]
  by_cases h : vlLen e.vl ≤ e.pos
  · by_cases h0 : vlLen e.vl = 0
    · rw [if_neg (show ¬(vlLen e.vl ≠ 0 ∧ vlLen e.vl ≤ e.pos) from fun hc => hc.1 h0)]
      by_cases hp : e.pos = 0
      · simp [hp, hmem, VEntry.atCommit, VEntry.masked]
      · simp [hp, h0, VEntry.atCommit, VEntry.masked]
    · rw [if_pos (show vlLen e.vl ≠ 0 ∧ vlLen e.vl ≤ e.pos from ⟨h0, h⟩)]
      simp [show e.pos ≠ 0 by omega, h, VEntry.atCommit, VEntry.masked]
  · rw [if_neg (show ¬(vlLen e.vl ≠ 0 ∧ vlLen e.vl ≤ e.pos) from fun hc => h hc.2)]
    simp [h, hmem, VEntry.atCommit, VEntry.masked]

/-- The only entry of the queues runs to its commit. -/
theorem State.vRun_eq {s : State} {e : VEntry} (hop : e.op.onlyElements = true) (hq : s.me.ctx.vq = [e]) (hm : s.me.ctx.mq = [])
    (hf : e.finished = false) (hp : e.pins = 0#64 ∧ e.statusPins = 0#64) (hs : s.me.ctx.vstart = BitVec.ofNat 16 e.pos) :
    s.vRun = s.updCtx fun c => Ctx.committed { c with vq := [e.atCommit c] } (e.atCommit c) := by
  have commit (k : VEntry) (hk : k.op.onlyElements = true) (hkf : k.finished = true) :
      (s.setQueue [k] e.pos).vCommit = ((s.setQueue [k] e.pos).vFinish k).setQueue [] 0 := State.vCommit_eq hk rfl hm hkf
  rw [State.vRun, State.vAdvance_eq hop hq hm hf]
  by_cases h : vlLen e.vl ≠ 0 ∧ vlLen e.vl ≤ e.pos
  · have nothing : ∀ t : State, t.vFinish { e.atCommit s.me.ctx with lim := 0 } = t := fun t => if_pos (Nat.pos_of_ne_zero h.1)
    rw [if_pos h, commit { e.atCommit s.me.ctx with lim := 0 } hop rfl, nothing]
    exact congrArg (fun k => ({ s with me := { s.me with ctx := k } } : State)) (if_pos h).symm
  · obtain ⟨-, -, -, -, -, hfinish⟩ := VEntry.onlyElements_rules (e := e.atCommit s.me.ctx) hop
    have queued : s.setQueue [e.atCommit s.me.ctx] e.pos = s.updCtx fun c => { c with vq := [e.atCommit s.me.ctx] } := by
      rw [State.setQueue, ← hs]
      rfl
    rw [if_neg h, commit (e.atCommit s.me.ctx) hop rfl, hfinish hp (Nat.le_refl _), queued]
    exact congrArg (fun k => ({ s with me := { s.me with ctx := k } } : State)) (if_neg h).symm

/-- What ldst holds once an instruction has issued (02_encoding.md R49). -/
def Names.ldst (n : Names) (old : BitVec 6) : BitVec 6 :=
  match n with
  | .none => old
  | .v r => 1#1 ++ r
  | .x r => 0#1 ++ r

/-- The context that an instruction leaves as it issues into empty queues (05_lanes.md R134, R143). -/
def Ctx.issued (c : Ctx) (q : List VEntry) (len : Nat) (dirty : Word) (names : Names) (draws : Bool) : Ctx :=
  { c with
    pc := c.pc + BitVec.ofNat 19 len, vdirty := c.vdirty ||| dirty, ldst := names.ldst c.ldst, vq := q
    prng := if draws && decide (fcrRm c.fcr = 5) then xorshiftN (vlLen c.vl) c.prng else c.prng }

/-- An instruction that enters empty queues runs as it enters, where the lanes keep up. -/
theorem State.enqueue_eq {s : State} (hk : s.Keeps) (e : VEntry) (len : Nat) (dirty : Word) (names : Names) (draws : Bool) :
    s.enqueue e len dirty names draws = (s.updCtx fun c => c.issued [{ e with dirty := dirty }] len dirty names draws).vRun := by
  obtain ⟨hq, hm, hlag⟩ := hk
  have frame : s.me.ctx.hasFrame = false := by rw [Ctx.hasFrame, hq, hm]; rfl
  have marked : (s.me.ctx.mark dirty).vq = [] := by rw [Ctx.mark, hq]; rfl
  have drawn : s.me.ctx.vDrawn draws = { s.me.ctx with
      prng := if draws && decide (fcrRm s.me.ctx.fcr = 5) then xorshiftN (vlLen s.me.ctx.vl) s.me.ctx.prng else s.me.ctx.prng } := by
    unfold Ctx.vDrawn
    rw [Bool.beq_eq_decide_eq]
    split <;> rfl
  have entered : (s.updCtx fun c => { ((c.vDrawn draws).name names).mark dirty with vq := (c.mark dirty).vq ++ [{ e with dirty := dirty }] }) =
      s.updCtx fun c => { c.issued [{ e with dirty := dirty }] len dirty names draws with pc := c.pc } := by
    apply State.updCtx_congr
    rw [marked, drawn]
    cases names <;> rfl
  rw [State.enqueue, frame, hlag, entered]
  unfold State.adv State.setPc State.updCtx
  dsimp only
  rw [hlag]
  rfl

/-- The entry of an instruction that issued in `s`, at its commit. -/
structure VEntry.Captures (e : VEntry) (s : State) (op : VOp) (d a : BitVec 5) (b : VSrc) (p : BitVec 4) : Prop where
  op : e.op = op
  d : e.d = d
  a : e.a = a
  b : e.b = b
  vl : e.vl = s.me.ctx.vl
  vtype : e.vtype = s.me.ctx.vtype
  fcr : e.fcr = s.me.ctx.fcr
  prng : e.prng = s.me.ctx.prng
  pos : e.pos = s.me.ctx.vstart.toNat
  lim : e.lim = vlLen s.me.ctx.vl
  active : ∀ c, ∀ i < vlMax s.me.ctx.vtype, e.active c i = s.me.ctx.activeAt p i

theorem predBit_eq_activeAt {c : Ctx} {vt : Word} {p : BitVec 4} {i : Nat} (hi : i < maskRegs vt * 2048) :
    predBit p (c.predMask vt p) i = c.activeAt p i := by
  unfold predBit Ctx.activeAt Ctx.predMask
  by_cases hp : p = 0#4
  · rw [hp]; rfl
  · rw [if_neg hp, c.testBit_mGroup hi, Bool.beq_eq_decide_eq, Bool.beq_eq_decide_eq]

/-- An instruction that may issue and works on elements alone leaves the context that its entry, at its commit, makes of the one it issued
into; another context of the core may have been spilled for its claim. -/
theorem State.vIssue_eq {s s1 : State} {op : VOp} {d a : BitVec 5} {b : VSrc} {p : BitVec 4} {len : Nat} {legal : Bool} {dirty : Word}
    {names : Names} {draws : Bool} (hop : op.onlyElements = true) (h : VIssues s legal dirty s1) :
    ∃ e, e.Captures s op d a b p ∧ s.vIssue (s.capture op d a b p) len legal dirty names draws =
      s1.updCtx fun _ => (s.me.ctx.issued [e] len dirty names draws).committed e := by
  obtain ⟨hon, hshape, hlegal, ⟨hq, hm, hlag⟩, hclaim⟩ := h
  obtain ⟨hs1, hctx⟩ := State.claimDirty_room hclaim
  have hkeeps : s1.Keeps := ⟨by rw [hctx, hq], by rw [hctx, hm], by rw [hs1]; exact hlag⟩
  have hpos : (s.capture op d a b p).pos = s.me.ctx.vstart.toNat := by
    unfold State.capture
    dsimp only
    rw [hq]
    rfl
  let e0 : VEntry := { s.capture op d a b p with dirty := dirty }
  let c0 : Ctx := s.me.ctx.issued [e0] len dirty names draws
  refine ⟨e0.atCommit c0, ⟨rfl, rfl, rfl, rfl, rfl, rfl, rfl, rfl, hpos, rfl, fun c i hi => ?_⟩, ?_⟩
  · have : (e0.atCommit c0).active c i = predBit p (0 ||| c0.predMask s.me.ctx.vtype p) i := rfl
    rw [this, Nat.zero_or, predBit_eq_activeAt (Nat.lt_of_lt_of_le hi (vlMax_le_maskRegs _))]
    rfl
  · rw [State.vIssue, if_neg (by rw [hon]; exact Bool.false_ne_true), hshape, hlegal, if_neg (by decide), hclaim]
    dsimp only
    rw [State.enqueue_eq hkeeps]
    have hrun := State.vRun_eq (s := s1.updCtx fun c => c.issued [e0] len dirty names draws) (e := e0) hop rfl
      ((congrArg Ctx.mq hctx).trans hm) rfl ⟨rfl, rfl⟩ (by
        rw [show e0.pos = _ from hpos, BitVec.ofNat_toNat, BitVec.setWidth_eq]
        exact (congrArg Ctx.vstart hctx :))
    rw [hrun, State.updCtx_updCtx]
    apply State.updCtx_congr
    rw [hctx]
    rfl

end Sys2Proof.Machine
end

section
/-!
PROOFS. What an element-wise instruction writes, from its issue to its commit (05_lanes.md R132, R140, 06_vector_arithmetic.md R158).
-/

namespace Sys2Proof.Machine

/-! ## What an element-wise form writes (06_vector_arithmetic.md R158) -/

theorem fcrMerge_eq (fcr : Word) (f : FFlags) : fcrMerge fcr f = fcr ||| BitVec.ofNat 64 (f.toNat * 2 ^ 16) := by
  rw [fcrMerge, shiftLeft_eq_ofNat, BitVec.toNat_setWidth_of_le (by decide)]

theorem fcrMerge_zero (fcr : Word) : fcrMerge fcr 0#6 = fcr := by
  rw [fcrMerge_eq]
  exact BitVec.or_zero

/-- What a sweep writes into element `i`, if anything: an active element its result, an inactive one zero where `mz` says so, and zero in a
tail that tz clears. -/
def Ctx.sweepRule (c : Ctx) (mz : Bool) (A : Nat → Bool) (out : Nat → Nat) (i : Nat) : Option Nat :=
  if decide (c.vstart.toNat ≤ i) && decide (i < vlLen c.vl) then (if A i then some (out i) else if mz then some 0 else none)
  else if c.clears i then some 0 else none

/-- The elements that a sweep computes: from vstart on, below vl and active. -/
def Ctx.swept (c : Ctx) (A : Nat → Bool) : List Nat := (List.range (vlLen c.vl)).filter fun i => decide (c.vstart.toNat ≤ i) && A i

theorem Ctx.clears_of_lt {c : Ctx} {i : Nat} (h : i < vlLen c.vl) : c.clears i = false := by
  rw [Ctx.clears, decide_eq_false (Nat.not_le.mpr h), Bool.and_false, Bool.false_and]

/-- Nothing is written by a form that begins at or above vl (05_lanes.md R132). -/
theorem Ctx.sweepRule_idle {c : Ctx} (h : vlLen c.vl ≤ c.vstart.toNat) (mz : Bool) (A : Nat → Bool) (out : Nat → Nat) (i : Nat) :
    c.sweepRule mz A out i = none := by
  have hclears : c.clears i = false := by rw [Ctx.clears, decide_eq_false (Nat.not_lt.mpr h), Bool.and_false, Bool.false_and, Bool.false_and]
  rw [Ctx.sweepRule, if_neg (by rw [← Bool.decide_and, decide_eq_true_eq]; omega), hclears]
  rfl

/-- Element `i` after a sweep that runs. -/
theorem Ctx.sweepRule_getD {c : Ctx} (h : ¬(vlLen c.vl ≠ 0 ∧ vlLen c.vl ≤ c.vstart.toNat)) {i : Nat} (hi : i < vlMax c.vtype) (mz : Bool)
    (A : Nat → Bool) (out : Nat → Nat) (old : Nat) :
    (if c.vstart.toNat ≤ i ∧ i < vlLen c.vl then (if A i then out i else if mz then 0 else old)
      else if vtTz c.vtype = true ∧ vlLen c.vl ≠ 0 ∧ vlLen c.vl ≤ i then 0 else old) = (c.sweepRule mz A out i).getD old := by
  rw [Ctx.sweepRule, ← Bool.decide_and]
  by_cases hr : c.vstart.toNat ≤ i ∧ i < vlLen c.vl
  · rw [if_pos hr, if_pos (decide_eq_true hr)]
    cases A i <;> cases mz <;> rfl
  · have hclears : c.clears i = true ↔ vtTz c.vtype = true ∧ vlLen c.vl ≠ 0 ∧ vlLen c.vl ≤ i := by
      simp only [Ctx.clears, Bool.and_eq_true, decide_eq_true_eq]
      constructor
      · rintro ⟨⟨⟨ht, hv⟩, hl⟩, -⟩
        exact ⟨ht, by omega, hl⟩
      · rintro ⟨ht, h0, hl⟩
        exact ⟨⟨⟨ht, by omega⟩, hl⟩, hi⟩
    rw [if_neg hr, if_neg fun hc => hr (of_decide_eq_true hc)]
    simp only [hclears]
    split <;> rfl

theorem Ctx.swept_idle {c : Ctx} (h : vlLen c.vl ≤ c.vstart.toNat) (A : Nat → Bool) : c.swept A = [] :=
  List.filter_eq_nil_iff.mpr fun i hi => by
    rw [decide_eq_false (by have := List.mem_range.mp hi; omega), Bool.false_and]
    exact Bool.false_ne_true

/-- The element-wise rule of the statements is a sweep over the active elements. -/
theorem Ctx.rule_eq (c : Ctx) (p : BitVec 4) (out : Nat → Nat) : c.rule p out = c.sweepRule (vtMz c.vtype) (c.activeAt p) out := by
  funext i
  rw [Ctx.rule, Ctx.sweepRule, Ctx.computes]
  by_cases h : (decide (c.vstart.toNat ≤ i) && decide (i < vlLen c.vl)) = true
  · rw [if_pos h, h, Ctx.clears_of_lt (by rw [Bool.and_eq_true, decide_eq_true_eq, decide_eq_true_eq] at h; exact h.2)]
    rfl
  · rw [if_neg h, Bool.eq_false_iff.mpr h]
    rfl

theorem Ctx.swept_eq (c : Ctx) (p : BitVec 4) : c.swept (c.activeAt p) = (List.range (vlLen c.vl)).filter (c.computes p) :=
  List.filter_congr fun i hi => by rw [Ctx.computes, decide_eq_true (List.mem_range.mp hi), Bool.and_true]

theorem Ctx.raised_eq (c : Ctx) (p : BitVec 4) (flags : Nat → FFlags) :
    c.raised p flags = (c.swept (c.activeAt p)).foldl (fun a i => a ||| flags i) 0#6 := by rw [c.swept_eq, Ctx.raised]

/-- An operation of this instruction sweeps its destination: on what the registers hold as it issues, its active elements are `A` and give
`F`. -/
def State.Sweeps (s : State) (op : VOp) (d a : BitVec 5) (b : VSrc) (p : BitVec 4) (nd w : Nat) (mz : Bool) (A : Nat → Bool) (F : Nat → Elt) :
    Prop :=
  ∀ e c, VEntry.Captures e s op d a b p → c.v = s.me.ctx.v → c.m = s.me.ctx.m →
    ∃ act f, e.compute c = e.elementwise c nd w mz act f ∧ ∀ i < vlLen s.me.ctx.vl, act i = A i ∧
      (A i = true → f i (s.me.ctx.elem d.toNat w i) (xorshiftN (i + 1) s.me.ctx.prng) = F i ∧ (F i).out < 2 ^ w)

/-- A context that issue and a commit leave differs from the one before as the statements say: in registers v and m and status, and in what
every vector instruction changes. -/
theorem onlyVector_settled {s : State} (s1 : State) (hq : s.me.ctx.vq = []) (q : List VEntry) (len : Nat) (dirty : Word) (names : Names)
    (draws : Bool)
    (flags : FFlags) (v : Vector (BitVec 16384) 32) (m : Vector (BitVec 2048) 8) (status : Word) :
    OnlyVector (s.updCtx fun k => { k with m := m, status := status }) s1
      (s1.updCtx fun _ => Ctx.settled { s.me.ctx.issued q len dirty names draws with
        v := v, m := m, status := status, fcr := fcrMerge s.me.ctx.fcr flags }) len dirty (names.ldst s.me.ctx.ldst) flags draws := by
  refine ⟨rfl, ?_⟩
  rw [fcrMerge_eq]
  unfold Ctx.settled
  rw [← hq]
  rfl

/-- An instruction that issues and works on elements alone: where `P` holds of the registers, status and flags that its entry computes, or of
the old ones where it began at or above vl (05_lanes.md R132), it holds of those left behind, and nothing else changes but what every vector
instruction changes. -/
theorem exec_commits {i : Instr} {s s1 : State} {op : VOp} {d a : BitVec 5} {b : VSrc} {p : BitVec 4} {len : Nat} {legal draws : Bool} {dirty : Word}
    {names : Names} {P : Vector (BitVec 16384) 32 → Vector (BitVec 2048) 8 → Word → FFlags → Prop}
    (he : exec i s = .next (s.vIssue (s.capture op d a b p) len legal dirty names draws)) (hop : op.onlyElements = true)
    (h : VIssues s legal dirty s1)
    (hidle : vlLen s.me.ctx.vl ≤ s.me.ctx.vstart.toNat → P s.me.ctx.v s.me.ctx.m s.me.ctx.status 0#6)
    (hrun : ¬(vlLen s.me.ctx.vl ≠ 0 ∧ vlLen s.me.ctx.vl ≤ s.me.ctx.vstart.toNat) → ∀ e c, VEntry.Captures e s op d a b p → c.v = s.me.ctx.v →
      c.m = s.me.ctx.m → c.status = s.me.ctx.status → ∃ v m status flags,
        e.compute c = { c with v := v, m := m, status := status, fcr := fcrMerge c.fcr flags } ∧ P v m status flags) :
    ∃ t flags, exec i s = .next t ∧
      OnlyVector (s.updCtx fun k => { k with m := t.me.ctx.m, status := t.me.ctx.status }) s1 t len dirty (names.ldst s.me.ctx.ldst) flags draws ∧
      P t.me.ctx.v t.me.ctx.m t.me.ctx.status flags := by
  obtain ⟨-, -, -, ⟨hq, -, -⟩, -⟩ := id h
  obtain ⟨e, hcap, hv⟩ := State.vIssue_eq (op := op) (d := d) (a := a) (b := b) (p := p) (len := len) (names := names) (draws := draws) hop h
  by_cases hi : vlLen s.me.ctx.vl ≠ 0 ∧ vlLen s.me.ctx.vl ≤ s.me.ctx.vstart.toNat
  · have hc : (s.me.ctx.issued [e] len dirty names draws).committed e = (s.me.ctx.issued [e] len dirty names draws).settled :=
      if_pos (by rw [hcap.vl, hcap.pos]; exact hi)
    rw [hc] at hv
    have only := onlyVector_settled s1 hq [e] len dirty names draws 0#6 s.me.ctx.v s.me.ctx.m s.me.ctx.status
    rw [fcrMerge_zero] at only
    exact ⟨_, 0#6, he.trans (congrArg Host.Outcome.next hv), only, hidle hi.2⟩
  · have hc : (s.me.ctx.issued [e] len dirty names draws).committed e = Ctx.settled (e.compute _) :=
      if_neg (by rw [hcap.vl, hcap.pos]; exact hi)
    obtain ⟨v, m, status, flags, hcompute, hP⟩ := hrun hi e (s.me.ctx.issued [e] len dirty names draws) hcap rfl rfl rfl
    rw [hc, hcompute] at hv
    exact ⟨_, flags, he.trans (congrArg Host.Outcome.next hv), onlyVector_settled s1 hq [e] len dirty names draws flags v m status, hP⟩

/-- What a group of vector registers reads once `rule` has written them, and what the registers around it keep. -/
def GroupWritten (c : Ctx) (d n w : Nat) (rule : Nat → Option Nat) (v : Vector (BitVec 16384) 32) : Prop :=
  (∀ r : Fin 32, r.val < d ∨ d + n ≤ r.val → v[r] = c.v[r]) ∧
    ∀ i, i < n * 16384 / w → ({ c with v := v } : Ctx).elem d w i = (rule i).getD (c.elem d w i)

theorem GroupWritten.none {c : Ctx} {d n w : Nat} {rule : Nat → Option Nat} (h : ∀ i, rule i = none) : GroupWritten c d n w rule c.v :=
  ⟨fun _ _ => rfl, fun i _ => by rw [h]; rfl⟩

theorem GroupWritten.elements {s t : State} {d n w : Nat} {rule : Nat → Option Nat} (h : GroupWritten s.me.ctx d n w rule t.me.ctx.v) :
    Elements s t d n w rule := h

/-- A group is written by the number that holds its elements. -/
theorem GroupWritten.setRegs {c : Ctx} {d n w g : Nat} {rule : Nat → Option Nat} {v : Vector (BitVec 16384) 32} (hv : v = c.v) (hw : w ∣ 16384)
    (hd : d + n ≤ 32) (h : ∀ i < n * 16384 / w, elemAt w g i = (rule i).getD (c.elem d w i)) :
    GroupWritten c d n w rule (setRegs (by decide) v d n g) := by
  subst hv
  refine ⟨fun r hr => ?_, fun i hi => ?_⟩
  · have outside := c.setVGroup_v_outside (g := g) hd r hr
    rwa [Ctx.setVGroup_eq] at outside
  · have written := c.elem_setVGroup (g := g) hw hd hi
    rw [Ctx.setVGroup_eq] at written
    exact written.trans (h i hi)

/-- An element-wise instruction that issues writes its elements, raises its flags and moves on. -/
theorem exec_sweeps {i : Instr} {s s1 : State} {op : VOp} {d a : BitVec 5} {b : VSrc} {p : BitVec 4} {len nd w : Nat} {legal draws mz : Bool}
    {A : Nat → Bool} {F : Nat → Elt}
    (he : exec i s = .next (s.vIssue (s.capture op d a b p) len legal (vBits d nd) (.v d) draws)) (hop : op.onlyElements = true)
    (hgroup : groupOk d nd = true) (hw : w ∣ 16384) (hmax : vlMax s.me.ctx.vtype = nd * 16384 / w)
    (hsweep : s.Sweeps op d a b p nd w mz A F) (h : VIssues s legal (vBits d nd) s1) :
    ∃ t, exec i s = .next t ∧
      OnlyVector (s.updCtx fun k => { k with status := if (s.me.ctx.swept A).any fun i => (F i).idz then k.status ||| 1#64 else k.status }) s1 t len
        (vBits d nd) (1#1 ++ d) ((s.me.ctx.swept A).foldl (fun a i => a ||| (F i).flags) 0#6) draws ∧
      Elements s t d.toNat nd w (s.me.ctx.sweepRule mz A fun i => (F i).out) := by
  obtain ⟨-, hshape, -⟩ := id h
  have hlen := vlLen_le_vlMax hshape
  obtain ⟨t, flags, ht, only, hm, hstatus, rfl, helem⟩ := exec_commits (P := fun v m status flags => m = s.me.ctx.m ∧
      status = (if (s.me.ctx.swept A).any fun i => (F i).idz then s.me.ctx.status ||| 1#64 else s.me.ctx.status) ∧
      flags = (s.me.ctx.swept A).foldl (fun a i => a ||| (F i).flags) 0#6 ∧
      GroupWritten s.me.ctx d.toNat nd w (s.me.ctx.sweepRule mz A fun i => (F i).out) v) he hop h
    (fun hidle => by
      rw [Ctx.swept_idle hidle]
      exact ⟨rfl, rfl, rfl, .none fun i => Ctx.sweepRule_idle hidle mz A _ i⟩)
    (fun hrun e c hcap hv hm hstatus => by
      obtain ⟨act, f, hcompute, hresult⟩ := hsweep e c hcap hv hm
      have helem (i : Nat) : c.elem d.toNat w i = s.me.ctx.elem d.toNat w i := by rw [Ctx.elem, hv, ← Ctx.elem]
      obtain ⟨g, heq, hg⟩ := VEntry.elementwise_spec (e := e) (c := c) (nd := nd) (mz := mz) (act := act) (A := A) (f := f) (F := F) hw
        (by rw [hcap.lim, hcap.vl]) (by rw [hcap.vtype, hmax]) (by rw [hcap.vl, hcap.vtype]; exact hlen)
        (fun i hi => (hresult i (by rwa [hcap.vl] at hi)).1)
        (fun i hi hA => by
          rw [hcap.vl] at hi
          rw [hcap.d, hcap.prng, helem]
          exact ((hresult i hi).2 hA).1)
        (fun i hi hA => ((hresult i (by rwa [hcap.vl] at hi)).2 hA).2)
      have hswept : e.computed A = s.me.ctx.swept A := by rw [VEntry.computed, hcap.vl, hcap.pos, Ctx.swept]
      rw [hswept, hcap.d, Ctx.setVGroup_eq] at heq
      refine ⟨_, c.m, _, _, hcompute.trans heq, hm, by rw [hstatus]; rfl, rfl, .setRegs hv hw (groupOk_add_le hgroup) fun i hi => ?_⟩
      rw [hg i hi, hcap.d, hcap.pos, hcap.vl, hcap.vtype, helem]
      exact Ctx.sweepRule_getD hrun (by rw [hmax]; exact hi) mz A (fun i => (F i).out) (s.me.ctx.elem d.toNat w i))
  rw [hm, hstatus] at only
  exact ⟨t, ht, only, helem.elements⟩

end Sys2Proof.Machine
end

section
/-!
PROOFS. Element-wise instructions as the statements put them: where they stop, what their operands are, and what they write.
-/

namespace Sys2Proof.Machine

/-! ## Where a vector instruction may not issue (05_lanes.md R129, R135) -/

theorem vStops_of_vIssue {i : Instr} {s : State} {e : VEntry} {len : Nat} {legal : Bool} {dirty : Word} {names : Names} {draws : Bool}
    (he : exec i s = .next (s.vIssue e len legal dirty names draws)) : VStops s i legal := by
  refine ⟨fun h => ?_, fun h hbad => ?_⟩
  · rw [he, State.vIssue, if_pos h]
    rfl
  · have refuse : (!(shapeOk s.me.ctx.vl s.me.ctx.vtype && legal)) = true := by
      rw [Bool.not_eq_true', Bool.and_eq_false_iff]
      exact hbad
    rw [he, State.vIssue, if_neg (by rw [h]; exact Bool.false_ne_true), if_pos refuse]
    rfl

/-! ## What an entry reads (06_vector_arithmetic.md R156) -/

theorem Ctx.elem_congr {c k : Ctx} (h : c.v = k.v) (base w i : Nat) : c.elem base w i = k.elem base w i := by
  rw [Ctx.elem, h, ← Ctx.elem]

section
variable {e : VEntry} {s : State} {op : VOp} {d a : BitVec 5} {b : VSrc} {p : BitVec 4} (hcap : e.Captures s op d a b p) {c : Ctx}
  (hv : c.v = s.me.ctx.v) {w n i : Nat} (hw : w ∣ 16384) (hi : i < n * 16384 / w)
include hcap hv hw hi

theorem VEntry.Captures.elemAt_a : elemAt w (c.vGroup e.a.toNat n) i = s.me.ctx.elem a.toNat w i := by
  rw [c.elemAt_vGroup hw hi, hcap.a, Ctx.elem_congr hv]

theorem VEntry.Captures.bElem : e.bElem c n w i = b.at s.me.ctx w i := by
  unfold VEntry.bElem
  rw [hcap.b]
  cases b with
  | reg r => exact (c.elemAt_vGroup hw hi).trans (Ctx.elem_congr hv _ _ _)
  | scalar x => rfl

end

/-- A form with one operation of the elements A, B and D sweeps its destination with it. -/
theorem State.sweeps_plain {s : State} {op : VOp} {d a : BitVec 5} {b : VSrc} {p : BitVec 4} {f : VEntry → Nat → Nat → Nat → Word → Elt} {F : Nat →
    Elt}
    (hlen : vlLen s.me.ctx.vl ≤ vlMax s.me.ctx.vtype) (hcompute : ∀ e c, VEntry.Captures e s op d a b p → e.compute c = e.plain c (f e))
    (hF : ∀ e, VEntry.Captures e s op d a b p → ∀ i < vlLen s.me.ctx.vl,
      f e (s.me.ctx.elem a.toNat (vtW s.me.ctx.vtype) i) (b.at s.me.ctx (vtW s.me.ctx.vtype) i) (s.me.ctx.elem d.toNat (vtW s.me.ctx.vtype) i)
        (xorshiftN (i + 1) s.me.ctx.prng) = F i ∧ (F i).out < 2 ^ vtW s.me.ctx.vtype) :
    s.Sweeps op d a b p (vtN s.me.ctx.vtype) (vtW s.me.ctx.vtype) (vtMz s.me.ctx.vtype) (s.me.ctx.activeAt p) F := by
  intro e c hcap hv _
  refine ⟨_, _, (hcompute e c hcap).trans (by rw [VEntry.plain, hcap.vtype]), fun i hi => ?_⟩
  have hmax : i < vlMax s.me.ctx.vtype := Nat.lt_of_lt_of_le hi hlen
  have hgroup : i < vtN s.me.ctx.vtype * 16384 / vtW s.me.ctx.vtype := vlMax_eq _ ▸ hmax
  refine ⟨hcap.active c i hmax, fun _ => ?_⟩
  rw [hcap.elemAt_a hv (vtW_dvd _) hgroup, hcap.bElem hv (vtW_dvd _) hgroup]
  exact hF e hcap i hi

/-- What the statements say of an instruction with a vector destination: where it may not issue it traps, and else it writes what `rule` says
into its destination, merges its flags and moves on. -/
def VActs (s s1 : State) (i : Instr) (legal : Bool) (len : Nat) (d : BitVec 5) (nd w : Nat) (flags : FFlags) (draws : Bool)
    (rule : Nat → Option Nat) : Prop :=
  VStops s i legal ∧ (VIssues s legal (vBits d nd) s1 → ∃ t, exec i s = .next t ∧
    OnlyVector s s1 t len (vBits d nd) (1#1 ++ d) flags draws ∧ Elements s t d.toNat nd w rule)

/-- A sweep that divides nothing acts as the statements say. -/
theorem vActs_of_sweeps {i : Instr} {s : State} (s1 : State) {op : VOp} {d a : BitVec 5} {b : VSrc} {p : BitVec 4} {len nd w : Nat}
    {legal draws drawn mz : Bool} {A : Nat → Bool} {F : Nat → Elt}
    (he : exec i s = .next (s.vIssue (s.capture op d a b p) len legal (vBits d nd) (.v d) draws)) (hop : op.onlyElements = true)
    (hdraws : legal = true → draws = drawn) (hgroup : legal = true → groupOk d nd = true) (hw : w ∣ 16384)
    (hmax : vlMax s.me.ctx.vtype = nd * 16384 / w)
    (hsweep : legal = true → vlLen s.me.ctx.vl ≤ vlMax s.me.ctx.vtype → s.Sweeps op d a b p nd w mz A F) (hidz : ∀ i, (F i).idz = false) :
    VActs s s1 i legal len d nd w ((s.me.ctx.swept A).foldl (fun a i => a ||| (F i).flags) 0#6) drawn
      (s.me.ctx.sweepRule mz A fun i => (F i).out) := by
  refine ⟨vStops_of_vIssue he, fun h => ?_⟩
  obtain ⟨-, hshape, hlegal, -, -⟩ := id h
  have hnone : ((s.me.ctx.swept A).any fun i => (F i).idz) = false := by
    simp only [hidz]
    exact List.any_eq_false.mpr fun _ _ => Bool.false_ne_true
  have hexec := exec_sweeps he hop (hgroup hlegal) hw hmax (hsweep hlegal (vlLen_le_vlMax hshape)) h
  rw [hnone, hdraws hlegal] at hexec
  exact hexec

theorem foldl_noFlags (l : List Nat) : l.foldl (fun (a : FFlags) _ => a ||| 0#6) 0#6 = 0#6 := by
  induction l with
  | nil => rfl
  | cons i l ih => exact ih

theorem plainOk_group {vt : Word} {d a : BitVec 5} {b : VSrc} {p : BitVec 4} (h : plainOk vt d a b p = true) : groupOk d (vtN vt) = true := by
  simp only [plainOk, Bool.and_eq_true] at h
  exact h.1.1.1.1

/-- An element-wise form whose results raise nothing. -/
theorem vPlain_quiet {i : Instr} {s : State} (s1 : State) {op : VOp} {types : Nat → Bool} {len : Nat} {d a : BitVec 5} {b : VSrc} {p : BitVec 4}
    {out : Nat → Nat} (he : exec i s = .next (s.vPlain op types false len d a b p)) (hop : op.onlyElements = true)
    (hsweep : vlLen s.me.ctx.vl ≤ vlMax s.me.ctx.vtype → s.Sweeps op d a b p (vtN s.me.ctx.vtype) (vtW s.me.ctx.vtype) (vtMz s.me.ctx.vtype)
      (s.me.ctx.activeAt p) fun i => quietElt (out i)) :
    VActs s s1 i (types (vtEt s.me.ctx.vtype) && plainOk s.me.ctx.vtype d a b p) len d (vtN s.me.ctx.vtype) (vtW s.me.ctx.vtype) 0#6 false
      (s.me.ctx.rule p out) := by
  have acts := vActs_of_sweeps s1 he hop (fun _ => rfl) (fun h => plainOk_group (Bool.and_eq_true_iff.mp h).2) (vtW_dvd _) (vlMax_eq _)
      (fun _ => hsweep) fun _ => rfl
  rw [Ctx.rule_eq, ← foldl_noFlags (s.me.ctx.swept (s.me.ctx.activeAt p))]
  exact acts

end Sys2Proof.Machine
end

section
/-!
PROOFS. The integer vector operations and divisions (06_vector_arithmetic.md Table 6.5, R162, R163), with their compact forms.
-/

namespace Sys2Proof.Machine

/-! ## Integers of `w` bits (06_vector_arithmetic.md R162 to R165) -/

theorem natCast_two_pow (w : Nat) : ((2 ^ w : Nat) : Int) = 2 ^ w := Int.natCast_pow 2 w

theorem wrap_lt (w : Nat) (z : Int) : wrap w z < 2 ^ w := by
  have hpos : (0 : Int) < 2 ^ w := Int.pow_pos (by decide)
  rw [wrap, Int.toNat_lt (Int.emod_nonneg z (Int.ne_of_gt hpos)), natCast_two_pow]
  exact Int.emod_lt_of_pos z hpos

theorem intBits_eq_wrap (w : Nat) (z : Int) : intBits w z = wrap w z := by
  rw [intBits, wrap, natCast_two_pow]

theorem wrap_natCast (w n : Nat) : wrap w (n : Int) = n % 2 ^ w := by
  rw [← intBits_eq_wrap, intBits, ← Int.natCast_emod, Int.toNat_natCast]

theorem intRead_eq_value {sg : Bool} {w A : Nat} (h : A < 2 ^ w) : intRead sg w A = value sg w A := by
  rw [intRead, Nat.mod_eq_of_lt h, value]

theorem clampInt_eq_clamp (sg : Bool) (w : Nat) (z : Int) : clampInt sg w z = clamp sg w z := by
  unfold clampInt clamp intLo intHi
  rw [intBits_eq_wrap]
  cases sg <;> simp

/-- Two patterns of `w` bits that stand for one integer are the same. -/
theorem value_inj {sg : Bool} {w A B : Nat} (hA : A < 2 ^ w) (hB : B < 2 ^ w) (h : value sg w A = value sg w B) : A = B := by
  have hA' : (A : Int) < 2 ^ w := natCast_two_pow w ▸ Int.ofNat_lt.mpr hA
  have hB' : (B : Int) < 2 ^ w := natCast_two_pow w ▸ Int.ofNat_lt.mpr hB
  unfold value at h
  split at h <;> split at h <;> omega

/-- What an integer operation's bits are, where its operands are bits of width `w`. -/
def IntOp.Gives (op : IntOp) (sg : Bool) (w : Nat) (g : Nat → Nat → Nat → Nat) : Prop :=
  ∀ A B D, A < 2 ^ w → B < 2 ^ w → D < 2 ^ w → intOp op sg w A B D = quietElt (g A B D) ∧ g A B D < 2 ^ w

section
variable (sg : Bool) (w : Nat)

theorem add_gives : IntOp.add.Gives sg w fun A B _ => wrap w (A + B) := fun A B _ _ _ _ =>
  ⟨congrArg quietElt (wrap_natCast w (A + B)).symm, wrap_lt _ _⟩

theorem sub_gives : IntOp.sub.Gives sg w fun A B _ => wrap w (A - B) := fun A B D _ hB _ => by
  refine ⟨congrArg quietElt ?_, wrap_lt _ _⟩
  have borrow : ((A + 2 ^ w - B : Nat) : Int) = A - B + 2 ^ w := by
    rw [Int.natCast_sub (by omega), Int.natCast_add, natCast_two_pow]
    omega
  rw [← wrap_natCast, borrow]
  exact congrArg Int.toNat (Int.add_emod_right _ _)

theorem mul_gives : IntOp.mul.Gives sg w fun A B _ => wrap w (A * B) := fun A B _ _ _ _ =>
  ⟨congrArg quietElt (wrap_natCast w (A * B)).symm, wrap_lt _ _⟩

theorem mulh_gives : IntOp.mulh.Gives sg w fun A B _ => wrap w (value sg w A * value sg w B / 2 ^ w) := fun A B D hA hB _ => by
  refine ⟨congrArg quietElt ?_, wrap_lt _ _⟩
  rw [intBits_eq_wrap, intRead_eq_value hA, intRead_eq_value hB]

theorem macc_gives : IntOp.macc.Gives sg w fun A B D => wrap w (D + A * B) := fun A B D _ _ _ =>
  ⟨congrArg quietElt (wrap_natCast w (D + A * B)).symm, wrap_lt _ _⟩

theorem nmsac_gives : IntOp.nmsac.Gives sg w fun A B D => wrap w (D - A * B) := fun _ _ _ _ _ _ =>
  ⟨congrArg quietElt (intBits_eq_wrap w _), wrap_lt _ _⟩

theorem min_gives : IntOp.min.Gives sg w fun A B _ => if value sg w A < value sg w B then A else B := fun A B D hA hB _ => by
  refine ⟨congrArg quietElt ?_, ?_⟩
  · rw [intRead_eq_value hA, intRead_eq_value hB]
  · dsimp only; split <;> assumption

/-- The larger may be chosen by either comparison: where neither is larger the bits are the same. -/
theorem max_gives : IntOp.max.Gives sg w fun A B _ => if value sg w A < value sg w B then B else A := fun A B D hA hB _ => by
  refine ⟨congrArg quietElt ?_, ?_⟩
  · rw [intRead_eq_value hA, intRead_eq_value hB]
    dsimp only
    obtain h | h | h := Int.lt_trichotomy (value sg w A) (value sg w B)
    · rw [if_pos h, if_neg (Int.lt_asymm h)]
    · rw [value_inj hA hB h, ite_self]
    · rw [if_neg (Int.lt_asymm h), if_pos h]
  · dsimp only; split <;> assumption

theorem sll_gives : IntOp.sll.Gives sg w fun A B _ => wrap w (A * 2 ^ (B % w)) := fun _ _ _ _ _ _ => by
  refine ⟨congrArg quietElt ?_, wrap_lt _ _⟩
  rw [Nat.shiftLeft_eq, ← wrap_natCast, Int.natCast_mul, natCast_two_pow]

theorem srl_gives : IntOp.srl.Gives sg w fun A B _ => A / 2 ^ (B % w) := fun _ _ _ hA _ _ =>
  ⟨congrArg quietElt (Nat.shiftRight_eq_div_pow _ _), Nat.lt_of_le_of_lt (Nat.div_le_self _ _) hA⟩

theorem sra_gives : IntOp.sra.Gives sg w fun A B _ => wrap w (value true w A / 2 ^ (B % w)) := fun A B D hA _ _ => by
  refine ⟨congrArg quietElt ?_, wrap_lt _ _⟩
  rw [intBits_eq_wrap, intRead_eq_value hA]

theorem adds_gives : IntOp.adds.Gives sg w fun A B _ => clamp sg w (value sg w A + value sg w B) := fun A B D hA hB _ => by
  refine ⟨congrArg quietElt ?_, wrap_lt _ _⟩
  rw [clampInt_eq_clamp, intRead_eq_value hA, intRead_eq_value hB]

theorem subs_gives : IntOp.subs.Gives sg w fun A B _ => clamp sg w (value sg w A - value sg w B) := fun A B D hA hB _ => by
  refine ⟨congrArg quietElt ?_, wrap_lt _ _⟩
  rw [clampInt_eq_clamp, intRead_eq_value hA, intRead_eq_value hB]

theorem and_gives : IntOp.and.Gives sg w fun A B _ => A &&& B := fun _ _ _ _ hB _ => ⟨rfl, Nat.and_lt_two_pow _ hB⟩

theorem or_gives : IntOp.or.Gives sg w fun A B _ => A ||| B := fun _ _ _ hA hB _ => ⟨rfl, Nat.or_lt_two_pow hA hB⟩

theorem xor_gives : IntOp.xor.Gives sg w fun A B _ => A ^^^ B := fun _ _ _ hA hB _ => ⟨rfl, Nat.xor_lt_two_pow hA hB⟩

end

/-- Quotient and remainder by the rule of R109. -/
theorem divideAt_eq {sg : Bool} {w A B : Nat} (hA : A < 2 ^ w) (hB : B < 2 ^ w) : divideAt sg w A B =
    if B = 0 then (2 ^ w - 1, A) else (wrap w ((value sg w A).tdiv (value sg w B)), wrap w ((value sg w A).tmod (value sg w B))) := by
  unfold divideAt
  dsimp only
  rw [intRead_eq_value hA, intRead_eq_value hB, intBits_eq_wrap, intBits_eq_wrap]

/-- What a division's bits are, with status.idz for a zero divisor. -/
def IntOp.Divides (op : IntOp) (sg : Bool) (w : Nat) (g : Nat → Nat → Nat) : Prop :=
  ∀ A B D, A < 2 ^ w → B < 2 ^ w → intOp op sg w A B D = ⟨g A B, 0#6, decide (B = 0)⟩ ∧ g A B < 2 ^ w

theorem div_divides (sg : Bool) (w : Nat) :
    IntOp.div.Divides sg w fun A B => if B = 0 then 2 ^ w - 1 else wrap w ((value sg w A).tdiv (value sg w B)) := by
  intro A B D hA hB
  have quotient : intOp .div sg w A B D = ⟨(divideAt sg w A B).1, noFlags, B == 0⟩ := rfl
  rw [quotient, divideAt_eq hA hB, apply_ite Prod.fst, Bool.beq_eq_decide_eq]
  refine ⟨rfl, ?_⟩
  dsimp only
  split
  · exact Nat.sub_lt (Nat.two_pow_pos w) (by decide)
  · exact wrap_lt w _

theorem rem_divides (sg : Bool) (w : Nat) :
    IntOp.rem.Divides sg w fun A B => if B = 0 then A else wrap w ((value sg w A).tmod (value sg w B)) := by
  intro A B D hA hB
  have remainder : intOp .rem sg w A B D = ⟨(divideAt sg w A B).2, noFlags, B == 0⟩ := rfl
  rw [remainder, divideAt_eq hA hB, apply_ite Prod.snd, Bool.beq_eq_decide_eq]
  refine ⟨rfl, ?_⟩
  dsimp only
  split
  · exact hA
  · exact wrap_lt w _

/-! ## The forms of an integer operation (02_encoding.md R48, R49, 06_vector_arithmetic.md R162) -/

theorem forall_plainForms {s : State} {types : Bool} {d a b : BitVec 5} {p : BitVec 4} {vv vx : Instr} {compact : Option (Instr × BitVec 5)}
    {P : VForm → Prop} (hvv : P (plainForm s types vv 4 d a (.reg b) p)) (hvx : P (plainForm s types vx 4 d a (.scalar (s.x b)) p))
    (hc : ∀ i a', compact = some (i, a') → s.me.ctx.ldst = 1#1 ++ d → P (plainForm s types i 2 d a' (.reg b) 0#4)) :
    ∀ f ∈ plainForms s types d a b p vv vx compact, P f := by
  unfold plainForms
  rw [List.forall_mem_append, List.forall_mem_cons, List.forall_mem_cons]
  refine ⟨⟨hvv, hvx, List.forall_mem_nil _⟩, ?_⟩
  cases compact with
  | none => exact List.forall_mem_nil _
  | some c =>
    dsimp only
    split
    · next h => exact List.forall_mem_singleton.mpr (hc c.1 c.2 rfl h)
    · exact List.forall_mem_nil _

/-- A compact form runs on the vector register that ldst names (02_encoding.md R49). -/
theorem State.compactV_eq {s : State} {d : BitVec 5} (h : s.me.ctx.ldst = 1#1 ++ d) (f : BitVec 5 → State) : s.compactV f = f d := by
  have named : s.ldstReg = d := by
    unfold State.ldstReg
    rw [h]
    exact BitVec.setWidth_append_eq_right
  have vector : s.me.ctx.ldst.getLsbD 5 = true := by
    rw [h, BitVec.getLsbD_append]
    rfl
  rw [State.compactV, if_pos vector, named]

/-- A compact vector form traps where ldst names a scalar register (02_encoding.md R49). -/
theorem State.compactV_scalar {s : State} {l : BitVec 5} (h : s.me.ctx.ldst = 0#1 ++ l) (f : BitVec 5 → State) :
    s.compactV f = s.trap 0x01#8 0#64 false s.pc := by
  have scalar : s.me.ctx.ldst.getLsbD 5 = false := by
    rw [h, BitVec.getLsbD_append]
    rfl
  rw [State.compactV, if_neg (by rw [scalar]; exact Bool.false_ne_true)]
  rfl

/-- What the compact form of an operation executes. -/
theorem exec_compact {s : State} {d : BitVec 5} {i₀ : Instr} {a₀ : BitVec 5} {f r : BitVec 5 → State} (he : exec i₀ s = .next (s.compactV f))
    (hr : f d = r a₀) (i : Instr) (a : BitVec 5) (h : some (i₀, a₀) = some (i, a)) (hl : s.me.ctx.ldst = 1#1 ++ d) :
    exec i s = .next (r a) := by
  obtain ⟨rfl, rfl⟩ := Prod.mk.inj (Option.some.inj h)
  rw [he, State.compactV_eq hl, hr]

theorem exec_noCompact {s : State} {ldst : Prop} {r : BitVec 5 → State} (i : Instr) (a : BitVec 5) (h : none = some (i, a)) (_ : ldst) :
    exec i s = .next (r a) := nomatch h

theorem intForm_acts {s : State} (s1 : State) {i : Instr} {op : IntOp} {types : Nat → Bool} {len : Nat} {d a : BitVec 5} {b : VSrc} {p : BitVec 4}
    {g : Nat → Nat → Nat → Nat} (hg : op.Gives (vtElem s.me.ctx.vtype).isSigned (vtW s.me.ctx.vtype) g)
    (he : exec i s = .next (s.vPlain (.int op) types false len d a b p)) :
    VActs s s1 i (types (vtEt s.me.ctx.vtype) && plainOk s.me.ctx.vtype d a b p) len d (vtN s.me.ctx.vtype) (vtW s.me.ctx.vtype) 0#6 false
      (s.me.ctx.rule p fun j => g (s.me.ctx.elem a.toNat (vtW s.me.ctx.vtype) j) (b.at s.me.ctx (vtW s.me.ctx.vtype) j)
        (s.me.ctx.elem d.toNat (vtW s.me.ctx.vtype) j)) := by
  refine vPlain_quiet s1 he rfl fun hlen => State.sweeps_plain hlen
    (f := fun e A B D _ => intOp op (vtElem e.vtype).isSigned (vtElem e.vtype).width A B D)
    (fun e c hcap => by rw [VEntry.compute, hcap.op]) fun e hcap j _ => ?_
  rw [hcap.vtype]
  exact hg _ _ _ (Ctx.elem_lt _ _ _ _) (VSrc.at_lt _ _ _ _) (Ctx.elem_lt _ _ _ _)

/-- Every form of an integer operation acts on each element. -/
theorem intRow_acts {s : State} (s1 : State) {ints : Bool} {op : IntOp} {d a b : BitVec 5} {p : BitVec 4} {vv vx : Instr}
    {compact : Option (Instr × BitVec 5)} {g : Nat → Nat → Nat → Nat} (hg : op.Gives (vtElem s.me.ctx.vtype).isSigned (vtW s.me.ctx.vtype) g)
    (hvv : exec vv s = .next (s.vPlain (.int op) (fun et => !ints || decide (et ≤ 7)) false 4 d a (.reg b) p))
    (hvx : exec vx s = .next (s.vPlain (.int op) (fun et => !ints || decide (et ≤ 7)) false 4 d a (.scalar (s.x b)) p))
    (hc : ∀ i a', compact = some (i, a') → s.me.ctx.ldst = 1#1 ++ d →
      exec i s = .next (s.vPlain (.int op) (fun et => !ints || decide (et ≤ 7)) false 2 d a' (.reg b) 0#4)) :
    ∀ f ∈ plainForms s (!ints || decide (vtEt s.me.ctx.vtype ≤ 7)) d a b p vv vx compact,
      VActs s s1 f.instr f.legal f.len d (vtN s.me.ctx.vtype) (vtW s.me.ctx.vtype) 0#6 false
        (s.me.ctx.rule f.p fun j => g (s.me.ctx.elem f.a.toNat (vtW s.me.ctx.vtype) j) (f.b.at s.me.ctx (vtW s.me.ctx.vtype) j)
          (s.me.ctx.elem d.toNat (vtW s.me.ctx.vtype) j)) :=
  forall_plainForms (intForm_acts s1 hg hvv) (intForm_acts s1 hg hvx) fun i a' h hl => intForm_acts s1 hg (hc i a' h hl)

theorem vectorIntRows_act (d a b : BitVec 5) (p : BitVec 4) (s s1 : State) :
    ∀ r ∈ vectorIntRows d a b p (vtElem s.me.ctx.vtype).isSigned (vtW s.me.ctx.vtype),
      ∀ f ∈ plainForms s (!true || decide (vtEt s.me.ctx.vtype ≤ 7)) d a b p r.1 r.2.1 r.2.2.1,
        VActs s s1 f.instr f.legal f.len d (vtN s.me.ctx.vtype) (vtW s.me.ctx.vtype) 0#6 false
          (s.me.ctx.rule f.p fun j => r.2.2.2 (s.me.ctx.elem f.a.toNat (vtW s.me.ctx.vtype) j) (f.b.at s.me.ctx (vtW s.me.ctx.vtype) j)
            (s.me.ctx.elem d.toNat (vtW s.me.ctx.vtype) j)) := by
  simp only [vectorIntRows, List.forall_mem_cons]
  exact ⟨intRow_acts s1 (add_gives _ _) rfl rfl (exec_compact rfl rfl), intRow_acts s1 (sub_gives _ _) rfl rfl (exec_compact rfl rfl),
    intRow_acts s1 (mul_gives _ _) rfl rfl (exec_compact rfl rfl), intRow_acts s1 (mulh_gives _ _) rfl rfl exec_noCompact,
    intRow_acts s1 (macc_gives _ _) rfl rfl (exec_compact rfl rfl), intRow_acts s1 (nmsac_gives _ _) rfl rfl exec_noCompact,
    intRow_acts s1 (min_gives _ _) rfl rfl (exec_compact rfl rfl), intRow_acts s1 (max_gives _ _) rfl rfl (exec_compact rfl rfl),
    intRow_acts s1 (sll_gives _ _) rfl rfl exec_noCompact, intRow_acts s1 (srl_gives _ _) rfl rfl exec_noCompact,
    intRow_acts s1 (sra_gives _ _) rfl rfl exec_noCompact, intRow_acts s1 (adds_gives _ _) rfl rfl exec_noCompact,
    intRow_acts s1 (subs_gives _ _) rfl rfl exec_noCompact, List.forall_mem_nil _⟩

theorem vectorBitRows_act (d a b : BitVec 5) (p : BitVec 4) (s s1 : State) :
    ∀ r ∈ vectorBitRows d a b p,
      ∀ f ∈ plainForms s (!false || decide (vtEt s.me.ctx.vtype ≤ 7)) d a b p r.1 r.2.1 r.2.2.1,
        VActs s s1 f.instr f.legal f.len d (vtN s.me.ctx.vtype) (vtW s.me.ctx.vtype) 0#6 false
          (s.me.ctx.rule f.p fun j => r.2.2.2 (s.me.ctx.elem f.a.toNat (vtW s.me.ctx.vtype) j) (f.b.at s.me.ctx (vtW s.me.ctx.vtype) j)
            (s.me.ctx.elem d.toNat (vtW s.me.ctx.vtype) j)) := by
  simp only [vectorBitRows, List.forall_mem_cons]
  exact ⟨intRow_acts s1 (and_gives _ _) rfl rfl (exec_compact rfl rfl), intRow_acts s1 (or_gives _ _) rfl rfl (exec_compact rfl rfl),
    intRow_acts s1 (xor_gives _ _) rfl rfl (exec_compact rfl rfl), List.forall_mem_nil _⟩

/-! ## Division (06_vector_arithmetic.md R163, 04_scalar.md R109) -/

/-- What the statement says of a form of a division: its elements, and status.idz where a computed element's divisor is zero. -/
def DivActs (s s1 : State) (d a : BitVec 5) (p : BitVec 4) (g : Nat → Nat → Nat) (f : VForm) : Prop :=
  let c := s.me.ctx
  let w := vtW c.vtype
  let n := vtN c.vtype
  VStops s f.instr f.legal ∧
    (VIssues s f.legal (vBits d n) s1 → ∃ t, exec f.instr s = .next t ∧
      (let zero := (List.range (vlLen c.vl)).any fun i => c.computes p i && decide (f.b.at c w i = 0)
       let u := s.updCtx fun k => { k with status := if zero then k.status ||| 1#64 else k.status }
       OnlyVector u s1 t 4 (vBits d n) (1#1 ++ d) 0#6 false) ∧
      Elements s t d.toNat n w (c.rule p fun i => g (c.elem a.toNat w i) (f.b.at c w i)))

theorem divForm_acts {s : State} (s1 : State) {i : Instr} {op : IntOp} {d a : BitVec 5} {b : VSrc} {p : BitVec 4} {g : Nat → Nat → Nat}
    (hg : op.Divides (vtElem s.me.ctx.vtype).isSigned (vtW s.me.ctx.vtype) g)
    (he : exec i s = .next (s.vPlain (.int op) (fun et => decide (et ≤ 7)) false 4 d a b p)) :
    DivActs s s1 d a p g (plainForm s (decide (vtEt s.me.ctx.vtype ≤ 7)) i 4 d a b p) := by
  refine ⟨vStops_of_vIssue he, fun h => ?_⟩
  obtain ⟨-, hshape, hlegal, -, -⟩ := id h
  have hsweep := State.sweeps_plain (op := .int op) (b := b) (p := p) (d := d) (a := a) (vlLen_le_vlMax hshape)
    (f := fun e A B D _ => intOp op (vtElem e.vtype).isSigned (vtElem e.vtype).width A B D)
    (F := fun i => ⟨g (s.me.ctx.elem a.toNat (vtW s.me.ctx.vtype) i) (b.at s.me.ctx (vtW s.me.ctx.vtype) i), 0#6,
      decide (b.at s.me.ctx (vtW s.me.ctx.vtype) i = 0)⟩)
    (fun e c hcap => by rw [VEntry.compute, hcap.op]) fun e hcap j _ => by
      rw [hcap.vtype]
      exact hg _ _ _ (Ctx.elem_lt _ _ _ _) (VSrc.at_lt _ _ _ _)
  obtain ⟨t, ht, honly, helements⟩ := exec_sweeps he rfl (plainOk_group (Bool.and_eq_true_iff.mp hlegal).2) (vtW_dvd _) (vlMax_eq _) hsweep h
  rw [foldl_noFlags, Ctx.swept_eq, List.any_filter] at honly
  rw [← Ctx.rule_eq] at helements
  exact ⟨t, ht, honly, helements⟩

theorem divRow_acts {s : State} (s1 : State) {op : IntOp} {d a b : BitVec 5} {p : BitVec 4} {vv vx : Instr} {g : Nat → Nat → Nat}
    (hg : op.Divides (vtElem s.me.ctx.vtype).isSigned (vtW s.me.ctx.vtype) g)
    (hvv : exec vv s = .next (s.vPlain (.int op) (fun et => decide (et ≤ 7)) false 4 d a (.reg b) p))
    (hvx : exec vx s = .next (s.vPlain (.int op) (fun et => decide (et ≤ 7)) false 4 d a (.scalar (s.x b)) p)) :
    ∀ f ∈ plainForms s (decide (vtEt s.me.ctx.vtype ≤ 7)) d a b p vv vx none, DivActs s s1 d a p g f :=
  forall_plainForms (divForm_acts s1 hg hvv) (divForm_acts s1 hg hvx) fun _ _ h => nomatch h

theorem vectorDivRows_act (d a b : BitVec 5) (p : BitVec 4) (s s1 : State) :
    ∀ r ∈ vectorDivRows d a b p (vtElem s.me.ctx.vtype).isSigned (vtW s.me.ctx.vtype),
      ∀ f ∈ plainForms s (decide (vtEt s.me.ctx.vtype ≤ 7)) d a b p r.1 r.2.1 none, DivActs s s1 d a p r.2.2 f := by
  simp only [vectorDivRows, List.forall_mem_cons]
  exact ⟨divRow_acts s1 (div_divides _ _) rfl rfl, divRow_acts s1 (rem_divides _ _) rfl rfl, List.forall_mem_nil _⟩

/-- A compact form on a vector register traps where ldst names a scalar one (02_encoding.md R48, R49). -/
theorem compactInt_scalar (a b l : BitVec 5) (s : State) (h : s.me.ctx.ldst = 0#1 ++ l) :
    ∀ j ∈ [Instr.cVadd a, .cVsub a, .cVmul a, .cVand a, .cVor a, .cVxor a, .cVmin a, .cVmax a, .cVmacc a b],
      exec j s = .next (s.trap 0x01#8 0#64 false s.pc) := by
  have traps (f : BitVec 5 → State) : (Host.Outcome.next (s.compactV f) : Result) = .next (s.trap 0x01#8 0#64 false s.pc) :=
    congrArg _ (State.compactV_scalar h f)
  simp only [List.forall_mem_cons]
  exact ⟨traps _, traps _, traps _, traps _, traps _, traps _, traps _, traps _, traps _, List.forall_mem_nil _⟩

/-- Settles O23: every row of Table 6.5 by the value of its operation, and the divisions with their status bit. -/
theorem integerVectorFormsActOnEachElement : Obligations.IntegerVectorFormsActOnEachElement :=
  ⟨fun d a b p s s1 ints => by
    cases ints with
    | true => exact vectorIntRows_act d a b p s s1
    | false => exact vectorBitRows_act d a b p s s1,
  vectorDivRows_act, compactInt_scalar⟩

end Sys2Proof.Machine
end

section
/-!
PROOFS. Widening, narrowing and selection (06_vector_arithmetic.md R164, R165, R169).
-/

namespace Sys2Proof.Machine

/-! ## Rounded results fit their format (03_numbers.md R76 to R80) -/

theorem FloatFmt.encodings_lt (f : FloatFmt) (neg : Bool) :
    f.sign neg + f.largest < 2 ^ (Elem.float f).width ∧ f.inf neg < 2 ^ (Elem.float f).width ∧ f.nan < 2 ^ (Elem.float f).width := by
  cases f <;> cases neg <;> decide

theorem overflowBits_lt (f : FloatFmt) (away sat neg : Bool) : (overflowBits f away sat neg).1 < 2 ^ (Elem.float f).width := by
  obtain ⟨hlargest, hinf, hnan⟩ := f.encodings_lt neg
  unfold overflowBits
  split
  · exact hlargest
  split
  · exact hlargest
  split
  · split
    · exact hlargest
    · exact hnan
  split
  · exact hlargest
  · exact hinf

theorem FloatFmt.round_lt (f : FloatFmt) (r : Rounding) (neg : Bool) (x : Mag) : (f.round r neg x).1 < 2 ^ (Elem.float f).width := by
  obtain ⟨hlargest, -, -⟩ := f.encodings_lt neg
  have hsign : f.sign neg < 2 ^ (Elem.float f).width := by omega
  unfold FloatFmt.round
  dsimp only
  split
  · exact hsign
  split
  · exact hsign
  split
  · exact overflowBits_lt _ _ _ _
  · dsimp only
    omega

theorem FloatFmt.finish_lt (f : FloatFmt) (r : Rounding) (x : Exact) : (f.finish r x).1 < 2 ^ (Elem.float f).width := by
  cases x with
  | nan i => exact (f.encodings_lt false).2.2
  | inf neg z => exact (f.encodings_lt neg).2.1
  | val neg m => exact f.round_lt r neg m

/-! ## Types (06_vector_arithmetic.md R164) -/

/-- The width of the type in which a widening form of an element type gives its results. -/
def Elem.wideWidth : Elem → Nat
  | .float f => (Elem.float (widerFloat f)).width
  | t => 2 * t.width

theorem wideWidth_eq {vt : Word} (h : wideEt (vtEt vt) = true) : (vtElem vt).wideWidth = 2 * vtW vt := by
  have twice : ∀ n < 32, wideEt n = true → ((elemOf n).getD (.int true 8)).wideWidth = 2 * ((elemOf n).getD (.int true 8)).width := by decide
  exact twice _ (bits_lt vt 4 0) h

theorem floatEt_of_wideEt {et : Nat} (h : wideEt et = true) : floatEt et = (decide (9 ≤ et) && decide (et ≤ 11)) := by
  rw [Bool.eq_iff_iff]
  simp only [wideEt, floatEt, Bool.or_eq_true, Bool.and_eq_true, decide_eq_true_eq] at h ⊢
  omega

theorem narrowEt_eq (et : Nat) :
    (wideEt et && decide (et ≤ 7)) = (decide (et ≤ 2) || (decide (4 ≤ et) && decide (et ≤ 6))) := by
  rw [Bool.eq_iff_iff]
  simp only [wideEt, Bool.or_eq_true, Bool.and_eq_true, decide_eq_true_eq]
  omega

theorem apartOk_group {vt : Word} {d a : BitVec 5} {nd na : Nat} {b : VSrc} {p : BitVec 4} (h : apartOk vt d a nd na b p = true) :
    groupOk d nd = true := by
  simp only [apartOk, Bool.and_eq_true] at h
  exact h.1.1.1.1

/-! ## Widening (06_vector_arithmetic.md R164) -/

/-- The number by which the statements name a widening operation. -/
def WideOp.number : WideOp → Nat
  | .add => 0
  | .mul => 1
  | .macc => 2

/-- A widening operation gives the exact result in the wide type, rounded where that is a float's. -/
theorem wideOp_eq (op : WideOp) (t : Elem) (c : Ctx) (i : Nat) {A B : Nat} (D : Nat) (hA : A < 2 ^ t.width) (hB : B < 2 ^ t.width) :
    wideOp op t c.fcr ⟨fcrRm c.fcr, fcrSat c.fcr, fcrFtz c.fcr (widerFloat t.fmt), drawBits (xorshiftN (i + 1) c.prng)⟩ A B D =
      ⟨(widened t op.number c i A B D).1, (widened t op.number c i A B D).2, false⟩ := by
  cases t with
  | int sg w =>
    unfold wideOp
    dsimp only
    rw [intRead_eq_value (w := w) hA, intRead_eq_value (w := w) hB]
    cases op <;> exact congrArg quietElt (intBits_eq_wrap _ _)
  | float f => cases op <;> rfl
  | lns6 => rfl
  | e8m0 => rfl

theorem widened_lt (t : Elem) (op : Nat) (c : Ctx) (i A B D : Nat) : (widened t op c i A B D).1 < 2 ^ t.wideWidth := by
  cases t with
  | int sg w => exact wrap_lt _ _
  | float f => exact FloatFmt.finish_lt _ _ _
  | lns6 => exact Nat.two_pow_pos _
  | e8m0 => exact Nat.two_pow_pos _

theorem forall_apartForms {s : State} {types : Bool} {d a b : BitVec 5} {p : BitVec 4} {nd na : Nat} {vv vx : Instr} {P : VForm → Prop}
    (hvv : P ⟨vv, 4, d, a, .reg b, p, types && decide (2 * vtN s.me.ctx.vtype ≤ 8) && apartOk s.me.ctx.vtype d a nd na (.reg b) p⟩)
    (hvx : P ⟨vx, 4, d, a, .scalar (s.x b), p,
      types && decide (2 * vtN s.me.ctx.vtype ≤ 8) && apartOk s.me.ctx.vtype d a nd na (.scalar (s.x b)) p⟩) :
    ∀ f ∈ apartForms s types d a b p nd na vv vx, P f :=
  List.forall_mem_cons.mpr ⟨hvv, List.forall_mem_singleton.mpr hvx⟩

/-- The widening result of element `i` of an instruction's operands. -/
def Ctx.widenedAt (c : Ctx) (op : WideOp) (d a : BitVec 5) (b : VSrc) (i : Nat) : Nat × FFlags :=
  widened (vtElem c.vtype) op.number c i (c.elem a.toNat (vtW c.vtype) i) (b.at c (vtW c.vtype) i) (c.elem d.toNat (2 * vtW c.vtype) i)

theorem VEntry.compute_wide {e : VEntry} {op : WideOp} (h : e.op = .wide op) (c : Ctx) : e.compute c = e.widen c op := by
  rw [VEntry.compute, h]

/-- A widening form sweeps the registers of the wide type. -/
theorem State.sweeps_wide {s : State} {op : WideOp} {d a : BitVec 5} {b : VSrc} {p : BitVec 4} (htypes : wideEt (vtEt s.me.ctx.vtype) = true)
    (hlen : vlLen s.me.ctx.vl ≤ vlMax s.me.ctx.vtype) :
    s.Sweeps (.wide op) d a b p (2 * vtN s.me.ctx.vtype) (2 * vtW s.me.ctx.vtype) (vtMz s.me.ctx.vtype) (s.me.ctx.activeAt p) fun i =>
      ⟨(s.me.ctx.widenedAt op d a b i).1, (s.me.ctx.widenedAt op d a b i).2, false⟩ := by
  intro e c hcap hv _
  refine ⟨_, _, (VEntry.compute_wide hcap.op c).trans (by unfold VEntry.widen; rw [hcap.vtype]; rfl), fun i hi => ?_⟩
  have hmax : i < vlMax s.me.ctx.vtype := Nat.lt_of_lt_of_le hi hlen
  have hgroup : i < vtN s.me.ctx.vtype * 16384 / vtW s.me.ctx.vtype := vlMax_eq _ ▸ hmax
  refine ⟨hcap.active c i hmax, fun _ => ⟨?_, ?_⟩⟩
  · rw [show (vtElem s.me.ctx.vtype).width = vtW s.me.ctx.vtype from rfl, hcap.elemAt_a hv (vtW_dvd _) hgroup, hcap.bElem hv (vtW_dvd _) hgroup,
      VEntry.rounding, hcap.fcr]
    exact wideOp_eq op _ _ i _ (Ctx.elem_lt _ _ _ _) (VSrc.at_lt _ _ _ _)
  · rw [← wideWidth_eq htypes]
    exact widened_lt _ _ _ _ _ _ _

theorem wideForm_acts {s : State} (s1 : State) {i : Instr} {op : WideOp} {d a : BitVec 5} {b : VSrc} {p : BitVec 4}
    (he : exec i s = .next (s.vWide op d a b p)) :
    VActs s s1 i (wideEt (vtEt s.me.ctx.vtype) && decide (2 * vtN s.me.ctx.vtype ≤ 8) &&
        apartOk s.me.ctx.vtype d a (2 * vtN s.me.ctx.vtype) (vtN s.me.ctx.vtype) b p) 4 d (2 * vtN s.me.ctx.vtype) (2 * vtW s.me.ctx.vtype)
      (s.me.ctx.raised p fun i => (s.me.ctx.widenedAt op d a b i).2) (decide (9 ≤ vtEt s.me.ctx.vtype) && decide (vtEt s.me.ctx.vtype ≤ 11))
      (s.me.ctx.rule p fun i => (s.me.ctx.widenedAt op d a b i).1) := by
  have htypes {l : Bool} (h : (wideEt (vtEt s.me.ctx.vtype) && decide (2 * vtN s.me.ctx.vtype ≤ 8) && l) = true) : wideEt (vtEt s.me.ctx.vtype)
      = true :=
    (Bool.and_eq_true_iff.mp (Bool.and_eq_true_iff.mp h).1).1
  rw [Ctx.raised_eq, Ctx.rule_eq]
  have acts := vActs_of_sweeps s1 he rfl (fun h => floatEt_of_wideEt (htypes h)) (fun h => apartOk_group (Bool.and_eq_true_iff.mp h).2)
    (two_mul_vtW_dvd _) (vlMax_eq_wide _) (fun h hlen => State.sweeps_wide (htypes h) hlen) fun _ => rfl
  exact acts

/-! ## Narrowing (06_vector_arithmetic.md R165) -/

theorem nclipOp_eq {sg : Bool} {w A : Nat} (k : Nat) (hA : A < 2 ^ (2 * w)) : nclipOp sg w A k = narrowed sg w A k := by
  unfold nclipOp narrowed
  dsimp only
  rw [intRead_eq_value hA, clampInt_eq_clamp]
  simp only [Bool.or_eq_true, Bool.and_eq_true, decide_eq_true_eq]

theorem VEntry.compute_nclip {e : VEntry} (h : e.op = .nclip) (c : Ctx) : e.compute c = e.nclip c := by
  rw [VEntry.compute, h]

theorem State.sweeps_nclip {s : State} {d a : BitVec 5} {b : VSrc} {p : BitVec 4} (hlen : vlLen s.me.ctx.vl ≤ vlMax s.me.ctx.vtype) :
    s.Sweeps .nclip d a b p (vtN s.me.ctx.vtype) (vtW s.me.ctx.vtype) (vtMz s.me.ctx.vtype) (s.me.ctx.activeAt p) fun i =>
      quietElt (narrowed (vtElem s.me.ctx.vtype).isSigned (vtW s.me.ctx.vtype) (s.me.ctx.elem a.toNat (2 * vtW s.me.ctx.vtype) i)
        (b.at s.me.ctx (vtW s.me.ctx.vtype) i % (2 * vtW s.me.ctx.vtype))) := by
  intro e c hcap hv _
  refine ⟨_, _, (VEntry.compute_nclip hcap.op c).trans (by unfold VEntry.nclip; rw [hcap.vtype]; rfl), fun i hi => ?_⟩
  have hmax : i < vlMax s.me.ctx.vtype := Nat.lt_of_lt_of_le hi hlen
  refine ⟨hcap.active c i hmax, fun _ => ⟨?_, wrap_lt _ _⟩⟩
  rw [show (vtElem s.me.ctx.vtype).width = vtW s.me.ctx.vtype from rfl, hcap.elemAt_a hv (two_mul_vtW_dvd _) (vlMax_eq_wide _ ▸ hmax),
    hcap.bElem hv (vtW_dvd _) (vlMax_eq _ ▸ hmax), nclipOp_eq _ (Ctx.elem_lt _ _ _ _)]

theorem nclipForm_acts {s : State} (s1 : State) {i : Instr} {d a : BitVec 5} {b : VSrc} {p : BitVec 4} (he : exec i s = .next (s.vNclip d a b p)) :
    VActs s s1 i ((decide (vtEt s.me.ctx.vtype ≤ 2) || (decide (4 ≤ vtEt s.me.ctx.vtype) && decide (vtEt s.me.ctx.vtype ≤ 6))) &&
        decide (2 * vtN s.me.ctx.vtype ≤ 8) && apartOk s.me.ctx.vtype d a (vtN s.me.ctx.vtype) (2 * vtN s.me.ctx.vtype) b p) 4 d
      (vtN s.me.ctx.vtype) (vtW s.me.ctx.vtype) 0#6 false
      (s.me.ctx.rule p fun i => narrowed (vtElem s.me.ctx.vtype).isSigned (vtW s.me.ctx.vtype) (s.me.ctx.elem a.toNat (2 * vtW s.me.ctx.vtype) i)
        (b.at s.me.ctx (vtW s.me.ctx.vtype) i % (2 * vtW s.me.ctx.vtype))) := by
  rw [← narrowEt_eq, Ctx.rule_eq, ← foldl_noFlags (s.me.ctx.swept (s.me.ctx.activeAt p))]
  have acts := vActs_of_sweeps s1 he rfl (fun _ => rfl) (fun h => apartOk_group (Bool.and_eq_true_iff.mp h).2) (vtW_dvd _) (vlMax_eq _)
    (fun _ => State.sweeps_nclip) fun _ => rfl
  exact acts

/-! ## Selection (06_vector_arithmetic.md R169) -/

theorem VEntry.compute_sel {e : VEntry} (h : e.op = .sel) (c : Ctx) : e.compute c = e.select c := by
  rw [VEntry.compute, h]

/-- A selection computes every element, active or not. -/
theorem State.sweeps_select {s : State} {d a : BitVec 5} {b : VSrc} {p : BitVec 4} (hlen : vlLen s.me.ctx.vl ≤ vlMax s.me.ctx.vtype) :
    s.Sweeps .sel d a b p (vtN s.me.ctx.vtype) (vtW s.me.ctx.vtype) false (fun _ => true) fun i =>
      quietElt (if s.me.ctx.activeAt p i then s.me.ctx.elem a.toNat (vtW s.me.ctx.vtype) i else b.at s.me.ctx (vtW s.me.ctx.vtype) i) := by
  intro e c hcap hv _
  refine ⟨_, _, (VEntry.compute_sel hcap.op c).trans (by unfold VEntry.select; rw [hcap.vtype]), fun i hi => ?_⟩
  have hmax : i < vlMax s.me.ctx.vtype := Nat.lt_of_lt_of_le hi hlen
  have hgroup : i < vtN s.me.ctx.vtype * 16384 / vtW s.me.ctx.vtype := vlMax_eq _ ▸ hmax
  refine ⟨rfl, fun _ => ⟨?_, ?_⟩⟩
  · rw [hcap.active c i hmax, hcap.elemAt_a hv (vtW_dvd _) hgroup, hcap.bElem hv (vtW_dvd _) hgroup]
  · unfold quietElt
    dsimp only
    split
    · exact Ctx.elem_lt _ _ _ _
    · exact VSrc.at_lt _ _ _ _

theorem selectForm_acts {s : State} (s1 : State) {i : Instr} {d a : BitVec 5} {b : VSrc} {p : BitVec 4} (he : exec i s = .next (s.vSelect d a b p)) :
    VActs s s1 i (p != 0#4 && plainOk s.me.ctx.vtype d a b p) 4 d (vtN s.me.ctx.vtype) (vtW s.me.ctx.vtype) 0#6 false fun i =>
      if decide (s.me.ctx.vstart.toNat ≤ i) && decide (i < vlLen s.me.ctx.vl) then
        some (if s.me.ctx.activeAt p i then s.me.ctx.elem a.toNat (vtW s.me.ctx.vtype) i else b.at s.me.ctx (vtW s.me.ctx.vtype) i)
      else if s.me.ctx.clears i then some 0 else none := by
  rw [← foldl_noFlags (s.me.ctx.swept fun _ => true)]
  have acts := vActs_of_sweeps s1 he rfl (fun _ => rfl) (fun h => plainOk_group (Bool.and_eq_true_iff.mp h).2) (vtW_dvd _) (vlMax_eq _)
    (fun _ => State.sweeps_select) fun _ => rfl
  exact acts

/-! ## The forms (06_vector_arithmetic.md R164, R165, R169) -/

/-- What the statement says of a form of a widening operation. -/
def WideActs (s s1 : State) (op : WideOp) (d a : BitVec 5) (p : BitVec 4) (f : VForm) : Prop :=
  let c := s.me.ctx
  VActs s s1 f.instr f.legal 4 d (2 * vtN c.vtype) (2 * vtW c.vtype) (c.raised p fun i => (c.widenedAt op d a f.b i).2)
    (decide (9 ≤ vtEt c.vtype) && decide (vtEt c.vtype ≤ 11)) (c.rule p fun i => (c.widenedAt op d a f.b i).1)

theorem wideRow_acts {s : State} (s1 : State) {op : WideOp} {d a b : BitVec 5} {p : BitVec 4} {vv vx : Instr}
    (hvv : exec vv s = .next (s.vWide op d a (.reg b) p)) (hvx : exec vx s = .next (s.vWide op d a (.scalar (s.x b)) p)) :
    ∀ f ∈ apartForms s (wideEt (vtEt s.me.ctx.vtype)) d a b p (2 * vtN s.me.ctx.vtype) (vtN s.me.ctx.vtype) vv vx, WideActs s s1 op d a p f :=
  forall_apartForms (wideForm_acts s1 hvv) (wideForm_acts s1 hvx)

/-- Settles O25: the widening forms by their exact results, vnclip by its rounding, vsel by its choice. -/
theorem wideningNarrowingAndSelection : Obligations.WideningNarrowingAndSelection := fun d a b p s s1 =>
  ⟨by
      simp only [List.forall_mem_cons]
      exact ⟨wideRow_acts (op := .add) s1 rfl rfl, wideRow_acts (op := .mul) s1 rfl rfl, wideRow_acts (op := .macc) s1 rfl rfl,
          List.forall_mem_nil _⟩,
    forall_apartForms (nclipForm_acts s1 rfl) (nclipForm_acts s1 rfl),
    forall_plainForms (selectForm_acts s1 rfl) (selectForm_acts s1 rfl) fun _ _ h => nomatch h⟩

end Sys2Proof.Machine
end

section
/-!
PROOFS. The permutes (06_vector_arithmetic.md R182, R183).
-/

namespace Sys2Proof.Machine

/-! ## Moving elements (06_vector_arithmetic.md R182) -/

section
variable {e : VEntry} (c : Ctx)

theorem VEntry.compute_slide (h : e.op = .slide) : e.compute c = e.slide c := by rw [VEntry.compute, h]
theorem VEntry.compute_gather (h : e.op = .gather) : e.compute c = e.rgather c := by rw [VEntry.compute, h]
theorem VEntry.compute_iota (h : e.op = .iota) : e.compute c = e.index c := by rw [VEntry.compute, h]
theorem VEntry.compute_bcast (h : e.op = .bcast) : e.compute c = e.broadcast c := by rw [VEntry.compute, h]
theorem VEntry.compute_move (h : e.op = .move) : e.compute c = e.plain c fun a _ _ _ => quietElt a := by rw [VEntry.compute, h]
theorem VEntry.compute_compress (h : e.op = .compress) : e.compute c = e.compress c := by rw [VEntry.compute, h]

end

/-- A form with its destination apart from its sources, whose results raise nothing. -/
theorem vApart_quiet {i : Instr} {s : State} (s1 : State) {op : VOp} {legal : Bool} {d a : BitVec 5} {b : VSrc} {p : BitVec 4} {out : Nat → Nat}
    (he : exec i s = .next (s.vIssue (s.capture op d a b p) 4 legal (vBits d (vtN s.me.ctx.vtype)) (.v d) false)) (hop : op.onlyElements = true)
    (hgroup : legal = true → groupOk d (vtN s.me.ctx.vtype) = true)
    (hsweep : vlLen s.me.ctx.vl ≤ vlMax s.me.ctx.vtype → s.Sweeps op d a b p (vtN s.me.ctx.vtype) (vtW s.me.ctx.vtype) (vtMz s.me.ctx.vtype)
      (s.me.ctx.activeAt p) fun i => quietElt (out i)) :
    VActs s s1 i legal 4 d (vtN s.me.ctx.vtype) (vtW s.me.ctx.vtype) 0#6 false (s.me.ctx.rule p out) := by
  have acts := vActs_of_sweeps s1 he hop (fun _ => rfl) hgroup (vtW_dvd _) (vlMax_eq _) (fun _ => hsweep) fun _ => rfl
  rw [Ctx.rule_eq, ← foldl_noFlags (s.me.ctx.swept (s.me.ctx.activeAt p))]
  exact acts

section
variable {s : State} {d a b : BitVec 5} {p : BitVec 4} (hlen : vlLen s.me.ctx.vl ≤ vlMax s.me.ctx.vtype)
include hlen

/-- A move by the scalar `x`, with zero from outside vl. -/
theorem State.sweeps_slide {x : Word} :
    s.Sweeps .slide d a (.scalar x) p (vtN s.me.ctx.vtype) (vtW s.me.ctx.vtype) (vtMz s.me.ctx.vtype) (s.me.ctx.activeAt p) fun j =>
      quietElt (if 0 ≤ (j : Int) + x.toInt ∧ (j : Int) + x.toInt < vlLen s.me.ctx.vl then
        s.me.ctx.elem a.toNat (vtW s.me.ctx.vtype) ((j : Int) + x.toInt).toNat else 0) := by
  intro e c hcap hv _
  refine ⟨_, _, (VEntry.compute_slide c hcap.op).trans (by unfold VEntry.slide; rw [hcap.vtype, hcap.b, hcap.vl]), fun i hi => ?_⟩
  refine ⟨hcap.active c i (Nat.lt_of_lt_of_le hi hlen), fun _ => ?_⟩
  dsimp only
  split
  · next hq =>
    have hmax : ((i : Int) + x.toInt).toNat < vlMax s.me.ctx.vtype := by omega
    rw [hcap.elemAt_a hv (vtW_dvd _) (vlMax_eq _ ▸ hmax)]
    exact ⟨rfl, Ctx.elem_lt _ _ _ _⟩
  · exact ⟨rfl, Nat.two_pow_pos _⟩

/-- A choice by the indices of `b`, with zero from outside vl. -/
theorem State.sweeps_gather :
    s.Sweeps .gather d a (.reg b) p (vtN s.me.ctx.vtype) (vtW s.me.ctx.vtype) (vtMz s.me.ctx.vtype) (s.me.ctx.activeAt p) fun j =>
      quietElt (if s.me.ctx.elem b.toNat (vtW s.me.ctx.vtype) j < vlLen s.me.ctx.vl then
        s.me.ctx.elem a.toNat (vtW s.me.ctx.vtype) (s.me.ctx.elem b.toNat (vtW s.me.ctx.vtype) j) else 0) := by
  intro e c hcap hv _
  refine ⟨_, _, (VEntry.compute_gather c hcap.op).trans (by unfold VEntry.rgather; rw [hcap.vtype, hcap.vl]), fun i hi => ?_⟩
  have hmax : i < vlMax s.me.ctx.vtype := Nat.lt_of_lt_of_le hi hlen
  refine ⟨hcap.active c i hmax, fun _ => ?_⟩
  have index : e.bElem c (vtN s.me.ctx.vtype) (vtW s.me.ctx.vtype) i = s.me.ctx.elem b.toNat (vtW s.me.ctx.vtype) i :=
    hcap.bElem hv (vtW_dvd _) (vlMax_eq _ ▸ hmax)
  dsimp only
  rw [index]
  split
  · next hq =>
    rw [hcap.elemAt_a hv (vtW_dvd _) (vlMax_eq _ ▸ Nat.lt_of_lt_of_le hq hlen)]
    exact ⟨rfl, Ctx.elem_lt _ _ _ _⟩
  · exact ⟨rfl, Nat.two_pow_pos _⟩

theorem State.sweeps_iota {b : VSrc} :
    s.Sweeps .iota d a b p (vtN s.me.ctx.vtype) (vtW s.me.ctx.vtype) (vtMz s.me.ctx.vtype) (s.me.ctx.activeAt p) fun j =>
      quietElt (j % 2 ^ vtW s.me.ctx.vtype) := by
  intro e c hcap _ _
  refine ⟨_, _, (VEntry.compute_iota c hcap.op).trans (by unfold VEntry.index; rw [hcap.vtype]), fun i hi => ?_⟩
  exact ⟨hcap.active c i (Nat.lt_of_lt_of_le hi hlen), fun _ => ⟨rfl, Nat.mod_lt _ (Nat.two_pow_pos _)⟩⟩

theorem State.sweeps_bcast {x : Word} :
    s.Sweeps .bcast d a (.scalar x) p (vtN s.me.ctx.vtype) (vtW s.me.ctx.vtype) (vtMz s.me.ctx.vtype) (s.me.ctx.activeAt p) fun _ =>
      quietElt (x.toNat % 2 ^ vtW s.me.ctx.vtype) := by
  intro e c hcap hv _
  refine ⟨_, _, (VEntry.compute_bcast c hcap.op).trans (by unfold VEntry.broadcast; rw [hcap.vtype]), fun i hi => ?_⟩
  have hmax : i < vlMax s.me.ctx.vtype := Nat.lt_of_lt_of_le hi hlen
  refine ⟨hcap.active c i hmax, fun _ => ⟨?_, Nat.mod_lt _ (Nat.two_pow_pos _)⟩⟩
  exact congrArg quietElt (hcap.bElem hv (vtW_dvd _) (vlMax_eq _ ▸ hmax))

theorem State.sweeps_move {b : VSrc} :
    s.Sweeps .move d a b p (vtN s.me.ctx.vtype) (vtW s.me.ctx.vtype) (vtMz s.me.ctx.vtype) (s.me.ctx.activeAt p) fun j =>
      quietElt (s.me.ctx.elem a.toNat (vtW s.me.ctx.vtype) j) :=
  State.sweeps_plain hlen (f := fun _ A _ _ _ => quietElt A) (fun _ c hcap => VEntry.compute_move c hcap.op)
    fun _ _ _ _ => ⟨rfl, Ctx.elem_lt _ _ _ _⟩

end

/-! ## Packing elements (06_vector_arithmetic.md R183) -/

theorem popNat_eq_length (n m : Nat) : popNat n m = ((List.range n).filter fun j => m.testBit j).length := by
  induction n with
  | zero => rfl
  | succ n ih =>
    rw [popNat_succ, ih, List.range_succ, List.filter_append, List.length_append]
    cases h : m.testBit n <;> simp [List.filter, h]

/-- Packing puts the picked elements at the places from `k` on and counts them. -/
theorem compressFrom_eq (w ga m : Nat) (n i k g : Nat) :
    (compressFrom w ga m n i k g).2 = k + ((List.range' i n).filter fun j => m.testBit j).length ∧
      ∀ j, elemAt w (compressFrom w ga m n i k g).1 j =
        if k ≤ j ∧ j < k + ((List.range' i n).filter fun j => m.testBit j).length then
          elemAt w ga (((List.range' i n).filter fun j => m.testBit j).getD (j - k) 0)
        else elemAt w g j := by
  induction n generalizing i k g with
  | zero => exact ⟨rfl, fun j => (if_neg (by simp only [List.range'_zero, List.filter_nil, List.length_nil]; omega)).symm⟩
  | succ n ih =>
    rw [compressFrom, List.range'_succ, List.filter_cons]
    split
    · obtain ⟨hcount, helem⟩ := ih (i + 1) (k + 1) (setElem w g k (elemAt w ga i))
      rw [hcount, List.length_cons]
      refine ⟨by omega, fun j => ?_⟩
      rw [helem, elemAt_setElem (elemAt_lt _ _ _)]
      obtain hj | rfl | hj := Nat.lt_trichotomy j k
      · rw [if_neg (by omega), if_neg (by omega), if_neg (by omega)]
      · rw [if_neg (by omega), if_pos rfl, if_pos (by omega), Nat.sub_self, List.getD_cons_zero]
      · rw [if_neg (show j ≠ k by omega), show j - k = j - (k + 1) + 1 by omega, List.getD_cons_succ]
        exact ite_congr (propext (by omega)) (fun _ => rfl) fun _ => rfl
    · exact ih (i + 1) k g

theorem range_max (p n : Nat) : List.range (max p n) = List.range p ++ List.range' p (n - p) := by
  rw [List.range_eq_range', List.range_eq_range', show max p n = p + (n - p) by omega, ← List.range'_append_1, Nat.zero_add]

/-- The places, below vstart or vl, whose bit of mask `b` is set. -/
def Ctx.chosen (c : Ctx) (b : BitVec 5) : List Nat := (List.range (max c.vstart.toNat (vlLen c.vl))).filter fun j => c.maskBit b.toNat j

/-- How many of them lie below vstart: the places already packed. -/
def Ctx.chosenBefore (c : Ctx) (b : BitVec 5) : Nat := ((List.range c.vstart.toNat).filter fun j => c.maskBit b.toNat j).length

/-- What vcompress writes into element `j`. -/
def Ctx.compressRule (c : Ctx) (a b : BitVec 5) (j : Nat) : Option Nat :=
  if c.chosenBefore b ≤ j ∧ j < (c.chosen b).length then some (c.elem a.toNat (vtW c.vtype) ((c.chosen b).getD j 0))
  else if vtTz c.vtype ∧ c.vstart.toNat < vlLen c.vl ∧ (c.chosen b).length ≤ j ∧ j < vlMax c.vtype then some 0 else none

/-- Nothing is packed by a form that begins at or above vl (05_lanes.md R132). -/
theorem Ctx.compressRule_idle {c : Ctx} (h : vlLen c.vl ≤ c.vstart.toNat) (a b : BitVec 5) (j : Nat) : c.compressRule a b j = none := by
  have same : (c.chosen b).length = c.chosenBefore b := by rw [Ctx.chosen, Nat.max_eq_left h, Ctx.chosenBefore]
  rw [Ctx.compressRule, if_neg (by omega), if_neg (by omega)]

/-- The chosen places by a number that holds the mask's bits: those below vstart, then those that the instruction packs. -/
theorem Ctx.chosen_eq {c : Ctx} {b : BitVec 5} {m : Nat} (hpos : c.vstart.toNat < vlLen c.vl)
    (hbit : ∀ i < vlLen c.vl, m.testBit i = c.maskBit b.toNat i) :
    popNat c.vstart.toNat m = c.chosenBefore b ∧
      c.chosen b = ((List.range c.vstart.toNat).filter fun j => c.maskBit b.toNat j) ++
        (List.range' c.vstart.toNat (vlLen c.vl - c.vstart.toNat)).filter fun j => m.testBit j := by
  refine ⟨?_, ?_⟩
  · rw [popNat_eq_length, Ctx.chosenBefore, List.filter_congr fun j hj => hbit j (by have := List.mem_range.mp hj; omega)]
  · rw [Ctx.chosen, range_max, List.filter_append]
    refine congrArg _ (List.filter_congr fun j hj => (hbit j ?_).symm)
    have := List.mem_range'_1.mp hj
    omega

/-- Element `j` after packing: `picked` from place `k` on, and zero above it where the tail is cleared. -/
theorem elemAt_compress {w ga m n i k g hi : Nat} {picked : List Nat} (hpicked : (List.range' i n).filter (fun j => m.testBit j) = picked)
    (tail : Bool) (j : Nat) :
    elemAt w (if tail then clearBits ((compressFrom w ga m n i k g).2 * w) (hi * w) (compressFrom w ga m n i k g).1
        else (compressFrom w ga m n i k g).1) j =
      if k ≤ j ∧ j < k + picked.length then elemAt w ga (picked.getD (j - k) 0)
      else if tail = true ∧ k + picked.length ≤ j ∧ j < hi then 0 else elemAt w g j := by
  obtain ⟨hcount, helem⟩ := compressFrom_eq w ga m n i k g
  rw [hpicked] at hcount helem
  cases tail with
  | true =>
    rw [if_pos rfl, elemAt_clearBits, hcount, helem]
    simp only [true_and]
    by_cases h : k ≤ j ∧ j < k + picked.length
    · rw [if_neg (by omega), if_pos h, if_pos h]
    · rw [if_neg h, if_neg h]
  | false =>
    rw [if_neg Bool.false_ne_true, helem]
    simp only [Bool.false_eq_true, false_and, if_false]

/-- Element `j` after packing `picked` behind the places that were packed before. -/
theorem Ctx.compressRule_getD {c : Ctx} {a b : BitVec 5} {picked : List Nat} (hpos : c.vstart.toNat < vlLen c.vl)
    (hchosen : c.chosen b = ((List.range c.vstart.toNat).filter fun j => c.maskBit b.toNat j) ++ picked) (j old : Nat) :
    (if c.chosenBefore b ≤ j ∧ j < c.chosenBefore b + picked.length then
        c.elem a.toNat (vtW c.vtype) (picked.getD (j - c.chosenBefore b) 0)
      else if (vtTz c.vtype && vlLen c.vl != 0 && vlLen c.vl == vlLen c.vl) = true ∧ c.chosenBefore b + picked.length ≤ j ∧ j < vlMax c.vtype then 0
      else old) = (c.compressRule a b j).getD old := by
  have hcount : (c.chosen b).length = c.chosenBefore b + picked.length := by rw [hchosen, List.length_append]; rfl
  rw [Ctx.compressRule, ← hcount]
  by_cases hin : c.chosenBefore b ≤ j ∧ j < (c.chosen b).length
  · have same : (c.chosen b).getD j 0 = picked.getD (j - c.chosenBefore b) 0 := by
      rw [hchosen]
      exact congrArg (Option.getD · 0) (List.getElem?_append_right hin.1)
    rw [if_pos hin, if_pos hin, same]
    rfl
  · have clears : (vtTz c.vtype && vlLen c.vl != 0 && vlLen c.vl == vlLen c.vl) = true ↔ vtTz c.vtype = true ∧ c.vstart.toNat < vlLen c.vl := by
      simp only [beq_self_eq_true, Bool.and_true, Bool.and_eq_true, bne_iff_ne, hpos, show vlLen c.vl ≠ 0 by omega, ne_eq, not_false_eq_true]
    rw [if_neg hin, if_neg hin]
    simp only [clears, and_assoc]
    split <;> rfl

/-- What a packing entry leaves in its group. -/
theorem VEntry.compress_spec {e : VEntry} {s : State} {d a b : BitVec 5} {p : BitVec 4} (hcap : e.Captures s .compress d a (.reg b) p) {c : Ctx}
    (hv : c.v = s.me.ctx.v) (hm : c.m = s.me.ctx.m) (hlen : vlLen s.me.ctx.vl ≤ vlMax s.me.ctx.vtype)
    (hrun : ¬(vlLen s.me.ctx.vl ≠ 0 ∧ vlLen s.me.ctx.vl ≤ s.me.ctx.vstart.toNat)) :
    ∃ g, e.compute c = c.setVGroup d.toNat (vtN s.me.ctx.vtype) g ∧ ∀ j < vtN s.me.ctx.vtype * 16384 / vtW s.me.ctx.vtype,
      elemAt (vtW s.me.ctx.vtype) g j = (s.me.ctx.compressRule a b j).getD (s.me.ctx.elem d.toNat (vtW s.me.ctx.vtype) j) := by
  have hread : ∀ (r : BitVec 5), ∀ i < vtN s.me.ctx.vtype * 16384 / vtW s.me.ctx.vtype,
      elemAt (vtW s.me.ctx.vtype) (c.vGroup r.toNat (vtN s.me.ctx.vtype)) i = s.me.ctx.elem r.toNat (vtW s.me.ctx.vtype) i := fun r i hi =>
    (c.elemAt_vGroup (vtW_dvd _) hi).trans (Ctx.elem_congr hv _ _ _)
  have hbit : ∀ i < vlLen s.me.ctx.vl, (c.mGroup b.toNat (maskRegs s.me.ctx.vtype)).testBit i = s.me.ctx.maskBit b.toNat i := fun i hi => by
    rw [c.testBit_mGroup (Nat.lt_of_lt_of_le hi (Nat.le_trans hlen (vlMax_le_maskRegs _))), Ctx.maskBit, hm, ← Ctx.maskBit]
  rw [VEntry.compute_compress c hcap.op]
  unfold VEntry.compress
  rw [hcap.vtype, hcap.b, hcap.pos, hcap.lim, hcap.d, hcap.a, hcap.vl]
  refine ⟨_, rfl, fun j hj => ?_⟩
  rw [elemAt_compress rfl, hread d j hj]
  by_cases hpos : s.me.ctx.vstart.toNat < vlLen s.me.ctx.vl
  · obtain ⟨hbefore, hchosen⟩ := Ctx.chosen_eq hpos hbit
    generalize hpicked : (List.range' s.me.ctx.vstart.toNat (vlLen s.me.ctx.vl - s.me.ctx.vstart.toNat)).filter
      (fun j => (c.mGroup b.toNat (maskRegs s.me.ctx.vtype)).testBit j) = picked at hchosen ⊢
    rw [hbefore, ← Ctx.compressRule_getD hpos hchosen]
    by_cases hin : s.me.ctx.chosenBefore b ≤ j ∧ j < s.me.ctx.chosenBefore b + picked.length
    · have hmem : picked.getD (j - s.me.ctx.chosenBefore b) 0 ∈ picked := by
        rw [List.getD_eq_getElem?_getD, List.getElem?_eq_getElem (by omega)]
        exact List.getElem_mem _
      rw [← hpicked, List.mem_filter, List.mem_range'_1] at hmem
      rw [if_pos hin, if_pos hin, ← hpicked, hread a _ (by rw [← vlMax_eq]; omega)]
    · rw [if_neg hin, if_neg hin]
  · have hzero : vlLen s.me.ctx.vl = 0 := Classical.byContradiction fun h => hrun ⟨h, Nat.le_of_not_lt hpos⟩
    have none : ¬(popNat s.me.ctx.vstart.toNat (c.mGroup b.toNat (maskRegs s.me.ctx.vtype)) ≤ j ∧
        j < popNat s.me.ctx.vstart.toNat (c.mGroup b.toNat (maskRegs s.me.ctx.vtype)) + 0) := by omega
    rw [Ctx.compressRule_idle (Nat.le_of_not_lt hpos), hzero, Nat.zero_sub, List.range'_zero, List.filter_nil, List.length_nil, if_neg none,
      if_neg (by simp)]
    rfl

/-- A packing form, where it may not issue and what it writes. -/
theorem compressForm_acts (d a b : BitVec 5) (s s1 : State) :
    VActs s s1 (.vcompress d a b) (decide (b.toNat ≤ 7) && maskOk s.me.ctx.vtype b.toNat &&
        apartOk s.me.ctx.vtype d a (vtN s.me.ctx.vtype) (vtN s.me.ctx.vtype) (.scalar 0#64) 0#4) 4 d (vtN s.me.ctx.vtype) (vtW s.me.ctx.vtype)
            0#6 false
      (s.me.ctx.compressRule a b) := by
  have he : exec (.vcompress d a b) s = .next (s.vIssue (s.capture .compress d a (.reg b) 0#4) 4 (decide (b.toNat ≤ 7) &&
      maskOk s.me.ctx.vtype b.toNat &&
      apartOk s.me.ctx.vtype d a (vtN s.me.ctx.vtype) (vtN s.me.ctx.vtype) (.scalar 0#64) 0#4) (vBits d (vtN s.me.ctx.vtype)) (.v d) false) := rfl
  refine ⟨vStops_of_vIssue he, fun h => ?_⟩
  obtain ⟨-, hshape, hlegal, -⟩ := id h
  have hd := groupOk_add_le (apartOk_group (Bool.and_eq_true_iff.mp hlegal).2)
  obtain ⟨t, flags, ht, only, hm, hstatus, rfl, helem⟩ := exec_commits (P := fun v m status flags => m = s.me.ctx.m ∧ status = s.me.ctx.status ∧
      flags = 0#6 ∧ GroupWritten s.me.ctx d.toNat (vtN s.me.ctx.vtype) (vtW s.me.ctx.vtype) (s.me.ctx.compressRule a b) v) he rfl h
    (fun hidle => ⟨rfl, rfl, rfl, .none fun j => Ctx.compressRule_idle hidle a b j⟩)
    (fun hrun e c hcap hv hm hstatus => by
      obtain ⟨g, heq, hg⟩ := VEntry.compress_spec hcap hv hm (vlLen_le_vlMax hshape) hrun
      rw [Ctx.setVGroup_eq] at heq
      exact ⟨_, c.m, c.status, 0#6, heq.trans (by rw [fcrMerge_zero]), hm, hstatus, rfl, .setRegs hv (vtW_dvd _) hd hg⟩)
  rw [hm, hstatus] at only
  exact ⟨t, ht, only, helem.elements⟩

/-- Settles O31: slides, gathers, indices, broadcasts and copies element by element, vcompress by the places it picks. -/
theorem permutesMoveElements : Obligations.PermutesMoveElements := by
  intro d a b p s s1
  refine ⟨?_, ?_, ?_, ?_, ?_, ?_⟩
  · exact vApart_quiet (op := .slide) (b := .scalar (s.x b)) s1 rfl rfl apartOk_group fun hlen => State.sweeps_slide hlen
  · exact vApart_quiet (op := .gather) (b := .reg b) s1 rfl rfl (fun h => apartOk_group (Bool.and_eq_true_iff.mp h).2) fun hlen =>
      State.sweeps_gather hlen
  · exact vPlain_quiet (types := fun et => decide (et ≤ 7)) s1 rfl rfl fun hlen => State.sweeps_iota hlen
  · have broadcasts := vPlain_quiet (i := .vbcast d a p) (s := s) (op := .bcast) (types := fun _ => true) (a := d) (b := .scalar (s.x a))
      s1 rfl rfl fun hlen =>
      State.sweeps_bcast hlen
    exact broadcasts
  · have copies := vPlain_quiet (i := .vmvv d a p) (s := s) (op := .move) (types := fun _ => true) (b := .scalar 0#64) s1 rfl rfl fun hlen =>
      State.sweeps_move hlen
    exact copies
  · exact compressForm_acts d a b s s1

end Sys2Proof.Machine
end

section
/-!
PROOFS. Compares and mask logic (06_vector_arithmetic.md R170 to R172, R184).
-/

namespace Sys2Proof.Machine

/-! ## Sweeping the bits of a mask (06_vector_arithmetic.md R170, R171) -/

/-- A bit after one bit is given the value `b`. -/
theorem testBit_put (g i j : Nat) (b : Bool) : (if g.testBit i = b then g else g ^^^ 2 ^ i).testBit j = if j = i then b else g.testBit j := by
  by_cases hb : g.testBit i = b
  · rw [if_pos hb]
    split
    · next hj => rw [hj, hb]
    · rfl
  · rw [if_neg hb, Nat.testBit_xor, Nat.testBit_two_pow]
    split
    · next hj => rw [hj, decide_eq_true rfl, Bool.xor_true, Bool.not_eq.mpr hb]
    · next hj => rw [decide_eq_false (Ne.symm hj), Bool.xor_false]

theorem testBit_maskSweep (f : Nat → Option Bool) (n i g j : Nat) :
    (maskSweep f n i g).testBit j = if i ≤ j ∧ j < i + n then (f j).getD (g.testBit j) else g.testBit j := by
  induction n generalizing i g with
  | zero => rw [maskSweep, if_neg (by omega)]
  | succ n ih =>
    rw [maskSweep, ih]
    by_cases hj : j = i
    · subst hj
      rw [if_neg (by omega), if_pos (by omega)]
      cases f j with
      | none => rfl
      | some b => exact (testBit_put g j j b).trans (if_pos rfl)
    · have hrange : i + 1 ≤ j ∧ j < i + 1 + n ↔ i ≤ j ∧ j < i + (n + 1) := by omega
      simp only [hrange]
      cases f i with
      | none => rfl
      | some b => rw [testBit_put, if_neg hj]

/-- What a sweep of a mask writes into bit `j`: what `F` says from vstart to vl, and zero in a tail that tz clears. -/
def Ctx.maskRule (c : Ctx) (F : Nat → Option Bool) (j : Nat) : Option Bool :=
  if decide (c.vstart.toNat ≤ j) && decide (j < vlLen c.vl) then F j else if c.clears j then some false else none

/-- What a group of mask registers reads once `rule` has written them, and what the registers around it keep. -/
def MaskWritten (c : Ctx) (d n : Nat) (rule : Nat → Option Bool) (m : Vector (BitVec 2048) 8) : Prop :=
  (∀ r : Fin 8, r.val < d ∨ d + n ≤ r.val → m[r] = c.m[r]) ∧
    ∀ i, i < n * 2048 → ({ c with m := m } : Ctx).maskBit d i = (rule i).getD (c.maskBit d i)

theorem MaskWritten.none {c : Ctx} {d n : Nat} {rule : Nat → Option Bool} (h : ∀ i, rule i = none) : MaskWritten c d n rule c.m :=
  ⟨fun _ _ => rfl, fun i _ => by rw [h]; rfl⟩

theorem MaskWritten.maskBits {s t : State} {d n : Nat} {rule : Nat → Option Bool} (h : MaskWritten s.me.ctx d n rule t.me.ctx.m) :
    MaskBits s t d n rule := h

/-- A mask group is written by the number that holds its bits. -/
theorem MaskWritten.setRegs {c : Ctx} {d n g : Nat} {rule : Nat → Option Bool} {m : Vector (BitVec 2048) 8} (hm : m = c.m) (hd : d + n ≤ 8)
    (h : ∀ i < n * 2048, g.testBit i = (rule i).getD (c.maskBit d i)) : MaskWritten c d n rule (setRegs (by decide) m d n g) := by
  subst hm
  refine ⟨fun r hr => ?_, fun i hi => ?_⟩
  · have outside := c.setMGroup_m_outside (g := g) hd r hr
    rwa [Ctx.setMGroup_eq] at outside
  · have written := c.maskBit_setMGroup (g := g) hd hi
    rw [Ctx.setMGroup_eq] at written
    exact written.trans (h i hi)

theorem Ctx.maskRule_idle {c : Ctx} (h : vlLen c.vl ≤ c.vstart.toNat) (F : Nat → Option Bool) (j : Nat) : c.maskRule F j = none := by
  have hclears : c.clears j = false := by rw [Ctx.clears, decide_eq_false (Nat.not_lt.mpr h), Bool.and_false, Bool.false_and, Bool.false_and]
  rw [Ctx.maskRule, if_neg (by rw [← Bool.decide_and, decide_eq_true_eq]; omega), hclears]
  rfl

/-- The tail of a mask whose entry ends at vl. -/
theorem VEntry.testBit_tailed {e : VEntry} (hlim : e.lim = vlLen e.vl) (g j : Nat) : (e.tailed 1 g).testBit j =
    (g.testBit j && !(vtTz e.vtype && vlLen e.vl != 0 && decide (vlLen e.vl ≤ j) && decide (j < vlMax e.vtype))) := by
  rw [VEntry.tailed, if_neg (by omega), Machine.tailed]
  cases (vtTz e.vtype && vlLen e.vl != 0) with
  | true => rw [if_pos rfl, testBit_clearBits, Nat.mul_one, Nat.mul_one, Bool.true_and]
  | false => rw [if_neg Bool.false_ne_true, Bool.false_and, Bool.false_and, Bool.not_false, Bool.and_true]

/-- Bit `j` after a sweep that runs. -/
theorem Ctx.maskRule_getD {c : Ctx} (h : ¬(vlLen c.vl ≠ 0 ∧ vlLen c.vl ≤ c.vstart.toNat)) (F : Nat → Option Bool) (j : Nat) (old : Bool) :
    ((if c.vstart.toNat ≤ j ∧ j < c.vstart.toNat + (vlLen c.vl - c.vstart.toNat) then (F j).getD old else old) &&
      !(vtTz c.vtype && vlLen c.vl != 0 && decide (vlLen c.vl ≤ j) && decide (j < vlMax c.vtype))) = (c.maskRule F j).getD old := by
  rw [Ctx.maskRule, ← Bool.decide_and]
  by_cases hr : c.vstart.toNat ≤ j ∧ j < vlLen c.vl
  · rw [if_pos (by omega), if_pos (decide_eq_true hr), decide_eq_false (by omega : ¬vlLen c.vl ≤ j), Bool.and_false, Bool.false_and, Bool.not_false,
      Bool.and_true]
  · have hstarts : (vlLen c.vl != 0) = decide (c.vstart.toNat < vlLen c.vl) := by
      rw [Bool.eq_iff_iff, bne_iff_ne, decide_eq_true_eq]
      omega
    rw [if_neg (by omega), if_neg fun hc => hr (of_decide_eq_true hc), hstarts, ← Ctx.clears]
    cases c.clears j with
    | true => exact Bool.and_false _
    | false => exact Bool.and_true _

/-- An operation of this instruction sweeps its destination mask with `F`, raising `flags`. -/
def State.SweepsMask (s : State) (op : VOp) (d a : BitVec 5) (b : VSrc) (p : BitVec 4) (F : Nat → Option Bool) (flags : FFlags) : Prop :=
  ∀ e c, VEntry.Captures e s op d a b p → c.v = s.me.ctx.v → c.m = s.me.ctx.m →
    ∃ f, e.compute c = (c.setMGroup d.toNat (maskRegs s.me.ctx.vtype) (e.tailed 1 (maskSweep f (vlLen s.me.ctx.vl - s.me.ctx.vstart.toNat)
        s.me.ctx.vstart.toNat (c.mGroup d.toNat (maskRegs s.me.ctx.vtype))))).noteFlags flags false ∧
      ∀ i < vlLen s.me.ctx.vl, f i = F i

/-- What the statements say of an instruction with a mask destination. -/
def MaskActs (s s1 : State) (i : Instr) (legal : Bool) (d : BitVec 5) (flags : FFlags) (rule : Nat → Option Bool) : Prop :=
  VStops s i legal ∧ (VIssues s legal (mBits d.toNat (maskRegs s.me.ctx.vtype)) s1 → ∃ u, exec i s = .next u ∧
    OnlyMask s s1 u (mBits d.toNat (maskRegs s.me.ctx.vtype)) flags ∧ MaskBits s u d.toNat (maskRegs s.me.ctx.vtype) rule)

/-- A sweep of a mask acts as the statements say. -/
theorem maskActs_of_sweeps {i : Instr} {s : State} (s1 : State) {op : VOp} {legal : Bool} {d a : BitVec 5} {b : VSrc} {p : BitVec 4}
    {F : Nat → Option Bool} {flags : FFlags}
    (he : exec i s = .next (s.vIssue (s.capture op d a b p) 4 legal (mBits d.toNat (maskRegs s.me.ctx.vtype)) .none false))
    (hop : op.onlyElements = true) (hgroup : legal = true → d.toNat + maskRegs s.me.ctx.vtype ≤ 8)
    (hflags : vlLen s.me.ctx.vl ≤ s.me.ctx.vstart.toNat → flags = 0#6)
    (hsweep : legal = true → vlLen s.me.ctx.vl ≤ vlMax s.me.ctx.vtype → s.SweepsMask op d a b p F flags) :
    MaskActs s s1 i legal d flags (s.me.ctx.maskRule F) := by
  refine ⟨vStops_of_vIssue he, fun h => ?_⟩
  obtain ⟨-, hshape, hlegal, -⟩ := id h
  obtain ⟨t, fl, ht, only, hv, hstatus, rfl, hbits⟩ := exec_commits (P := fun v m status fl => v = s.me.ctx.v ∧ status = s.me.ctx.status ∧
      fl = flags ∧ MaskWritten s.me.ctx d.toNat (maskRegs s.me.ctx.vtype) (s.me.ctx.maskRule F) m) he hop h
    (fun hidle => ⟨rfl, rfl, (hflags hidle).symm, .none fun j => Ctx.maskRule_idle hidle F j⟩)
    (fun hrun e c hcap hv hm hstatus => by
      obtain ⟨f, heq, hF⟩ := hsweep hlegal (vlLen_le_vlMax hshape) e c hcap hv hm
      rw [Ctx.setMGroup_eq] at heq
      refine ⟨c.v, _, c.status, flags, heq, hv, hstatus, rfl, .setRegs hm (hgroup hlegal) fun j hj => ?_⟩
      have old : (c.mGroup d.toNat (maskRegs s.me.ctx.vtype)).testBit j = s.me.ctx.maskBit d.toNat j := by
        rw [c.testBit_mGroup hj, Ctx.maskBit, hm, ← Ctx.maskBit]
      rw [VEntry.testBit_tailed (by rw [hcap.lim, hcap.vl]), testBit_maskSweep, old, hcap.vtype, hcap.vl, ← Ctx.maskRule_getD hrun]
      by_cases hr : s.me.ctx.vstart.toNat ≤ j ∧ j < s.me.ctx.vstart.toNat + (vlLen s.me.ctx.vl - s.me.ctx.vstart.toNat)
      · rw [if_pos hr, if_pos hr, hF j (by omega)]
      · rw [if_neg hr, if_neg hr])
  rw [hstatus] at only
  exact ⟨t, ht, ⟨only, hv⟩, hbits.maskBits⟩

/-! ## The conditions of compares (06_vector_arithmetic.md Table 6.8) -/

theorem ltNum_asymm {p q : Num} (h : ltNum p q = true) : ltNum q p = false := by
  cases p <;> cases q <;> simp only [ltNum, Bool.and_eq_true, Bool.not_eq_true', decide_eq_true_eq, Bool.false_eq_true] at h
  case inf.inf => obtain ⟨rfl, rfl⟩ := h; rfl
  case inf.fin => subst h; rfl
  case fin.inf => subst h; rfl
  case fin.fin =>
    rw [ltNum, Int.min_comm]
    exact decide_eq_false (Int.lt_asymm h)

/-- Of two numbers neither of which is a NaN, one is not below the other where it is above or equal. -/
theorem not_ltNum_eq {p q : Num} (hp : p.isNan = false) (hq : q.isNan = false) : (!ltNum q p) = (ltNum p q || eqNum p q) := by
  rw [eqNum, hp, hq]
  cases h : ltNum p q with
  | true => rw [ltNum_asymm h]; rfl
  | false => rfl

theorem eqNum_comm (p q : Num) : eqNum p q = eqNum q p := by
  rw [eqNum, eqNum, Bool.and_comm (!p.isNan), Bool.and_assoc _ (!ltNum p q), Bool.and_comm (!ltNum p q), ← Bool.and_assoc]

theorem isSignalling_iff (p : Num) : p.isSignalling = true ↔ p = .nan true := by
  cases p with
  | nan s => cases s <;> simp [Num.isSignalling]
  | inf n => simp [Num.isSignalling]
  | fin n m e => simp [Num.isSignalling]

/-- The flag of a compare: an order signals any NaN, the other conditions a signalling one. -/
theorem nan_flag_eq (order : Bool) (p q : Num) :
    (if (order = true ∧ (p.isNan || q.isNan) = true) ∨ p = .nan true ∨ q = .nan true then (16#6 : FFlags) else 0#6) =
      flagIf (if order then p.isNan || q.isNan else p.isSignalling || q.isSignalling) fnv := by
  cases order with
  | false => simp only [flagIf, Bool.or_eq_true, isSignalling_iff, Bool.false_eq_true, false_and, false_or, if_false]; rfl
  | true =>
    have signals : p = .nan true ∨ q = .nan true → (p.isNan || q.isNan) = true := by
      rintro (rfl | rfl)
      · rfl
      · exact Bool.or_true _
    exact ite_congr (propext ⟨fun h => h.elim And.right signals, fun h => .inl ⟨rfl, h⟩⟩) (fun _ => rfl) fun _ => rfl

theorem floatCond_eq {c : Nat} (hc : c ≤ 7) (p q : Num) : floatCond c p q = floatCondition c p q := by
  have ordered : ∀ p q : Num, (!(p.isNan || q.isNan) && !ltNum q p) = (!(p.isNan || q.isNan) && (ltNum p q || eqNum p q)) := fun p q => by
    cases hp : p.isNan <;> cases hq : q.isNan <;> first | rfl | rw [not_ltNum_eq hp hq]
  have reversed : (!(p.isNan || q.isNan) && !ltNum p q) = (!(p.isNan || q.isNan) && (ltNum q p || eqNum p q)) := by
    rw [Bool.or_comm p.isNan, ordered q p, eqNum_comm]
  have unordered : (!eqNum p q) = (p.isNan || q.isNan || !eqNum p q) := by
    rw [eqNum]
    cases p.isNan <;> cases q.isNan <;> rfl
  unfold floatCondition
  dsimp only
  rw [← Bool.decide_and, nan_flag_eq]
  match c, hc with
  | 0, _ => rfl
  | 1, _ => exact congrArg (·, _) unordered
  | 2, _ => rfl
  | 3, _ => exact congrArg (·, _) (ordered p q)
  | 4, _ => rfl
  | 5, _ => exact congrArg (·, _) reversed
  | 6, _ => rfl
  | 7, _ => rfl

theorem intCond_eq {c : Nat} (hc : c ≤ 5) (t : Elem) (fcr : Word) {A B : Nat} (hA : A < 2 ^ t.width) (hB : B < 2 ^ t.width) :
    cmpOp false c t fcr A B = (intCondition c (value t.isSigned t.width A) (value t.isSigned t.width B), 0#6) := by
  unfold cmpOp
  rw [if_neg Bool.false_ne_true]
  dsimp only
  rw [intRead_eq_value hA, intRead_eq_value hB]
  match c, hc with
  | 0, _ => rfl
  | 1, _ => exact congrArg (·, _) decide_not.symm
  | 2, _ => rfl
  | 3, _ => rfl
  | 4, _ => rfl
  | 5, _ => rfl

/-! ## Compares (06_vector_arithmetic.md R170) -/

theorem VEntry.compute_cmp {e : VEntry} {float : Bool} {k : BitVec 4} (h : e.op = .cmp float k) (c : Ctx) :
    e.compute c = e.compare c float k.toNat := by rw [VEntry.compute, h]

theorem foldl_congr_of_mem {α β : Type} {f g : β → α → β} (l : List α) (acc : β) (h : ∀ b, ∀ x ∈ l, f b x = g b x) : l.foldl f acc = l.foldl g acc := by
  induction l generalizing acc with
  | nil => rfl
  | cons x l ih =>
    rw [List.foldl_cons, List.foldl_cons, h acc x List.mem_cons_self]
    exact ih _ fun b y hy => h b y (List.mem_cons_of_mem x hy)

/-- The flags that a compare gathers, place by place, are those of the elements that it computes. -/
theorem foldl_raised {c : Ctx} {p : BitVec 4} {act : Nat → Bool} {r flags : Nat → FFlags}
    (h : ∀ i < vlLen c.vl, act i = c.activeAt p i ∧ r i = flags i) :
    (List.range (vlLen c.vl - c.vstart.toNat)).foldl
      (fun acc k => if act (c.vstart.toNat + k) then acc ||| r (c.vstart.toNat + k) else acc) 0#6 = c.raised p flags := by
  rw [Ctx.raised_eq, Ctx.swept, ← filter_range', List.foldl_filter, List.range'_eq_map_range, List.foldl_map]
  refine foldl_congr_of_mem _ _ fun acc k hk => ?_
  obtain ⟨hact, hr⟩ := h (c.vstart.toNat + k) (by have := List.mem_range.mp hk; omega)
  rw [hact, hr]

/-- What a compare gives bit `j`: its condition where the element is active, zero where it is not and mz is set. -/
def Ctx.compareBit (c : Ctx) (p : BitVec 4) (op : Nat → Bool × FFlags) (j : Nat) : Option Bool :=
  if c.activeAt p j then some (op j).1 else if vtMz c.vtype then some false else none

theorem State.sweepsMask_compare {s : State} {float : Bool} {d a : BitVec 5} {k p : BitVec 4} {b : VSrc} {op : Nat → Bool × FFlags}
    (hlen : vlLen s.me.ctx.vl ≤ vlMax s.me.ctx.vtype)
    (hop : ∀ j, cmpOp float k.toNat (vtElem s.me.ctx.vtype) s.me.ctx.fcr (s.me.ctx.elem a.toNat (vtW s.me.ctx.vtype) j)
      (b.at s.me.ctx (vtW s.me.ctx.vtype) j) = op j) :
    s.SweepsMask (.cmp float k) d a b p (s.me.ctx.compareBit p op) (s.me.ctx.raised p fun j => (op j).2) := by
  intro e c hcap hv _
  have hresult : ∀ i < vlLen s.me.ctx.vl, cmpOp float k.toNat (vtElem s.me.ctx.vtype) s.me.ctx.fcr
      (elemAt (vtW s.me.ctx.vtype) (c.vGroup e.a.toNat (vtN s.me.ctx.vtype)) i)
      (e.bElem c (vtN s.me.ctx.vtype) (vtW s.me.ctx.vtype) i) = op i := fun i hi => by
    have hgroup := vlMax_eq s.me.ctx.vtype ▸ Nat.lt_of_lt_of_le hi hlen
    rw [hcap.elemAt_a hv (vtW_dvd _) hgroup, hcap.bElem hv (vtW_dvd _) hgroup, hop]
  have hactive : ∀ i < vlLen s.me.ctx.vl, e.active c i = s.me.ctx.activeAt p i := fun i hi => hcap.active c i (Nat.lt_of_lt_of_le hi hlen)
  refine ⟨fun i => if e.active c i then some (cmpOp float k.toNat (vtElem s.me.ctx.vtype) s.me.ctx.fcr
      (elemAt (vtW s.me.ctx.vtype) (c.vGroup e.a.toNat (vtN s.me.ctx.vtype)) i) (e.bElem c (vtN s.me.ctx.vtype) (vtW s.me.ctx.vtype) i)).1
    else if vtMz s.me.ctx.vtype then some false else none, ?_, fun i hi => ?_⟩
  · rw [VEntry.compute_cmp hcap.op, ← foldl_raised fun i hi => ⟨hactive i hi, congrArg Prod.snd (hresult i hi)⟩]
    unfold VEntry.compare
    rw [hcap.vtype, hcap.fcr, hcap.pos, hcap.lim, hcap.d]
    rfl
  · dsimp only
    rw [hactive i hi, hresult i hi, Ctx.compareBit]

/-- The statement's reading of a compare's bits: a computed bit has its condition. -/
theorem Ctx.maskRule_compareBit (c : Ctx) (p : BitVec 4) (op : Nat → Bool × FFlags) : c.maskRule (c.compareBit p op) = fun j =>
    if c.computes p j then some (op j).1
    else if decide (c.vstart.toNat ≤ j) && decide (j < vlLen c.vl) && vtMz c.vtype then some false
    else if c.clears j then some false else none := by
  funext j
  rw [Ctx.maskRule, Ctx.compareBit, Ctx.computes]
  by_cases h : (decide (c.vstart.toNat ≤ j) && decide (j < vlLen c.vl)) = true
  · rw [if_pos h, h, Ctx.clears_of_lt (by rw [Bool.and_eq_true, decide_eq_true_eq, decide_eq_true_eq] at h; exact h.2)]
    rfl
  · rw [if_neg h, Bool.eq_false_iff.mpr h]
    rfl

theorem Ctx.raised_idle {c : Ctx} (h : vlLen c.vl ≤ c.vstart.toNat) (p : BitVec 4) (flags : Nat → FFlags) : c.raised p flags = 0#6 := by
  rw [Ctx.raised_eq, Ctx.swept_idle h]
  rfl

/-- A compare at issue, with its legality as the statements put it. -/
theorem State.vCompare_eq (s : State) (float : Bool) (d a b : BitVec 5) (k : BitVec 1) (e p : BitVec 4) :
    s.vCompare float d a b k e p = s.vIssue (s.capture (.cmp float e) d a (if k = 1#1 then .scalar (s.x b) else .reg b) p) 4
      ((if float then floatEt (vtEt s.me.ctx.vtype) && decide (e.toNat ≤ 7) else decide (vtEt s.me.ctx.vtype ≤ 7) && decide (e.toNat ≤ 5)) &&
        (decide (d.toNat ≤ 7) && maskOk s.me.ctx.vtype d.toNat && groupOk a (vtN s.me.ctx.vtype) &&
          (decide (k = 1#1) || groupOk b (vtN s.me.ctx.vtype)) && predOk s.me.ctx.vtype p))
      (mBits d.toNat (maskRegs s.me.ctx.vtype)) .none false := by
  unfold State.vCompare
  by_cases hk : k = 1#1
  · simp only [hk, if_true, decide_true, Bool.true_or, Bool.and_true, Bool.and_assoc]
    rfl
  · simp only [if_neg hk, decide_eq_false hk, Bool.false_or, Bool.and_assoc]
    rfl

theorem compare_acts {s : State} (s1 : State) {i : Instr} {float : Bool} {d a b : BitVec 5} {k : BitVec 1} {e p : BitVec 4} {types : Bool}
    {op : Nat → Bool × FFlags} (he : exec i s = .next (s.vCompare float d a b k e p))
    (htypes : (if float then floatEt (vtEt s.me.ctx.vtype) && decide (e.toNat ≤ 7)
      else decide (vtEt s.me.ctx.vtype ≤ 7) && decide (e.toNat ≤ 5)) = types)
    (hop : types = true → ∀ j, cmpOp float e.toNat (vtElem s.me.ctx.vtype) s.me.ctx.fcr (s.me.ctx.elem a.toNat (vtW s.me.ctx.vtype) j)
      ((if k = 1#1 then VSrc.scalar (s.x b) else .reg b).at s.me.ctx (vtW s.me.ctx.vtype) j) = op j) :
    MaskActs s s1 i (types && (decide (d.toNat ≤ 7) && maskOk s.me.ctx.vtype d.toNat && groupOk a (vtN s.me.ctx.vtype) &&
        (decide (k = 1#1) || groupOk b (vtN s.me.ctx.vtype)) && predOk s.me.ctx.vtype p)) d (s.me.ctx.raised p fun j => (op j).2)
      (s.me.ctx.maskRule (s.me.ctx.compareBit p op)) := by
  rw [State.vCompare_eq, htypes] at he
  refine maskActs_of_sweeps s1 he rfl (fun h => ?_) (fun hidle => Ctx.raised_idle hidle p _) fun h hlen =>
    State.sweepsMask_compare hlen (hop (Bool.and_eq_true_iff.mp h).1)
  simp only [Bool.and_eq_true, decide_eq_true_eq] at h
  obtain ⟨-, ⟨⟨⟨hd, hmask⟩, -⟩, -⟩, -⟩ := h
  exact maskOk_add_le hd hmask

/-! ## Mask logic (06_vector_arithmetic.md R171) -/

theorem VEntry.compute_mask {e : VEntry} {op : MaskOp} (h : e.op = .mask op) (c : Ctx) : e.compute c = e.maskOp c op := by
  rw [VEntry.compute, h]

theorem Ctx.noteFlags_none (c : Ctx) : c.noteFlags 0#6 false = c := by
  unfold Ctx.noteFlags
  rw [fcrMerge_zero]
  rfl

/-- A mask operation on two bits. -/
def MaskOp.bit : MaskOp → Bool → Bool → Bool
  | .and, x, y => x && y
  | .or, x, y => x || y
  | .xor, x, y => x != y
  | .not, x, _ => !x

theorem State.sweepsMask_logic {s : State} {op : MaskOp} {d a b : BitVec 5} {p : BitVec 4} (hlen : vlLen s.me.ctx.vl ≤ vlMax s.me.ctx.vtype) :
    s.SweepsMask (.mask op) d a (.reg b) p (fun j => some (op.bit (s.me.ctx.maskBit a.toNat j) (s.me.ctx.maskBit b.toNat j))) 0#6 := by
  intro e c hcap _ hm
  have hbit : ∀ (r : BitVec 5), ∀ i < vlLen s.me.ctx.vl, (c.mGroup r.toNat (maskRegs s.me.ctx.vtype)).testBit i = s.me.ctx.maskBit r.toNat i :=
    fun r i hi => by
      rw [c.testBit_mGroup (Nat.lt_of_lt_of_le hi (Nat.le_trans hlen (vlMax_le_maskRegs _))), Ctx.maskBit, hm, ← Ctx.maskBit]
  simp only [VEntry.compute_mask hcap.op, Ctx.noteFlags_none]
  unfold VEntry.maskOp
  rw [hcap.vtype, hcap.b, hcap.pos, hcap.lim, hcap.d, hcap.a]
  refine ⟨_, rfl, fun i hi => ?_⟩
  dsimp only
  rw [hbit a i hi, hbit b i hi]
  cases op <;> rfl

theorem maskLogic_acts {s : State} (s1 : State) {i : Instr} {op : MaskOp} {d a b : BitVec 5} (he : exec i s = .next (s.vMask op d a b)) :
    MaskActs s s1 i (decide (d.toNat ≤ 7) && decide (a.toNat ≤ 7) && decide (b.toNat ≤ 7) && maskOk s.me.ctx.vtype d.toNat &&
        maskOk s.me.ctx.vtype a.toNat && maskOk s.me.ctx.vtype b.toNat) d 0#6
      (s.me.ctx.maskRule fun j => some (op.bit (s.me.ctx.maskBit a.toNat j) (s.me.ctx.maskBit b.toNat j))) := by
  refine maskActs_of_sweeps s1 he rfl (fun h => ?_) (fun _ => rfl) fun _ hlen => State.sweepsMask_logic hlen
  simp only [Bool.and_eq_true, decide_eq_true_eq] at h
  obtain ⟨⟨⟨⟨⟨hd, -⟩, -⟩, hmask⟩, -⟩, -⟩ := h
  exact maskOk_add_le hd hmask

/-- mnot's second mask is m0, which is legal wherever its destination is. -/
theorem maskOk_zero {vt : Word} {k : Nat} (h : maskOk vt k = true) : maskOk vt 0 = true := by
  rw [maskOk, Bool.and_eq_true] at h ⊢
  exact ⟨h.1, by rw [Nat.zero_mod]; rfl⟩

theorem notLegal_eq (vt : Word) (d a : BitVec 5) :
    (decide (d.toNat ≤ 7) && decide (a.toNat ≤ 7) && decide ((0#5).toNat ≤ 7) && maskOk vt d.toNat && maskOk vt a.toNat && maskOk vt (0#5).toNat) =
      (decide (d.toNat ≤ 7) && decide (a.toNat ≤ 7) && maskOk vt d.toNat && maskOk vt a.toNat) := by
  cases hd : maskOk vt d.toNat with
  | false => simp
  | true => simp [maskOk_zero hd]

/-! ## Masks and elements read by the front end (06_vector_arithmetic.md R172, R184) -/

theorem vStops_of_vFront {i : Instr} {s : State} {legal : Bool} {d : BitVec 5} {v : Word} (he : exec i s = .next (s.vFront legal d v)) :
    VStops s i legal := by
  refine ⟨fun h => ?_, fun h hbad => ?_⟩
  · rw [he, State.vFront, if_pos h]
    rfl
  · have refuse : (!(shapeOk s.me.ctx.vl s.vt && legal)) = true := by
      rw [Bool.not_eq_true', Bool.and_eq_false_iff]
      exact hbad
    rw [he, State.vFront, if_neg (by rw [h]; exact Bool.false_ne_true), if_pos refuse]
    rfl

theorem vFront_writes {i : Instr} {s : State} {legal : Bool} {d : BitVec 5} {v w : Word} (he : exec i s = .next (s.vFront legal d v))
    (h : s.me.ctx.status.getLsbD 8 = false ∧ shapeOk s.me.ctx.vl s.me.ctx.vtype = true) (hlegal : legal = true) (hv : v = w) :
    ∃ t, exec i s = .next t ∧ Writes s t d w 4 := by
  obtain ⟨hon, hshape⟩ := h
  have hshape' : shapeOk s.me.ctx.vl s.vt = true := hshape
  refine ⟨s.write d v, ?_, hv ▸ s.write_writes d v⟩
  rw [he, State.vFront, hon, hshape', hlegal]
  rfl

/-- The bits below vl of a mask, as a number. -/
theorem State.testBit_maskBelow {s : State} (hlen : vlLen s.me.ctx.vl ≤ vlMax s.me.ctx.vtype) (a : BitVec 5) (j : Nat) :
    (s.maskBelow a).testBit j = (decide (j < vlLen s.me.ctx.vl) && s.me.ctx.maskBit a.toNat j) := by
  rw [State.maskBelow, Nat.testBit_mod_two_pow]
  by_cases h : j < vlLen s.me.ctx.vl
  · rw [show s.vt = s.me.ctx.vtype from rfl, Ctx.testBit_mGroup _ (Nat.lt_of_lt_of_le h (Nat.le_trans hlen (vlMax_le_maskRegs _)))]
  · rw [decide_eq_false h, Bool.false_and, Bool.false_and]

/-- The set bits of a mask below vl. -/
def Ctx.maskOnes (c : Ctx) (a : BitVec 5) : List Nat := (List.range (vlLen c.vl)).filter fun j => c.maskBit a.toNat j

theorem popNat_maskBelow {s : State} (hlen : vlLen s.me.ctx.vl ≤ vlMax s.me.ctx.vtype) (a : BitVec 5) :
    popNat (vlLen s.me.ctx.vl) (s.maskBelow a) = (s.me.ctx.maskOnes a).length := by
  rw [popNat_eq_length, Ctx.maskOnes]
  exact congrArg List.length (List.filter_congr fun j hj => by
    rw [State.testBit_maskBelow hlen, decide_eq_true (List.mem_range.mp hj), Bool.true_and])

/-- The lowest set bit of a mask below vl, all ones where there is none. -/
theorem first_maskBelow {s : State} (hlen : vlLen s.me.ctx.vl ≤ vlMax s.me.ctx.vtype) (a : BitVec 5) :
    (if s.maskBelow a = 0 then 0xFFFFFFFFFFFFFFFF#64 else BitVec.ofNat 64 (ctzNat (vlLen s.me.ctx.vl) (s.maskBelow a))) =
      ((s.me.ctx.maskOnes a).head?.map (BitVec.ofNat 64)).getD (BitVec.allOnes 64) := by
  have hbit := State.testBit_maskBelow hlen a
  cases hfirst : (s.me.ctx.maskOnes a).head? with
  | none =>
    rw [Ctx.maskOnes, List.head?_filter, List.find?_range_eq_none] at hfirst
    simp only [Bool.not_eq_true'] at hfirst
    have none : s.maskBelow a = 0 := Nat.eq_of_testBit_eq fun j => by
      rw [hbit, Nat.zero_testBit]
      by_cases hj : j < vlLen s.me.ctx.vl
      · rw [hfirst j hj, Bool.and_false]
      · rw [decide_eq_false hj, Bool.false_and]
    rw [if_pos none]
    rfl
  | some k =>
    rw [Ctx.maskOnes, List.head?_filter, List.find?_range_eq_some, List.mem_range] at hfirst
    simp only [Bool.not_eq_true'] at hfirst
    obtain ⟨hone, hk, hlow⟩ := hfirst
    have one : (s.maskBelow a).testBit k = true := by rw [hbit, decide_eq_true hk, hone, Bool.and_self]
    have low : ∀ i < k, (s.maskBelow a).testBit i = false := fun i hi => by rw [hbit, hlow i hi, Bool.and_false]
    rw [if_neg fun h => by rw [h, Nat.zero_testBit] at one; exact Bool.false_ne_true one, ctzNat_eq_of_testBit hk one low]
    rfl

/-- A scalar of an element, by its value. -/
theorem scalarOf_eq (t : Elem) {v : Nat} (h : v < 2 ^ t.width) : scalarOf t v = asScalar t v := by
  cases t with
  | int sg w =>
    cases sg with
    | true => exact congrArg (BitVec.ofInt 64) (intRead_eq_value h)
    | false => rfl
  | float f => rfl
  | lns6 => rfl
  | e8m0 => rfl

/-- Settles O29: compares and mask logic bit by bit, mpop, mfirst and vmvx by what they read. -/
theorem comparesAndMaskLogicWriteTheirResult : Obligations.ComparesAndMaskLogicWriteTheirResult := by
  refine ⟨fun d a b k e p s s1 => ⟨?_, ?_, maskLogic_acts (op := .and) s1 rfl, maskLogic_acts (op := .or) s1 rfl, maskLogic_acts (op := .xor)
      s1 rfl, ?_⟩,
    fun d a b s => ⟨vStops_of_vFront rfl, vStops_of_vFront rfl, vStops_of_vFront rfl, fun h hlegal => ⟨?_, ?_⟩, fun h hlegal => ?_⟩⟩
  · have acts := compare_acts (i := .vcmp d a b k e p) (s := s) s1 rfl rfl fun htypes j =>
      intCond_eq (of_decide_eq_true (Bool.and_eq_true_iff.mp htypes).2) _ _ (Ctx.elem_lt _ _ _ _) (VSrc.at_lt _ _ _ _)
    rw [Ctx.maskRule_compareBit] at acts
    exact acts
  · have acts := compare_acts (i := .vfcmp d a b k e p) (s := s) s1 rfl rfl fun htypes j =>
      floatCond_eq (of_decide_eq_true (Bool.and_eq_true_iff.mp htypes).2) _ _
    rw [Ctx.maskRule_compareBit] at acts
    exact acts
  · have acts := maskLogic_acts (i := .mnot d a) (op := .not) (b := 0#5) (s := s) s1 rfl
    rw [notLegal_eq] at acts
    exact acts
  · exact vFront_writes rfl h hlegal (congrArg _ (popNat_maskBelow (vlLen_le_vlMax h.2) a))
  · exact vFront_writes rfl h hlegal (first_maskBelow (vlLen_le_vlMax h.2) a)
  · refine vFront_writes rfl h hlegal (ite_congr rfl (fun hin => ?_) fun _ => rfl)
    rw [Ctx.elemAt_vGroup _ (vtW_dvd _) (vlMax_eq _ ▸ Nat.lt_of_lt_of_le hin (vlLen_le_vlMax h.2))]
    exact scalarOf_eq _ (Ctx.elem_lt _ _ _ _)

end Sys2Proof.Machine
end
